-- ==== Sys2Proof/Word.lean ====
section
/-!
DEFINITION. The word types of the KY4812 model and the type of sparse maps. R6: every multi-byte structure is
little-endian, bit 0 is the least significant bit.
-/

namespace Sys2Proof

/-- One byte (R6). -/
abbrev Byte := BitVec 8

/-- A thread register (R46): 32 bits. -/
abbrev Word := BitVec 32

/-- A uniform register (R47), and any 64-bit quantity. -/
abbrev DWord := BitVec 64

/-- A set of lanes of one group (R39): lane `i` is bit `i`. -/
abbrev Mask := BitVec 32

/-- A sparse map keyed by numbers: pairs of key and value, keys strictly rising. -/
abbrev NMap (α : Type) := List (Nat × α)

end Sys2Proof
end

