-- ==== Sys2Proof/Syntax.lean ====
section
/-!
DEFINITION. The commands of the KY4812 as a block: one constructor of `Instr` for each row of the opcode table, with
its operands. A command of the thread set names the cell and the group slot that issues it and carries the fields of
its 64-bit word (R49, R50) whose `fmt` and `op` its row fixes; a macro-op carries the header and payload of its
128-bit word (R79, R80); a packet names the queue and the sequence number of a fetched packet (R266, R267); every
other command carries what its event brings from outside the device.
-/

namespace Sys2Proof

/-- A physical cell (R13, R18): region, block, physical cell index. -/
structure CellId where
  region : Fin 24
  block  : Fin 12
  cell   : Fin 9
deriving DecidableEq, Repr

/-- A block of a region (R18). -/
structure BlockId where
  region : Fin 24
  block  : Fin 12
deriving DecidableEq, Repr

/-- The group slot that issues an instruction (R40). -/
structure GTgt where
  cell : CellId
  slot : Fin 16
deriving DecidableEq, Repr

/-- The guard of an instruction (R48, R49). -/
structure Guard where
  ge : Bool
  gp : Fin 8
  gn : Bool
deriving DecidableEq, Repr

/-- Bits [63:16] of the formats F0 and F1 (R50); `rsv` is the reserved field of F0. -/
inductive AluForm where
  | f0 (vd va vb vc : BitVec 7) (mod : BitVec 4) (sub : BitVec 8) (rsv : BitVec 8)
  | f1 (vd va : BitVec 7) (mod : BitVec 2) (imm : BitVec 32)
deriving DecidableEq, Repr

/-- An F0 or F1 instruction without its `op`. -/
structure AluI where
  g : Guard
  f : AluForm
deriving DecidableEq, Repr

/-- An F2 instruction without its `op` (R50). -/
structure MemI where
  g     : Guard
  vd    : BitVec 7
  va    : BitVec 7
  size  : BitVec 3
  hint  : BitVec 2
  ubase : Bool
  sign  : Bool
  pd    : BitVec 3
  off   : BitVec 24
deriving DecidableEq, Repr

/-- An F3 instruction without its `op` (R50). -/
structure PredI where
  g    : Guard
  pd   : BitVec 3
  pq   : BitVec 3
  va   : BitVec 7
  vb   : BitVec 7
  cond : BitVec 4
  ps   : BitVec 3
  comb : BitVec 2
  rsv  : Bool
  type : BitVec 2
  rsv2 : BitVec 16
deriving DecidableEq, Repr

/-- An F4 instruction without its `op` (R50). -/
structure BrI where
  g    : Guard
  toff : BitVec 24
  roff : BitVec 24
deriving DecidableEq, Repr

/-- An F5 instruction without its `op` (R50). -/
structure UniI where
  g   : Guard
  ud  : BitVec 5
  ua  : BitVec 5
  ub  : BitVec 5
  sr  : BitVec 8
  rsv : Bool
  imm : BitVec 24
deriving DecidableEq, Repr

/-- The two macro-op streams of a cell. -/
inductive Stream where
  | access
  | execute
deriving DecidableEq, Repr

/-- A macro-op word without its `op` (R79, R80): the header and bits [127:32]. -/
structure MacroWord where
  we      : Bool
  wq      : Fin 4
  se      : Bool
  sq      : Fin 4
  tchk    : Bool
  rsv     : Bool
  tag     : BitVec 16
  payload : BitVec 96
deriving DecidableEq, Repr

/-- A physical upset of one bit of an accumulator element, which the checksum test looks for (R125, R127). -/
structure Upset where
  row : Fin 64
  col : Fin 16
  bit : Nat
deriving DecidableEq, Repr

/-- What the memory side reports for an access (R221, R222): nothing, a corrected error, an uncorrectable one, read
bursts reissued for CRC, or read retries exhausted; write bursts reissued, or write retries exhausted; `at k` says that
the report is for the access's line number `k` and not for its first. -/
inductive ReadOutcome where
  | clean
  | corrected
  | uncorrectable
  | crcRetried (n : Nat)
  | crcExhausted (retrainOk : Bool)
  | writeRetried (n : Nat)
  | writeExhausted (retrainOk : Bool)
  | at (k : Nat) (r : ReadOutcome)
deriving DecidableEq, Repr

/-- What comes to a cell with an answer (R192 to R195, R222, R428): the findings of its arrays, of the block L2 and of
the home shared cache, or an answer of the target. A tag parity error names a way of the accessed line's set, or the
line. -/
inductive Answer where
  | ok (r : ReadOutcome)
  | targetReset
  | l1Corrected
  | l1TagParity
  | l1TagParityWay (way : Fin 4)
  | l1Refetched
  | l1RefetchFailed
  | l2Corrected
  | l2TagParityClean
  | l2TagParityDirty (line : Nat)
  | l2TagParityWay (way : Fin 8)
  | l2Refetched
  | l2DirtyUncorrectable (line word : Nat)
  | scdCorrected
  | scdTagParity (way : Fin 16)
  | scdUncorrectable
  | scratchCorrected
  | scratchUncorrectable (addr : Nat)
  | regfileUncorrectable (slot : Fin 16)
  | regfileCorrected
  | staleEpoch
deriving DecidableEq, Repr

/-- What MEMORY_REPLY brings: the answer to an outstanding request of the cell, to an instruction fetch, or to a
macro-op fetch (R463, R76). -/
inductive Reply where
  | data (id : Nat) (a : Answer)
  | ifetch (slot : Fin 16) (word : DWord) (a : Answer)
  | mfetch (st : Stream) (op : BitVec 8) (a : Answer)
deriving DecidableEq, Repr

/-- A unit that is being evacuated (R230, R426). -/
inductive EvacUnit where
  | site (site : Fin 12)
  | port (p : Fin 4)
deriving DecidableEq, Repr

/-- What the scrubber finds in one shared-cache line (R196). -/
inductive ScrubFinding where
  | clean
  | correctable
  | uncorrectable
  | tagParity
deriving DecidableEq, Repr

/-- Why a far-tier port fails (R229). -/
inductive PortFailCause where
  | linkDown
  | containment
  | retrain
  | viral
deriving DecidableEq, Repr

/-- One device found while a far-tier port enumerates (R225): a Type 3 device or another kind, whether it lies behind
the switch, whether it is a logical device of a multi-logical device, its volatile capacity in bytes. -/
structure Expander where
  type3    : Bool
  behindSw : Bool
  mld      : Bool
  capacity : Nat
deriving DecidableEq, Repr

/-- The outcome of training and enumerating a far-tier port (R224, R225). -/
structure PortEnum where
  trained : Bool
  lanes   : Nat
  flit256 : Bool
  gts     : Nat
  switch  : Bool
  devs    : List Expander
deriving DecidableEq, Repr

/-- The outcome of training a Silit port (R345): the lanes that trained. -/
structure Training where
  lanes : BitVec 8
deriving DecidableEq, Repr

/-- The self-test results of one region reset (R201): failing cells as (block, physical cell), failing block L2s. -/
structure SelfTest where
  cells : List (Fin 12 × Fin 9)
  l2s   : List (Fin 12)
deriving DecidableEq, Repr

/-- What a firmware step meets outside the device (R404, R410): flash failures, and dies whose standby memory does not
load. -/
structure FlashEnv where
  flashOk : Bool
  loadOk  : Bool
deriving DecidableEq, Repr

/-- What discovery reads of a boot flash (R383): its size in bytes, the revision of its SFDP table as a letter's place
(D is 4), the 4-byte address instruction table, the uniform erase size, the xSPI profile 1.0 table, the 1S-4S-4S read. -/
structure FlashDev where
  size     : Nat
  revision : Nat
  fourByte : Bool
  erase    : Nat
  xspi     : Bool
  quad     : Bool
deriving DecidableEq, Repr

/-- What a start-up meets (R379, R381): the fuse array's own check, the flash with a valid SFDP if there is one, the
dies' start reports of the first and second candidate, the self-tests, the training results. -/
structure StartEnv where
  fuseOk    : Bool
  flash     : Option FlashDev
  starts    : List Bool
  scdOk     : List Bool
  tests     : List (Fin 24 × SelfTest)
  badSites  : List (Fin 12)
  initOk    : Bool
  ports     : List (Fin 4 × PortEnum)
  silit     : List (Fin 12 × Training)
  recoveryN : Bool
  logOk     : Bool
deriving DecidableEq, Repr

/-- A base address register of the function (R325), or the function's configuration space (R323). -/
inductive Bar where
  | bar0
  | bar2
  | bar4
  | config
deriving DecidableEq, Repr

/-- A Silit frame (R346): header fields and payload; the row of a received frame fixes its `type`. `good` is 0 when
the trailer or the FEC fails. -/
structure Frame where
  dst    : BitVec 16
  src    : BitVec 16
  hops   : BitVec 4
  vc     : Bool
  status : BitVec 3
  lseq   : BitVec 32
  lack   : BitVec 32
  tid    : BitVec 16
  tepoch : BitVec 8
  size   : BitVec 3
  sign   : Bool
  aop    : BitVec 4
  addr   : BitVec 64
  arg    : BitVec 32
  data   : List Byte
  good   : Bool
deriving DecidableEq, Repr

/-- A PTP message (R375) as the port's hardware hands it on: sender, domain, transport, sequence, the time stamps in
nanoseconds (origin and arrival), and the Announce ranking. -/
structure PtpMsg where
  clockId   : DWord
  domain    : Nat
  udp       : Bool
  seq       : Nat
  twoStep   : Bool
  origin    : Nat
  arrival   : Nat
  corr      : Int
  rank      : Nat
deriving DecidableEq, Repr

/-- The path an SPDM request comes by (R338): DOE or MCTP. -/
inductive SpdmPath where
  | doe
  | mctp
deriving DecidableEq, Repr

/-- One measurement of the rails (R442): (rail, millivolts, milliamperes), and the regulator conditions of R448. -/
structure RailSample where
  rails     : List (Fin 56 × Nat × Nat)
  regFault  : Bool
  vin12Low  : Bool
deriving DecidableEq, Repr

/-- The QoS class of an S2M response (R224). -/
inductive DevLoad where
  | light
  | optimal
  | moderate
  | severe
deriving DecidableEq, Repr

/-- The commands of the block: one constructor for each row of the opcode table, in the table's order. -/
inductive Instr where
  /-- IADD (R52). -/
  | iadd (t : GTgt) (i : AluI)
  /-- ISUB (R52). -/
  | isub (t : GTgt) (i : AluI)
  /-- IMUL (R57). -/
  | imul (t : GTgt) (i : AluI)
  /-- IMULHI (R57). -/
  | imulhi (t : GTgt) (i : AluI)
  /-- IMAD (R57). -/
  | imad (t : GTgt) (i : AluI)
  /-- IMIN (R52). -/
  | imin (t : GTgt) (i : AluI)
  /-- IMAX (R52). -/
  | imax (t : GTgt) (i : AluI)
  /-- IABS (R52). -/
  | iabs (t : GTgt) (i : AluI)
  /-- AND (R52). -/
  | land (t : GTgt) (i : AluI)
  /-- OR (R52). -/
  | lor (t : GTgt) (i : AluI)
  /-- XOR (R52). -/
  | xor (t : GTgt) (i : AluI)
  /-- NOT (R52). -/
  | lnot (t : GTgt) (i : AluI)
  /-- SHL (R53). -/
  | shl (t : GTgt) (i : AluI)
  /-- SHR (R53). -/
  | shr (t : GTgt) (i : AluI)
  /-- SAR (R53). -/
  | sar (t : GTgt) (i : AluI)
  /-- POPC (R52). -/
  | popc (t : GTgt) (i : AluI)
  /-- CLZ (R52). -/
  | clz (t : GTgt) (i : AluI)
  /-- BREV (R52). -/
  | brev (t : GTgt) (i : AluI)
  /-- MOV (R53). -/
  | mov (t : GTgt) (i : AluI)
  /-- BFE (R53). -/
  | bfe (t : GTgt) (i : AluI)
  /-- BFI (R53). -/
  | bfi (t : GTgt) (i : AluI)
  /-- FADD (R55). -/
  | fadd (t : GTgt) (i : AluI)
  /-- FMUL (R55). -/
  | fmul (t : GTgt) (i : AluI)
  /-- FFMA (R55). -/
  | ffma (t : GTgt) (i : AluI)
  /-- FMIN (R55). -/
  | fmin (t : GTgt) (i : AluI)
  /-- FMAX (R55). -/
  | fmax (t : GTgt) (i : AluI)
  /-- FABS (R55). -/
  | fabs (t : GTgt) (i : AluI)
  /-- FNEG (R55). -/
  | fneg (t : GTgt) (i : AluI)
  /-- FRCP (R55). -/
  | frcp (t : GTgt) (i : AluI)
  /-- FRSQ (R55). -/
  | frsq (t : GTgt) (i : AluI)
  /-- FSQRT (R55). -/
  | fsqrt (t : GTgt) (i : AluI)
  /-- FEXP2 (R55). -/
  | fexp2 (t : GTgt) (i : AluI)
  /-- FLOG2 (R55). -/
  | flog2 (t : GTgt) (i : AluI)
  /-- FSIN (R55). -/
  | fsin (t : GTgt) (i : AluI)
  /-- FCOS (R55). -/
  | fcos (t : GTgt) (i : AluI)
  /-- FFMA2 (R57). -/
  | ffma2 (t : GTgt) (i : AluI)
  /-- HADD2 (R55). -/
  | hadd2 (t : GTgt) (i : AluI)
  /-- HMUL2 (R55). -/
  | hmul2 (t : GTgt) (i : AluI)
  /-- HFMA2 (R55). -/
  | hfma2 (t : GTgt) (i : AluI)
  /-- HMIN2 (R55). -/
  | hmin2 (t : GTgt) (i : AluI)
  /-- HMAX2 (R55). -/
  | hmax2 (t : GTgt) (i : AluI)
  /-- DADD (R55). -/
  | dadd (t : GTgt) (i : AluI)
  /-- DMUL (R55). -/
  | dmul (t : GTgt) (i : AluI)
  /-- DFMA (R57). -/
  | dfma (t : GTgt) (i : AluI)
  /-- DMIN (R55). -/
  | dmin (t : GTgt) (i : AluI)
  /-- DMAX (R55). -/
  | dmax (t : GTgt) (i : AluI)
  /-- DRCP (R55). -/
  | drcp (t : GTgt) (i : AluI)
  /-- DRSQ (R55). -/
  | drsq (t : GTgt) (i : AluI)
  /-- DSQRT (R55). -/
  | dsqrt (t : GTgt) (i : AluI)
  /-- CVT (R54). -/
  | cvt (t : GTgt) (i : AluI)
  /-- SHFL (R52). -/
  | shfl (t : GTgt) (i : AluI)
  /-- SEL (R52). -/
  | sel (t : GTgt) (i : AluI)
  /-- S2V (R67). -/
  | s2v (t : GTgt) (i : AluI)
  /-- U2V (R52). -/
  | u2v (t : GTgt) (i : AluI)
  /-- V2U (R52). -/
  | v2u (t : GTgt) (i : AluI)
  /-- LD (R146). -/
  | ld (t : GTgt) (i : MemI)
  /-- ST (R146). -/
  | st (t : GTgt) (i : MemI)
  /-- STNT (R169). -/
  | stnt (t : GTgt) (i : MemI)
  /-- LDS (R56). -/
  | lds (t : GTgt) (i : MemI)
  /-- STS (R56). -/
  | sts (t : GTgt) (i : MemI)
  /-- LDRES (R159). -/
  | ldres (t : GTgt) (i : MemI)
  /-- STCOND (R161). -/
  | stcond (t : GTgt) (i : MemI)
  /-- ATOM_ADD (R66). -/
  | atomAdd (t : GTgt) (i : MemI)
  /-- ATOM_MIN (R66). -/
  | atomMin (t : GTgt) (i : MemI)
  /-- ATOM_MAX (R66). -/
  | atomMax (t : GTgt) (i : MemI)
  /-- ATOM_AND (R66). -/
  | atomAnd (t : GTgt) (i : MemI)
  /-- ATOM_OR (R66). -/
  | atomOr (t : GTgt) (i : MemI)
  /-- ATOM_XOR (R66). -/
  | atomXor (t : GTgt) (i : MemI)
  /-- ATOM_EXCH (R66). -/
  | atomExch (t : GTgt) (i : MemI)
  /-- ATOM_CAS (R66). -/
  | atomCas (t : GTgt) (i : MemI)
  /-- ATOM_FADD (R66). -/
  | atomFadd (t : GTgt) (i : MemI)
  /-- FE_TAKE (R163). -/
  | feTake (t : GTgt) (i : MemI)
  /-- FE_PEEK (R163). -/
  | fePeek (t : GTgt) (i : MemI)
  /-- FE_PUT (R163). -/
  | fePut (t : GTgt) (i : MemI)
  /-- FE_UPDATE (R163). -/
  | feUpdate (t : GTgt) (i : MemI)
  /-- FE_CLEAR (R163). -/
  | feClear (t : GTgt) (i : MemI)
  /-- ICMP (R52). -/
  | icmp (t : GTgt) (i : PredI)
  /-- FCMP (R52). -/
  | fcmp (t : GTgt) (i : PredI)
  /-- DCMP (R52). -/
  | dcmp (t : GTgt) (i : PredI)
  /-- PLOGIC (R52). -/
  | plogic (t : GTgt) (i : PredI)
  /-- PANY (R52). -/
  | pany (t : GTgt) (i : PredI)
  /-- PALL (R52). -/
  | pall (t : GTgt) (i : PredI)
  /-- PMASK (R52). -/
  | pmask (t : GTgt) (i : PredI)
  /-- BR (R60). -/
  | br (t : GTgt) (i : BrI)
  /-- CALL (R61). -/
  | call (t : GTgt) (i : BrI)
  /-- RET (R61). -/
  | ret (t : GTgt) (i : BrI)
  /-- EXIT (R61). -/
  | exit (t : GTgt) (i : BrI)
  /-- BAR_SYNC (R62). -/
  | barSync (t : GTgt) (i : BrI)
  /-- BKPT (R70). -/
  | bkpt (t : GTgt) (i : BrI)
  /-- NOP_INSTRUCTION (R52). -/
  | nopInstruction (t : GTgt) (i : BrI)
  /-- UMOV (R52). -/
  | umov (t : GTgt) (i : UniI)
  /-- UADD (R52). -/
  | uadd (t : GTgt) (i : UniI)
  /-- UADDI (R52). -/
  | uaddi (t : GTgt) (i : UniI)
  /-- ULD (R52). -/
  | uld (t : GTgt) (i : UniI)
  /-- S2U (R67). -/
  | s2u (t : GTgt) (i : UniI)
  /-- TAPPEND_A (R63). -/
  | tappendA (t : GTgt) (i : UniI)
  /-- TAPPEND_X (R63). -/
  | tappendX (t : GTgt) (i : UniI)
  /-- TWAIT_A (R64). -/
  | twaitA (t : GTgt) (i : UniI)
  /-- TWAIT_X (R64). -/
  | twaitX (t : GTgt) (i : UniI)
  /-- MEMBAR_CELL (R154). -/
  | membarCell (t : GTgt) (i : UniI)
  /-- MEMBAR_DEVICE (R154). -/
  | membarDevice (t : GTgt) (i : UniI)
  /-- MEMBAR_SYSTEM (R154). -/
  | membarSystem (t : GTgt) (i : UniI)
  /-- MEMBAR_FABRIC (R154). -/
  | membarFabric (t : GTgt) (i : UniI)
  /-- ICINV (R56). -/
  | icinv (t : GTgt) (i : UniI)
  /-- L1INV (R56). -/
  | l1inv (t : GTgt) (i : UniI)
  /-- MEMORY_REPLY (R463). -/
  | memoryReply (c : CellId) (r : Reply)
  /-- FE_RESEND (R167). -/
  | feResend (c : CellId) (id : Nat)
  /-- FE_WAIT_TIMEOUT (R168). -/
  | feWaitTimeout (c : CellId) (id : Nat)
  /-- WATCHDOG (R71). -/
  | watchdog (c : CellId)
  /-- COMBINING_ENTRY_IDLE_FLUSH (R170). -/
  | combiningEntryIdleFlush (c : CellId) (line : Nat)
  /-- DEAD_TARGET_TIMEOUT (R186). -/
  | deadTargetTimeout (c : CellId) (id : Nat)
  /-- HALT_REPORT (R68). -/
  | haltReport (c : CellId)
  /-- THREAD_BLOCK_PLACEMENT (R257). -/
  | threadBlockPlacement
  /-- THREAD_BLOCK_RETIRE (R45). -/
  | threadBlockRetire (c : CellId) (tb : Nat)
  /-- KERNEL_END (R151). -/
  | kernelEnd (b : BlockId)
  /-- KERNEL_RETIRE (R152). -/
  | kernelRetire (k : Nat)
  /-- SYNC (R80). -/
  | sync (c : CellId) (st : Stream) (w : MacroWord)
  /-- END (R80). -/
  | mend (c : CellId) (st : Stream) (w : MacroWord)
  /-- JUMP (R80). -/
  | jump (c : CellId) (st : Stream) (w : MacroWord)
  /-- LOOP (R80). -/
  | mloop (c : CellId) (st : Stream) (w : MacroWord)
  /-- SETC (R80). -/
  | setc (c : CellId) (st : Stream) (w : MacroWord)
  /-- SETD (R80). -/
  | setd (c : CellId) (st : Stream) (w : MacroWord)
  /-- DADV (R80). -/
  | dadv (c : CellId) (st : Stream) (w : MacroWord)
  /-- SETA (R80). -/
  | seta (c : CellId) (st : Stream) (w : MacroWord)
  /-- AADV (R80). -/
  | aadv (c : CellId) (st : Stream) (w : MacroWord)
  /-- APPEND (R77). -/
  | append (c : CellId) (st : Stream) (w : MacroWord)
  /-- TLOAD (R89). -/
  | tload (c : CellId) (st : Stream) (w : MacroWord)
  /-- TSTORE (R91). -/
  | tstore (c : CellId) (st : Stream) (w : MacroWord)
  /-- TGATHER (R92). -/
  | tgather (c : CellId) (st : Stream) (w : MacroWord)
  /-- TVERIFY (R90). -/
  | tverify (c : CellId) (st : Stream) (w : MacroWord)
  /-- MMA (R94). -/
  | mma (c : CellId) (st : Stream) (w : MacroWord)
  /-- ACCST (R96). -/
  | accst (c : CellId) (st : Stream) (w : MacroWord)
  /-- ACCLD (R96). -/
  | accld (c : CellId) (st : Stream) (w : MacroWord)
  /-- ELEM (R97). -/
  | elem (c : CellId) (st : Stream) (w : MacroWord)
  /-- REDUCE (R98). -/
  | reduce (c : CellId) (st : Stream) (w : MacroWord)
  /-- LUT (R99). -/
  | lut (c : CellId) (st : Stream) (w : MacroWord)
  /-- TBLLD (R137). -/
  | tblld (c : CellId) (st : Stream) (w : MacroWord)
  /-- MACRO_OP_COMPLETION (R83). -/
  | macroOpCompletion (c : CellId) (st : Stream) (n : Nat)
  /-- MACRO_OP_RETIREMENT (R83). -/
  | macroOpRetirement (c : CellId) (st : Stream) (n : Nat) (up : Option Upset)
  /-- SNPDATA (R332). -/
  | snpdata (line : Nat)
  /-- SNPINV (R332). -/
  | snpinv (line : Nat)
  /-- SNPCUR (R332). -/
  | snpcur (line : Nat)
  /-- BIRSP (R335). -/
  | birsp (line : Nat) (dirty : Option (BitVec 1024))
  /-- MEMRD (R334). -/
  | memrd (hpa : Nat) (excl : Bool) (a : ReadOutcome)
  /-- MEMWR (R334). -/
  | memwr (hpa : Nat) (data : List Byte)
  /-- CACHE_WRITEBACK_AND_INVALIDATE (R332). -/
  | cacheWritebackAndInvalidate
  /-- HDM_DECODER_COMMIT (R324). -/
  | hdmDecoderCommit (base size ways : Nat)
  /-- HEAT_SCAN (R246). -/
  | heatScan (dpn : Nat)
  /-- MIGRATION_START (R251). -/
  | migrationStart (mid : Fin 4)
  /-- MIGRATION_PASS_END (R251). -/
  | migrationPassEnd (dpn : Nat) (a : ReadOutcome)
  /-- FRAME_ZEROED (R242). -/
  | frameZeroed (loc frame : Nat)
  /-- FAR_TIER_CLEAR (R382). -/
  | farTierClear (p : Fin 4)
  /-- EVACUATION_COMPLETE (R230). -/
  | evacuationComplete (u : EvacUnit)
  /-- REFRESH (R219). -/
  | refresh (site : Fin 12) (ch : Fin 4) (die bank : Nat)
  /-- RETRAIN (R219). -/
  | retrain (site : Fin 12) (ch die : Fin 4) (ok : Bool)
  /-- PATROL (R223). -/
  | patrol (site : Fin 12) (addr : Nat) (a : ReadOutcome)
  /-- SCRUB (R196). -/
  | scrub (j : Fin 2) (line : Nat) (e : ScrubFinding)
  /-- FAR_PORT_FAILURE (R229). -/
  | farPortFailure (p : Fin 4) (c : PortFailCause)
  /-- CXL_MEM_TIMEOUT (R228). -/
  | cxlMemTimeout (p : Fin 4) (exp : Nat)
  /-- MEMDATA (R228). -/
  | memdata (p : Fin 4) (poison : Bool)
  /-- EXPANDER_INSERTION (R230). -/
  | expanderInsertion (p : Fin 4) (e : PortEnum)
  /-- PMC_SEL_WRITE (R36). -/
  | pmcSelWrite (r : Fin 24) (k : Fin 8) (v : BitVec 32)
  /-- PMC_CLEAR (R36). -/
  | pmcClear (r : Fin 24)
  /-- PMC_SNAPSHOT (R36). -/
  | pmcSnapshot (r : Fin 24)
  /-- OFFLINE_REQ (R230). -/
  | offlineReq (p : Fin 4)
  /-- ONLINE_REQ (R230). -/
  | onlineReq (p : Fin 4) (e : PortEnum)
  /-- BOOTQ_ENABLE (R289). -/
  | bootqEnable
  /-- BOOTQ_RESUME (R289). -/
  | bootqResume (retry : Bool)
  /-- BOOTQ_RESET (R289). -/
  | bootqReset
  /-- FENCE_FORCE (R296). -/
  | fenceForce (f : Fin 4096) (v : DWord)
  /-- SITE_EVACUATE (R426). -/
  | siteEvacuate (site : Fin 12)
  /-- SITE_RESET (R425). -/
  | siteReset (site : Fin 12) (ok : Bool)
  /-- SITE_POWER_DOWN (R426). -/
  | sitePowerDown (site : Fin 12)
  /-- SITE_POWER_UP (R426). -/
  | sitePowerUp (site : Fin 12) (ok : Bool)
  /-- FAR_PORT_EVACUATE (R426). -/
  | farPortEvacuate (p : Fin 4)
  /-- FAR_PORT_POWER_DOWN (R426). -/
  | farPortPowerDown (p : Fin 4)
  /-- FAR_PORT_RESET (R426). -/
  | farPortReset (p : Fin 4) (e : PortEnum)
  /-- FAR_PORT_POWER_UP (R426). -/
  | farPortPowerUp (p : Fin 4) (e : PortEnum)
  /-- SILIT_PORT_RESET (R427). -/
  | silitPortReset (p : Fin 12) (l : Training)
  /-- SILIT_PORT_POWER_DOWN (R426). -/
  | silitPortPowerDown (p : Fin 12)
  /-- SILIT_PORT_POWER_UP (R426). -/
  | silitPortPowerUp (p : Fin 12) (l : Training)
  /-- BEGIN (R417). -/
  | mbxBegin (len : BitVec 32) (target : Bool) (flashOk : Bool)
  /-- CHUNK (R417). -/
  | chunk (n : Nat) (flashOk : Bool)
  /-- FINISH (R417). -/
  | finish (flashOk : Bool)
  /-- ABORT (R417). -/
  | mbxAbort
  /-- DISARM (R417). -/
  | disarm
  /-- JANUARY_NEXT (R417). -/
  | januaryNext (v : Bool)
  /-- RESTART (R416). -/
  | restart (e : StartEnv)
  /-- MSIX_UNMASK (R336). -/
  | msixUnmask (v : Nat)
  /-- REGISTER_WRITE (R7). -/
  | registerWrite (bar : Bar) (off size : Nat) (v : DWord) (kernel : Bool)
  /-- REJECTED_ACCESS (R326). -/
  | rejectedAccess (bar : Bar) (off size : Nat) (write : Bool)
  /-- DOORBELL (R263). -/
  | doorbell (q : Fin 4096) (v : DWord)
  /-- FETCH_RUN (R264). -/
  | fetchRun (q : Fin 4096)
  /-- LAUNCH (R274). -/
  | launch (q : Fin 4096) (seq : Nat)
  /-- COPY (R275). -/
  | copyPkt (q : Fin 4096) (seq : Nat)
  /-- FILL (R275). -/
  | fill (q : Fin 4096) (seq : Nat)
  /-- COPY_PIECE_DONE (R282). -/
  | copyPieceDone (e : Fin 8) (a : ReadOutcome)
  /-- FENCE_SIGNAL (R293). -/
  | fenceSignal (q : Fin 4096) (seq : Nat)
  /-- FENCE_WAIT (R294). -/
  | fenceWait (q : Fin 4096) (seq : Nat)
  /-- FE_WAIT (R275). -/
  | feWait (q : Fin 4096) (seq : Nat)
  /-- PLACE_HINT (R254). -/
  | placeHint (q : Fin 4096) (seq : Nat)
  /-- TIMESTAMP (R275). -/
  | timestamp (q : Fin 4096) (seq : Nat)
  /-- MARK (R275). -/
  | markPkt (q : Fin 4096) (seq : Nat)
  /-- MEMBAR (R153). -/
  | membar (q : Fin 4096) (seq : Nat)
  /-- ALL_REDUCE (R367). -/
  | allReduce (q : Fin 4096) (seq : Nat)
  /-- REDUCE_SCATTER (R367). -/
  | reduceScatter (q : Fin 4096) (seq : Nat)
  /-- ALL_GATHER (R367). -/
  | allGather (q : Fin 4096) (seq : Nat)
  /-- BROADCAST (R367). -/
  | broadcast (q : Fin 4096) (seq : Nat)
  /-- BARRIER (R367). -/
  | barrier (q : Fin 4096) (seq : Nat)
  /-- INVALIDATE (R275). -/
  | invalidate (q : Fin 4096) (seq : Nat)
  /-- NOP (R275). -/
  | nopPkt (q : Fin 4096) (seq : Nat)
  /-- CHAIN (R271). -/
  | chain (q : Fin 4096) (seq : Nat)
  /-- MAP_UPDATE_INVALIDATE (R237). -/
  | mapUpdateInvalidate (q : Fin 4096) (seq : Nat)
  /-- DPN_ALLOC (R241). -/
  | dpnAlloc (q : Fin 4096) (seq : Nat)
  /-- DPN_FREE (R241). -/
  | dpnFree (q : Fin 4096) (seq : Nat)
  /-- SET_ROOT (R276). -/
  | setRoot (q : Fin 4096) (seq : Nat)
  /-- ASC_CREATE (R279). -/
  | ascCreate (q : Fin 4096) (seq : Nat)
  /-- ASC_DESTROY (R313). -/
  | ascDestroy (q : Fin 4096) (seq : Nat)
  /-- QUEUE_CREATE (R287). -/
  | queueCreate (q : Fin 4096) (seq : Nat)
  /-- QUEUE_DESTROY (R287). -/
  | queueDestroy (q : Fin 4096) (seq : Nat)
  /-- QUEUE_STOP (R287). -/
  | queueStop (q : Fin 4096) (seq : Nat)
  /-- QUEUE_START (R287). -/
  | queueStart (q : Fin 4096) (seq : Nat)
  /-- QUEUE_RESUME (R287). -/
  | queueResume (q : Fin 4096) (seq : Nat)
  /-- QUEUE_RESET (R287). -/
  | queueReset (q : Fin 4096) (seq : Nat)
  /-- ASSIGN (R317). -/
  | assign (q : Fin 4096) (seq : Nat)
  /-- CLEAR (R317). -/
  | clear (q : Fin 4096) (seq : Nat)
  /-- PRIO_SET (R276). -/
  | prioSet (q : Fin 4096) (seq : Nat)
  /-- PLACE_PIN (R255). -/
  | placePin (q : Fin 4096) (seq : Nat)
  /-- ISOLATE (R277). -/
  | isolate (q : Fin 4096) (seq : Nat)
  /-- REGION_RESET (R424). -/
  | regionReset (q : Fin 4096) (seq : Nat) (t : SelfTest)
  /-- SELFTEST (R277). -/
  | selftest (q : Fin 4096) (seq : Nat) (t : SelfTest)
  /-- QUARANTINE (R421). -/
  | quarantine (q : Fin 4096) (seq : Nat)
  /-- REGION_POWER_DOWN (R277). -/
  | regionPowerDown (q : Fin 4096) (seq : Nat)
  /-- REGION_POWER_UP (R277). -/
  | regionPowerUp (q : Fin 4096) (seq : Nat) (t : SelfTest)
  /-- DUMP_SYNC (R436). -/
  | dumpSync (q : Fin 4096) (seq : Nat)
  /-- POWER_CAP (R443). -/
  | powerCap (q : Fin 4096) (seq : Nat)
  /-- FW_STAGE (R404). -/
  | fwStage (q : Fin 4096) (seq : Nat) (e : FlashEnv)
  /-- FW_ACTIVATE (R410). -/
  | fwActivate (q : Fin 4096) (seq : Nat) (e : FlashEnv)
  /-- REG_WRITE (R278). -/
  | regWrite (q : Fin 4096) (seq : Nat)
  /-- COMPLETION_RECORD_WRITE (R302). -/
  | completionRecordWrite (q : Fin 4096)
  /-- RECORD_WRITE_ACK (R304). -/
  | recordWriteAck (q : Fin 4096)
  /-- BUDGET_EXPIRY (R284). -/
  | budgetExpiry (k : Nat)
  /-- FENCE_WAIT_TIMEOUT (R298). -/
  | fenceWaitTimeout (q : Fin 4096) (seq : Nat)
  /-- FE_WAIT_EXPIRED (R308). -/
  | feWaitExpired (q : Fin 4096) (seq : Nat)
  /-- COLL_TIMEOUT (R370). -/
  | collTimeout (q : Fin 4096) (seq : Nat)
  /-- RD_REQ (R359). -/
  | rdReq (p : Fin 12) (f : Frame)
  /-- RD_RSP (R360). -/
  | rdRsp (p : Fin 12) (f : Frame)
  /-- WR_REQ (R361). -/
  | wrReq (p : Fin 12) (f : Frame)
  /-- WR_ACK (R359). -/
  | wrAck (p : Fin 12) (f : Frame)
  /-- ATOM_REQ (R359). -/
  | atomReq (p : Fin 12) (f : Frame)
  /-- ATOM_RSP (R360). -/
  | atomRsp (p : Fin 12) (f : Frame)
  /-- FE_REQ (R359). -/
  | feReq (p : Fin 12) (f : Frame)
  /-- FE_RSP (R360). -/
  | feRsp (p : Fin 12) (f : Frame)
  /-- FE_WITHDRAW (R360). -/
  | feWithdraw (p : Fin 12) (f : Frame)
  /-- FENCE_SIG (R363). -/
  | fenceSig (p : Fin 12) (f : Frame)
  /-- FENCE_ACK (R363). -/
  | fenceAck (p : Fin 12) (f : Frame)
  /-- COLL_DATA (R368). -/
  | collData (p : Fin 12) (f : Frame)
  /-- COLL_CREDIT (R369). -/
  | collCredit (p : Fin 12) (f : Frame)
  /-- COLL_ABORT (R370). -/
  | collAbort (p : Fin 12) (f : Frame)
  /-- FW_RELAY_START (R409). -/
  | fwRelayStart (p : Fin 12) (f : Frame)
  /-- FW_RELAY_DATA (R408). -/
  | fwRelayData (p : Fin 12) (f : Frame)
  /-- FW_RELAY_END (R409). -/
  | fwRelayEnd (p : Fin 12) (f : Frame) (e : FlashEnv)
  /-- FW_RELAY_ACTIVATE (R413). -/
  | fwRelayActivate (p : Fin 12) (f : Frame) (e : FlashEnv)
  /-- PROBE (R355). -/
  | probe (p : Fin 12) (f : Frame)
  /-- NAK (R356). -/
  | nak (p : Fin 12) (nbr : Nat) (lseq : Nat)
  /-- RETRANSMISSION_TIMER (R357). -/
  | retransmissionTimer (p : Fin 12) (nbr : Nat)
  /-- LACK_STALL (R358). -/
  | lackStall (p : Fin 12)
  /-- SILIT_RETRAIN_TIMEOUT (R358). -/
  | silitRetrainTimeout (p : Fin 12)
  /-- PORT_TRAINING_RETRY (R345). -/
  | portTrainingRetry (p : Fin 12) (l : Training)
  /-- PTP_SYNC (R376). -/
  | ptpSync (p : Fin 12) (m : PtpMsg)
  /-- ANNOUNCE (R375). -/
  | announce (p : Fin 12) (m : PtpMsg)
  /-- DELAY_RESP (R375). -/
  | delayResp (p : Fin 12) (m : PtpMsg)
  /-- SYNC_LOSS (R376). -/
  | syncLoss
  /-- PERST_ASSERT (R378). -/
  | perstAssert
  /-- CHIP_RESET_RELEASE (R379). -/
  | chipResetRelease (e : StartEnv)
  /-- JANUARY_FLASH_POLL (R416). -/
  | januaryFlashPoll
  /-- PWRGOOD_FALL (R439). -/
  | pwrgoodFall
  /-- HOT_RESET (R340). -/
  | hotReset
  /-- SECONDARY_BUS_RESET (R340). -/
  | secondaryBusReset
  /-- LINK_DISABLE (R340). -/
  | linkDisable
  /-- SURPRISE_LINK_DOWN (R340). -/
  | surpriseLinkDown
  /-- FLR (R340). -/
  | flr
  /-- CXL_RESET (R340). -/
  | cxlReset (memClr : Bool)
  /-- D3HOT_ENTRY (R322). -/
  | d3hotEntry
  /-- D3HOT_TO_D0 (R322). -/
  | d3hotToD0
  /-- HOST_LINK_TRAINED (R319). -/
  | hostLinkTrained (mode : Fin 4) (lanes : Nat) (gts : Nat)
  /-- DOE_DISCOVERY (R337). -/
  | doeDiscovery (inst : Bool) (index : Nat)
  /-- TABLE_ACCESS (R337). -/
  | tableAccess (entry : Nat)
  /-- DOE_ABORT (R337). -/
  | doeAbort (inst : Bool)
  /-- GET_VERSION (R338). -/
  | getVersion (path : SpdmPath)
  /-- GET_CAPABILITIES (R338). -/
  | getCapabilities (path : SpdmPath)
  /-- NEGOTIATE_ALGORITHMS (R338). -/
  | negotiateAlgorithms (path : SpdmPath)
  /-- GET_DIGESTS (R338). -/
  | getDigests (path : SpdmPath)
  /-- GET_CERTIFICATE (R338). -/
  | getCertificate (path : SpdmPath) (slot off len : Nat)
  /-- CHALLENGE (R338). -/
  | challenge (path : SpdmPath) (slot : Nat) (nonce : List Byte)
  /-- GET_MEASUREMENTS (R339). -/
  | getMeasurements (path : SpdmPath) (op : Nat) (nonce : List Byte)
  /-- ARMED_INSTANT (R410). -/
  | armedInstant
  /-- DIES_STARTED (R410). -/
  | diesStarted
  /-- DIE_START_TIMEOUT (R411). -/
  | dieStartTimeout
  /-- D2D_LINK_FAILURE (R17). -/
  | d2dLinkFailure (die : Nat)
  /-- REGION_NETWORK_ERROR (R420). -/
  | regionNetworkError (r : Fin 24)
  /-- REGION_MANAGER_SILENT (R420). -/
  | regionManagerSilent (r : Fin 24)
  /-- REGION_SLOW (R420). -/
  | regionSlow (r : Fin 24)
  /-- FW_FAULT (R430). -/
  | fwFault (die : Nat)
  /-- CTL_WATCHDOG (R430). -/
  | ctlWatchdog
  /-- TOKEN_RATE_MEASURE (R34). -/
  | tokenRateMeasure (r : Fin 24) (m : List Nat)
  /-- POWER_MANAGER_TICK (R444). -/
  | powerManagerTick (m : RailSample)
  /-- ENERGY_SPLIT (R315): the row has no fields, and the operand says nothing. -/
  | energySplit (m : Unit)
  /-- POWER_SAMPLE (R461). -/
  | powerSample
  /-- BEAT (R328). -/
  | beat
  /-- SENSOR_SAMPLE (R448). -/
  | sensorSample (m : List (Nat × Int))
  /-- PWR_BRAKE_ASSERT (R446). -/
  | pwrBrakeAssert
  /-- PWR_BRAKE_RELEASE (R446). -/
  | pwrBrakeRelease
  /-- PWROFF_REQ (R450). -/
  | pwroffReq
  /-- SET_ENDPOINT_ID (R452). -/
  | setEndpointId (eid : Byte)
  /-- SET_EVENT_RECEIVER (R452). -/
  | setEventReceiver (eid : Byte)
  /-- PLDM_SENSOR_READ (R452). -/
  | pldmSensorRead (id : Nat)
  /-- PLDM_EFFECTER_SET (R443). -/
  | pldmEffecterSet (id : Nat) (v : Nat)
  /-- EVENT_ACKNOWLEDGE (R452). -/
  | eventAcknowledge
  /-- EXTEST (R455). -/
  | extest
  /-- IDCODE (R454). -/
  | idcode
  /-- SAMPLE_PRELOAD (R454). -/
  | samplePreload (pins : BitVec 614) (pre : BitVec 614)
  /-- CLAMP (R455). -/
  | clamp
  /-- HIGHZ (R455). -/
  | highz
  /-- EXTEST_PULSE (R455). -/
  | extestPulse
  /-- EXTEST_TRAIN (R455). -/
  | extestTrain
  /-- BYPASS (R454), by its code or one that no row lists. -/
  | bypass (code : BitVec 8 := 0xFF)
  /-- DIE_INTERNAL_ERROR (R430). -/
  | dieInternalError (die : Nat)
  /-- NDR_CMP (R224). -/
  | ndrCmp (p : Fin 4) (load : DevLoad)
  /-- EXPANDER_EVENT_RECORD (R228). -/
  | expanderEventRecord (p : Fin 4) (exp : Nat)
  /-- CONTROL_UNIT (R349). -/
  | controlUnit (p : Fin 12) (lack : Nat) (nak : Option Nat) (cr0 cr1 : Nat)
  /-- SILIT_PORT_UP (R355). -/
  | silitPortUp (p : Fin 12) (l : Training)
  /-- FAR_TIER_LINK_UP (R379). -/
  | farTierLinkUp (p : Fin 4) (e : PortEnum)
  /-- FOLLOW_UP (R375). -/
  | followUp (p : Fin 12) (m : PtpMsg)
  /-- DELAY_REQ (R375). -/
  | delayReq (p : Fin 12)
  /-- LLDP (R344). -/
  | lldp (p : Fin 12)
  /-- PFC (R357). -/
  | pfc (p : Fin 12) (prio : Nat) (pause : Bool)
  /-- TEMPERATURE_READING (R219). -/
  | temperatureReading (site : Fin 12) (ch die : Fin 4) (t : Int)
  /-- TEST_LOGIC_RESET (R454). -/
  | testLogicReset
  /-- PWROFF_REQ_N_RELEASE (R451). -/
  | pwroffReqNRelease
deriving DecidableEq, Repr

end Sys2Proof
end

