-- ==== Sys2Proof/Decode.lean ====
section
/-!
DEFINITION. Decoding and encoding. The opcode table gives no row any bits, so that no word spells a command by them
(`decodeTableWord`). The spec's own encodings, of the thread set's 64-bit instructions (R49 to R52) and of the 128-bit
macro-op words (R79, R80), are decoded and encoded here: a group or a stream that fetches such a word issues the command
that the word spells.
-/

namespace Sys2Proof

/-- The command that a word spells by the table's bits: the table gives none. -/
def decodeTableWord (_nbits _w : Nat) : Option Instr := none

/-! ### Thread instructions -/

/-- The fields of an instruction beside its `op`, by format. -/
inductive Body where
  | alu (i : AluI)
  | mem (i : MemI)
  | pred (i : PredI)
  | br (i : BrI)
  | uni (i : UniI)
deriving DecidableEq, Repr

/-- The group, the `op` and the fields of a command of the thread set (R52). -/
def Instr.thread : Instr → Option (GTgt × BitVec 8 × Body)
  | .iadd t i => some (t, 0x00, .alu i)
  | .isub t i => some (t, 0x01, .alu i)
  | .imul t i => some (t, 0x02, .alu i)
  | .imulhi t i => some (t, 0x03, .alu i)
  | .imad t i => some (t, 0x04, .alu i)
  | .imin t i => some (t, 0x05, .alu i)
  | .imax t i => some (t, 0x06, .alu i)
  | .iabs t i => some (t, 0x07, .alu i)
  | .land t i => some (t, 0x08, .alu i)
  | .lor t i => some (t, 0x09, .alu i)
  | .xor t i => some (t, 0x0A, .alu i)
  | .lnot t i => some (t, 0x0B, .alu i)
  | .shl t i => some (t, 0x0C, .alu i)
  | .shr t i => some (t, 0x0D, .alu i)
  | .sar t i => some (t, 0x0E, .alu i)
  | .popc t i => some (t, 0x0F, .alu i)
  | .clz t i => some (t, 0x10, .alu i)
  | .brev t i => some (t, 0x11, .alu i)
  | .mov t i => some (t, 0x12, .alu i)
  | .bfe t i => some (t, 0x13, .alu i)
  | .bfi t i => some (t, 0x14, .alu i)
  | .fadd t i => some (t, 0x20, .alu i)
  | .fmul t i => some (t, 0x21, .alu i)
  | .ffma t i => some (t, 0x22, .alu i)
  | .fmin t i => some (t, 0x23, .alu i)
  | .fmax t i => some (t, 0x24, .alu i)
  | .fabs t i => some (t, 0x25, .alu i)
  | .fneg t i => some (t, 0x26, .alu i)
  | .frcp t i => some (t, 0x27, .alu i)
  | .frsq t i => some (t, 0x28, .alu i)
  | .fsqrt t i => some (t, 0x29, .alu i)
  | .fexp2 t i => some (t, 0x2A, .alu i)
  | .flog2 t i => some (t, 0x2B, .alu i)
  | .fsin t i => some (t, 0x2C, .alu i)
  | .fcos t i => some (t, 0x2D, .alu i)
  | .ffma2 t i => some (t, 0x2E, .alu i)
  | .hadd2 t i => some (t, 0x38, .alu i)
  | .hmul2 t i => some (t, 0x39, .alu i)
  | .hfma2 t i => some (t, 0x3A, .alu i)
  | .hmin2 t i => some (t, 0x3B, .alu i)
  | .hmax2 t i => some (t, 0x3C, .alu i)
  | .dadd t i => some (t, 0x40, .alu i)
  | .dmul t i => some (t, 0x41, .alu i)
  | .dfma t i => some (t, 0x42, .alu i)
  | .dmin t i => some (t, 0x43, .alu i)
  | .dmax t i => some (t, 0x44, .alu i)
  | .drcp t i => some (t, 0x45, .alu i)
  | .drsq t i => some (t, 0x46, .alu i)
  | .dsqrt t i => some (t, 0x47, .alu i)
  | .cvt t i => some (t, 0x50, .alu i)
  | .shfl t i => some (t, 0x58, .alu i)
  | .sel t i => some (t, 0x59, .alu i)
  | .s2v t i => some (t, 0x60, .alu i)
  | .u2v t i => some (t, 0x61, .alu i)
  | .v2u t i => some (t, 0x62, .alu i)
  | .ld t i => some (t, 0x00, .mem i)
  | .st t i => some (t, 0x01, .mem i)
  | .stnt t i => some (t, 0x02, .mem i)
  | .lds t i => some (t, 0x03, .mem i)
  | .sts t i => some (t, 0x04, .mem i)
  | .ldres t i => some (t, 0x05, .mem i)
  | .stcond t i => some (t, 0x06, .mem i)
  | .atomAdd t i => some (t, 0x10, .mem i)
  | .atomMin t i => some (t, 0x11, .mem i)
  | .atomMax t i => some (t, 0x12, .mem i)
  | .atomAnd t i => some (t, 0x13, .mem i)
  | .atomOr t i => some (t, 0x14, .mem i)
  | .atomXor t i => some (t, 0x15, .mem i)
  | .atomExch t i => some (t, 0x16, .mem i)
  | .atomCas t i => some (t, 0x17, .mem i)
  | .atomFadd t i => some (t, 0x18, .mem i)
  | .feTake t i => some (t, 0x20, .mem i)
  | .fePeek t i => some (t, 0x21, .mem i)
  | .fePut t i => some (t, 0x22, .mem i)
  | .feUpdate t i => some (t, 0x23, .mem i)
  | .feClear t i => some (t, 0x24, .mem i)
  | .icmp t i => some (t, 0x00, .pred i)
  | .fcmp t i => some (t, 0x01, .pred i)
  | .dcmp t i => some (t, 0x02, .pred i)
  | .plogic t i => some (t, 0x03, .pred i)
  | .pany t i => some (t, 0x04, .pred i)
  | .pall t i => some (t, 0x05, .pred i)
  | .pmask t i => some (t, 0x06, .pred i)
  | .br t i => some (t, 0x00, .br i)
  | .call t i => some (t, 0x01, .br i)
  | .ret t i => some (t, 0x02, .br i)
  | .exit t i => some (t, 0x03, .br i)
  | .barSync t i => some (t, 0x04, .br i)
  | .bkpt t i => some (t, 0x05, .br i)
  | .nopInstruction t i => some (t, 0x06, .br i)
  | .umov t i => some (t, 0x00, .uni i)
  | .uadd t i => some (t, 0x01, .uni i)
  | .uaddi t i => some (t, 0x02, .uni i)
  | .uld t i => some (t, 0x03, .uni i)
  | .s2u t i => some (t, 0x04, .uni i)
  | .tappendA t i => some (t, 0x08, .uni i)
  | .tappendX t i => some (t, 0x09, .uni i)
  | .twaitA t i => some (t, 0x0A, .uni i)
  | .twaitX t i => some (t, 0x0B, .uni i)
  | .membarCell t i => some (t, 0x10, .uni i)
  | .membarDevice t i => some (t, 0x11, .uni i)
  | .membarSystem t i => some (t, 0x12, .uni i)
  | .membarFabric t i => some (t, 0x13, .uni i)
  | .icinv t i => some (t, 0xF0, .uni i)
  | .l1inv t i => some (t, 0xF1, .uni i)
  | _ => none

/-- F0 and F1 by `op` (R52). -/
def aluOp (op : BitVec 8) : Option (GTgt → AluI → Instr) :=
  match op.toNat with
  | 0x00 => some .iadd
  | 0x01 => some .isub
  | 0x02 => some .imul
  | 0x03 => some .imulhi
  | 0x04 => some .imad
  | 0x05 => some .imin
  | 0x06 => some .imax
  | 0x07 => some .iabs
  | 0x08 => some .land
  | 0x09 => some .lor
  | 0x0A => some .xor
  | 0x0B => some .lnot
  | 0x0C => some .shl
  | 0x0D => some .shr
  | 0x0E => some .sar
  | 0x0F => some .popc
  | 0x10 => some .clz
  | 0x11 => some .brev
  | 0x12 => some .mov
  | 0x13 => some .bfe
  | 0x14 => some .bfi
  | 0x20 => some .fadd
  | 0x21 => some .fmul
  | 0x22 => some .ffma
  | 0x23 => some .fmin
  | 0x24 => some .fmax
  | 0x25 => some .fabs
  | 0x26 => some .fneg
  | 0x27 => some .frcp
  | 0x28 => some .frsq
  | 0x29 => some .fsqrt
  | 0x2A => some .fexp2
  | 0x2B => some .flog2
  | 0x2C => some .fsin
  | 0x2D => some .fcos
  | 0x2E => some .ffma2
  | 0x38 => some .hadd2
  | 0x39 => some .hmul2
  | 0x3A => some .hfma2
  | 0x3B => some .hmin2
  | 0x3C => some .hmax2
  | 0x40 => some .dadd
  | 0x41 => some .dmul
  | 0x42 => some .dfma
  | 0x43 => some .dmin
  | 0x44 => some .dmax
  | 0x45 => some .drcp
  | 0x46 => some .drsq
  | 0x47 => some .dsqrt
  | 0x50 => some .cvt
  | 0x58 => some .shfl
  | 0x59 => some .sel
  | 0x60 => some .s2v
  | 0x61 => some .u2v
  | 0x62 => some .v2u
  | _ => none

/-- F2 by `op` (R52). -/
def memOp (op : BitVec 8) : Option (GTgt → MemI → Instr) :=
  match op.toNat with
  | 0x00 => some .ld
  | 0x01 => some .st
  | 0x02 => some .stnt
  | 0x03 => some .lds
  | 0x04 => some .sts
  | 0x05 => some .ldres
  | 0x06 => some .stcond
  | 0x10 => some .atomAdd
  | 0x11 => some .atomMin
  | 0x12 => some .atomMax
  | 0x13 => some .atomAnd
  | 0x14 => some .atomOr
  | 0x15 => some .atomXor
  | 0x16 => some .atomExch
  | 0x17 => some .atomCas
  | 0x18 => some .atomFadd
  | 0x20 => some .feTake
  | 0x21 => some .fePeek
  | 0x22 => some .fePut
  | 0x23 => some .feUpdate
  | 0x24 => some .feClear
  | _ => none

/-- F3 by `op` (R52). -/
def predOp (op : BitVec 8) : Option (GTgt → PredI → Instr) :=
  match op.toNat with
  | 0x00 => some .icmp
  | 0x01 => some .fcmp
  | 0x02 => some .dcmp
  | 0x03 => some .plogic
  | 0x04 => some .pany
  | 0x05 => some .pall
  | 0x06 => some .pmask
  | _ => none

/-- F4 by `op` (R52). -/
def brOp (op : BitVec 8) : Option (GTgt → BrI → Instr) :=
  match op.toNat with
  | 0x00 => some .br
  | 0x01 => some .call
  | 0x02 => some .ret
  | 0x03 => some .exit
  | 0x04 => some .barSync
  | 0x05 => some .bkpt
  | 0x06 => some .nopInstruction
  | _ => none

/-- F5 by `op` (R52). -/
def uniOp (op : BitVec 8) : Option (GTgt → UniI → Instr) :=
  match op.toNat with
  | 0x00 => some .umov
  | 0x01 => some .uadd
  | 0x02 => some .uaddi
  | 0x03 => some .uld
  | 0x04 => some .s2u
  | 0x08 => some .tappendA
  | 0x09 => some .tappendX
  | 0x0A => some .twaitA
  | 0x0B => some .twaitX
  | 0x10 => some .membarCell
  | 0x11 => some .membarDevice
  | 0x12 => some .membarSystem
  | 0x13 => some .membarFabric
  | 0xF0 => some .icinv
  | 0xF1 => some .l1inv
  | _ => none

/-- R52: operations that F0 alone has, and those that F1 alone has. -/
def onlyF0 (op : BitVec 8) : Bool := op == 0x2E || (decide (0x40 ≤ op.toNat) && decide (op.toNat < 0x60))
def onlyF1 (op : BitVec 8) : Bool := decide (0x60 ≤ op.toNat)

/-- A bit vector of one bit. -/
def bit (b : Bool) : BitVec 1 := BitVec.ofBool b

/-- R49: bits [15:11], the guard. -/
def guardBits (g : Guard) : BitVec 5 := bit g.ge ++ (BitVec.ofNat 3 g.gp.val ++ bit g.gn)

/-- R49, R50: an instruction word: bits [63:16], guard, `op`, `fmt`. -/
def header (fields : BitVec 48) (g : Guard) (op : BitVec 8) (fmt : BitVec 3) : BitVec 64 :=
  fields ++ (guardBits g ++ (op ++ fmt))

/-- R50: bits [63:16] of each format. -/
def AluForm.bits : AluForm → BitVec 48
  | .f0 vd va vb vc mod sub rsv => rsv ++ (sub ++ (mod ++ (vc ++ (vb ++ (va ++ vd)))))
  | .f1 vd va mod imm => imm ++ (BitVec.setWidth 2 mod ++ (va ++ vd))
def MemI.bits (i : MemI) : BitVec 48 :=
  i.off ++ (i.pd ++ (bit i.sign ++ (bit i.ubase ++ (i.hint ++ (i.size ++ (i.va ++ i.vd))))))
def PredI.bits (i : PredI) : BitVec 48 :=
  i.rsv2 ++ (i.type ++ (bit i.rsv ++ (i.comb ++ (i.ps ++ (i.cond ++ (i.vb ++ (i.va ++ (i.pq ++ i.pd))))))))
def BrI.bits (i : BrI) : BitVec 48 := i.roff ++ i.toff
def UniI.bits (i : UniI) : BitVec 48 := i.imm ++ (bit i.rsv ++ (i.sr ++ (i.ub ++ (i.ua ++ i.ud))))

/-- The word of an instruction's fields under an `op` (R49, R50); none for an `op` that the form does not have (R52). -/
def Body.word (op : BitVec 8) : Body → Option (BitVec 64)
  | .alu i =>
    match i.f with
    | .f0 .. => if onlyF1 op then none else some (header i.f.bits i.g op 0)
    | .f1 .. => if onlyF0 op then none else some (header i.f.bits i.g op 1)
  | .mem i => some (header i.bits i.g op 2)
  | .pred i => some (header i.bits i.g op 3)
  | .br i => some (header i.bits i.g op 4)
  | .uni i => some (header i.bits i.g op 5)

/-- The 64-bit word of a command of the thread set. -/
def encodeThread (i : Instr) : Option (BitVec 64) := i.thread.bind (fun x => x.2.2.word x.2.1)

/-- The guard of a word (R49). -/
def guardOf (w : BitVec 64) : Guard :=
  ⟨w.getLsbD 15, ⟨(w.extractLsb' 12 3).toNat, (w.extractLsb' 12 3).isLt⟩, w.getLsbD 11⟩

/-- The fields of a word by format (R50). -/
def f0Of (w : BitVec 64) : AluI :=
  ⟨guardOf w, .f0 (w.extractLsb' 16 7) (w.extractLsb' 23 7) (w.extractLsb' 30 7) (w.extractLsb' 37 7)
    (w.extractLsb' 44 4) (w.extractLsb' 48 8) (w.extractLsb' 56 8)⟩
def f1Of (w : BitVec 64) : AluI :=
  ⟨guardOf w, .f1 (w.extractLsb' 16 7) (w.extractLsb' 23 7) (w.extractLsb' 30 2) (w.extractLsb' 32 32)⟩
def memOf (w : BitVec 64) : MemI :=
  ⟨guardOf w, w.extractLsb' 16 7, w.extractLsb' 23 7, w.extractLsb' 30 3, w.extractLsb' 33 2, w.getLsbD 35,
    w.getLsbD 36, w.extractLsb' 37 3, w.extractLsb' 40 24⟩
def predOf (w : BitVec 64) : PredI :=
  ⟨guardOf w, w.extractLsb' 16 3, w.extractLsb' 19 3, w.extractLsb' 22 7, w.extractLsb' 29 7, w.extractLsb' 36 4,
    w.extractLsb' 40 3, w.extractLsb' 43 2, w.getLsbD 45, w.extractLsb' 46 2, w.extractLsb' 48 16⟩
def brOf (w : BitVec 64) : BrI := ⟨guardOf w, w.extractLsb' 16 24, w.extractLsb' 40 24⟩
def uniOf (w : BitVec 64) : UniI :=
  ⟨guardOf w, w.extractLsb' 16 5, w.extractLsb' 21 5, w.extractLsb' 26 5, w.extractLsb' 31 8, w.getLsbD 39,
    w.extractLsb' 40 24⟩

/-- The command that a group's instruction word spells (R49 to R52); none for a `fmt` or `op` that is not listed
(R51). -/
def decodeThread (t : GTgt) (w : BitVec 64) : Option Instr :=
  let op := w.extractLsb' 3 8
  match (w.extractLsb' 0 3).toNat with
  | 0 => if onlyF1 op then none else (aluOp op).map (fun k => k t (f0Of w))
  | 1 => if onlyF0 op then none else (aluOp op).map (fun k => k t (f1Of w))
  | 2 => (memOp op).map (fun k => k t (memOf w))
  | 3 => (predOp op).map (fun k => k t (predOf w))
  | 4 => (brOp op).map (fun k => k t (brOf w))
  | 5 => (uniOp op).map (fun k => k t (uniOf w))
  | _ => none

/-! ### Macro-op words -/

/-- The cell, stream, `op` and other fields of a macro-op (R80). -/
def Instr.macroOp : Instr → Option (CellId × Stream × BitVec 8 × MacroWord)
  | .sync c b w => some (c, b, 0x00, w)
  | .mend c b w => some (c, b, 0x01, w)
  | .jump c b w => some (c, b, 0x02, w)
  | .mloop c b w => some (c, b, 0x03, w)
  | .setc c b w => some (c, b, 0x04, w)
  | .setd c b w => some (c, b, 0x05, w)
  | .dadv c b w => some (c, b, 0x06, w)
  | .seta c b w => some (c, b, 0x07, w)
  | .aadv c b w => some (c, b, 0x08, w)
  | .append c b w => some (c, b, 0x09, w)
  | .tload c b w => some (c, b, 0x10, w)
  | .tstore c b w => some (c, b, 0x11, w)
  | .tgather c b w => some (c, b, 0x12, w)
  | .tverify c b w => some (c, b, 0x13, w)
  | .mma c b w => some (c, b, 0x20, w)
  | .accst c b w => some (c, b, 0x21, w)
  | .accld c b w => some (c, b, 0x22, w)
  | .elem c b w => some (c, b, 0x23, w)
  | .reduce c b w => some (c, b, 0x24, w)
  | .lut c b w => some (c, b, 0x25, w)
  | .tblld c b w => some (c, b, 0x26, w)
  | _ => none

/-- Macro-ops by `op` (R80). -/
def macroCmd (op : BitVec 8) : Option (CellId → Stream → MacroWord → Instr) :=
  match op.toNat with
  | 0x00 => some .sync
  | 0x01 => some .mend
  | 0x02 => some .jump
  | 0x03 => some .mloop
  | 0x04 => some .setc
  | 0x05 => some .setd
  | 0x06 => some .dadv
  | 0x07 => some .seta
  | 0x08 => some .aadv
  | 0x09 => some .append
  | 0x10 => some .tload
  | 0x11 => some .tstore
  | 0x12 => some .tgather
  | 0x13 => some .tverify
  | 0x20 => some .mma
  | 0x21 => some .accst
  | 0x22 => some .accld
  | 0x23 => some .elem
  | 0x24 => some .reduce
  | 0x25 => some .lut
  | 0x26 => some .tblld
  | _ => none

/-- R79: the 128-bit word of a macro-op. -/
def MacroWord.word (op : BitVec 8) (w : MacroWord) : BitVec 128 :=
  w.payload ++ (w.tag ++ (bit w.rsv ++ (bit w.tchk ++ (BitVec.ofNat 2 w.sq.val ++ (bit w.se
    ++ (BitVec.ofNat 2 w.wq.val ++ (bit w.we ++ op)))))))

/-- The word of a macro-op command. -/
def encodeMacro (i : Instr) : Option (BitVec 128) := i.macroOp.map (fun x => x.2.2.2.word x.2.2.1)

/-- The fields of a macro-op word beside its `op` (R79). -/
def macroWordOf (w : BitVec 128) : MacroWord :=
  { we := w.getLsbD 8, wq := ⟨(w.extractLsb' 9 2).toNat, (w.extractLsb' 9 2).isLt⟩, se := w.getLsbD 11
    sq := ⟨(w.extractLsb' 12 2).toNat, (w.extractLsb' 12 2).isLt⟩, tchk := w.getLsbD 14, rsv := w.getLsbD 15
    tag := w.extractLsb' 16 16, payload := w.extractLsb' 32 96 }

/-- The command that a stream's macro-op word spells; none for an `op` that is not listed (R80). -/
def decodeMacro (c : CellId) (st : Stream) (w : BitVec 128) : Option Instr :=
  (macroCmd (w.extractLsb' 0 8)).map (fun k => k c st (macroWordOf w))

end Sys2Proof
end

