-- ==== Sys2Proof/Machine/State.lean ====
section
/-!
DEFINITION. The state of the KY4812 as plain data: every piece of state the spec names, and the model's own
bookkeeping of work in progress. A register field of BAR0 has its home in `regs` unless a richer structure below holds
it; `Machine/View.lean` gives every register its value. All maps list only what differs from the reset value.
-/

namespace Sys2Proof.Machine

/-- Why the machine stops with a fault. No command of this model faults: every row has an effect in the spec. -/
inductive Fault where
  /-- Raised by nothing: kept so that the type has a name to extend. Safe. -/
  | unused
deriving DecidableEq, Repr

/-- Why a command has no meaning. -/
inductive Refusal where
  /-- Raised by the arms of `exec` whose row has no meaning yet, by the row's name. Safe. -/
  | notModelled (mnemonic : String)
deriving DecidableEq, Repr

/-! ### Thread groups -/

/-- One entry of a reconvergence stack (R60). `otherPc` 0 with `otherMask` 0 stands for "no other path". -/
structure StackEnt where
  rpc       : DWord
  otherPc   : DWord
  otherMask : Mask
  join      : Mask
deriving DecidableEq, Repr

/-- What a resident group waits on, beyond its outstanding requests (R58, R73); a barrier with the time at which its
waits for stores reach their limit (R186), the identity of the first request that came after it (R154), and when it
began. -/
inductive GWait where
  | none
  | barrier
  | membar (scope limit upto since : Nat)
  | twait (st : Stream) (n : Nat)
deriving DecidableEq, Repr

/-- What the issue stage knows of a fetched and decoded instruction (R58): the thread registers, predicates and uniform
registers it uses, whether it takes an entry of the memory request queue, how many tokens it occupies the iterative unit
(0: none), the stream to whose append buffer it appends. -/
structure Fetched where
  v    : List Nat
  p    : List Nat
  u    : List Nat
  mem  : Bool
  iter : Nat
  app  : Option Stream
deriving DecidableEq, Repr

/-- A resident group (R44 to R48, R60). `v` is keyed 32 × register + lane, `p` by predicate, `u` by uniform register;
`next` is its next instruction once that has been fetched and decoded. -/
structure Group where
  pc        : DWord
  active    : Mask
  exited    : Mask
  stack     : List StackEnt
  v         : NMap Word
  p         : NMap Mask
  u         : NMap DWord
  wait      : GWait
  tb        : Nat
  gid       : Nat
  storeLost : Nat
  next      : Option Fetched
deriving DecidableEq, Repr

/-- A thread block resident on a cell (R41, R67). `kern` is the kernel's identity, `n` counts residencies. -/
structure ThreadBlock where
  n        : Nat
  kern     : Nat
  x        : Nat
  y        : Nat
  z        : Nat
  slots    : List Nat
  scrBase  : Nat
  scrSize  : Nat
deriving DecidableEq, Repr

/-! ### Memory operations of a cell -/

/-- Where an address leads (R235, R359): device memory, host memory, or a peer's device memory. -/
inductive Target where
  | dev (d : Nat)
  | host (h : Nat)
  | peer (id : Nat) (d : Nat)
deriving DecidableEq, Repr

/-- What an outstanding request of a cell does. -/
inductive ReqKind where
  | load (vd : Nat) (size : Nat) (sign alloc : Bool)
  | store (size : Nat)
  | storeNt (size : Nat)
  | ldres (vd : Nat) (size : Nat)
  | stcond (pd : Nat) (size : Nat)
  | atom (op : Nat) (vd : Nat) (size : Nat) (sign : Bool)
  | fe (op : Nat) (vd : Nat)
  | uload (ud : Nat)
deriving DecidableEq, Repr

/-- The progress of one lane of a request: not sent, at a peer, waiting at a die or returned by a full table since a
time and up to a time limit (0: none), answered, answered with a fault that gives a halt reason. -/
inductive LaneSt where
  | todo
  | sent (tid : Nat)
  | waiting (since lim : Nat)
  | returned (since lim : Nat)
  | done (v : Nat)
  | failed (reason : Nat)
deriving DecidableEq, Repr

/-- One lane of a request: the lane, its virtual address, where the address leads, its operand, the second operand of a
compare-and-swap, its progress. -/
structure LaneOp where
  lane : Nat
  va   : Nat
  tgt  : Target
  a    : Nat
  b    : Nat
  st   : LaneSt
deriving DecidableEq, Repr

/-- An outstanding request of a cell: an entry of its request table or of its store buffer (R58, R183); whether its port
has accepted it (R58, R59); the limits of R233 in force when it was issued; whether it has failed (R463). -/
structure Req where
  id    : Nat
  slot  : Nat
  kind  : ReqKind
  lanes : List LaneOp
  start : Nat
  pc    : Nat
  acc   : Bool
  crcLim : Nat
  cxlLim : Nat
  bad    : Bool
deriving DecidableEq, Repr

/-- One entry of the non-temporal combining buffer (R169): the 128-byte block by virtual address and target, the bytes
written, with the slots that wrote each as a mask plus 65536 times the lane plus one while one lane wrote it; the times
of its last and its first store. -/
structure CombEnt where
  va    : Nat
  tgt   : Target
  bytes : NMap Byte
  slots : NMap Nat
  last  : Nat
  first : Nat
deriving DecidableEq, Repr

/-- One line of a cache (R190): its address, its bytes by offset, for dirty bytes the cells that wrote them as a mask
plus 512 times the lane (1 + 512 × cell + 32 × slot + lane) while one lane wrote them, the mask of cells for which the
line is stale, when it became dirty. -/
structure CLine where
  addr  : Nat
  data  : NMap Byte
  dirty : NMap Nat
  stale : Nat
  time  : Nat
deriving DecidableEq, Repr

/-- One cache instance (R190, R197, R199): the replacement register, the lines keyed set × ways + way, and while in
safe mode the line buffer in order of arrival. -/
structure Cache where
  lfsr  : Nat
  lines : List (Nat × CLine)
deriving DecidableEq, Repr

/-- A cache right after its reset (R197, R202). -/
def Cache.init : Cache := ⟨0xACE1, []⟩

/-! ### Tile streams and the matrix array -/

/-- A macro-op word of a stream with the address that halts and status record for it (R78), and whether it came from
the append buffer. -/
structure StreamWord where
  op       : Nat
  w        : MacroWord
  addr     : Nat
  appended : Bool
deriving DecidableEq, Repr

/-- A macro-op in progress (R83, R84): its word, whether its completion point is reached and its signal pushed, the byte
extents it reads and writes in the scratchpad as closed ranges, the tiles it moves in memory, the tile bytes a TSTORE
has read, and the descriptor values it started with; the check entries that a verifying read found when it began (E1 of
R209) with the `unchecked_action` then in force (R212), the line transfers that the L1 port has not yet granted
(R59), and when it started or, once done, reached its completion point. -/
structure InProg where
  n      : Nat
  sw     : StreamWord
  done   : Bool
  pushed : Bool
  rd     : List (Nat × Nat)
  wr     : List (Nat × Nat)
  tiles  : List (Nat × Target)
  bytes  : List (List Byte)
  args   : List Nat
  e1     : List Nat
  loose  : Bool
  left   : Nat
  time   : Nat
deriving DecidableEq, Repr

/-- The state of a stream (R75). The maps are keyed by register number. -/
structure StreamSt where
  started : Bool
  ended   : Bool
  endAddr : Nat
  mpc     : Nat
  append  : Bool
  left    : Nat
  td      : NMap Nat
  ta      : NMap Nat
  tc      : NMap Nat
  buf     : List StreamWord
  head    : Option StreamWord
  prog    : List InProg
  nextN   : Nat
  pend    : Nat
deriving DecidableEq, Repr

/-- The accumulator with its checksum registers (R104, R125, R126). The maps are keyed 16 × row + column, by column and
by row; FP values are bit patterns. -/
structure AccSt where
  c    : NMap Nat
  c64  : NMap Nat
  slice : NMap Int
  rj   : NMap Int
  ci   : NMap Int
  mj   : NMap Nat
  mi   : NMap Nat
  k    : Nat
  type : Nat
deriving DecidableEq, Repr

/-- The matrix array of a cell (R104, R130): the accumulator, its shadow copy, and the last slice count. -/
structure ArrSt where
  acc    : AccSt
  shadow : AccSt
  slices : Nat
  retry  : Bool
  dirty  : Bool
deriving DecidableEq, Repr

/-- A table of a table slot (R135, R136): its type, its five parameters and its knots, as FP32 bit patterns. -/
structure Table where
  kind  : Nat
  lo    : Nat
  hi    : Nat
  slo   : Nat
  shi   : Nat
  w     : Nat
  knots : List Nat
deriving DecidableEq, Repr

/-- The halt record of a cell (R68, R69). -/
structure HaltRec where
  reason : Nat
  group  : Nat
  source : Nat
  more   : Bool
  valid  : Bool
  mask   : Mask
  pc     : Nat
  addr   : Nat
  addrOk : Bool
  time   : Nat
deriving DecidableEq, Repr

/-- The states of a cell, in the order of CEL_STATUS. -/
inductive CellState where
  | idle
  | running
  | halted
  | disabled
deriving DecidableEq, Repr

/-- One physical cell. `groups` is keyed by slot; `luts` by 2 × slot + tsel; `scr` is the scratchpad; `progress` is the
time at which the watchdog interval runs out (R71); `iter` the time at which the iterative unit is free (R57); `l1Tile`
says that the L1 port granted a tile transfer last, `scrRun` how many grants to the streams the last thread-side request
of the scratchpad let pass (R59). -/
structure Cell where
  state    : CellState
  groups   : NMap Group
  tbs      : List ThreadBlock
  nextTb   : Nat
  last     : Nat
  halt     : HaltRec
  reported : Bool
  scr      : NMap Byte
  lastKern : Nat
  needZero : Bool
  l1       : Cache
  ic       : Cache
  reqs     : List Req
  nextReq  : Nat
  comb     : List CombEnt
  sa       : StreamSt
  sx       : StreamSt
  aq       : NMap (List (BitVec 16))
  xq       : NMap (List (BitVec 16))
  arr      : ArrSt
  luts     : NMap Table
  progress : Nat
  wdogs    : Nat
  iter     : Nat
  l1Tile   : Bool
  scrRun   : Nat
deriving DecidableEq, Repr

def StreamSt.init : StreamSt := ⟨false, false, 0, 0, false, 0, [], [], [], [], none, [], 0, 0⟩
def AccSt.init : AccSt := ⟨[], [], [], [], [], [], [], 0, 3⟩
def ArrSt.init : ArrSt := ⟨AccSt.init, AccSt.init, 0, false, false⟩
def HaltRec.init : HaltRec := ⟨0, 0, 0, false, false, 0, 0, 0, false, 0⟩

/-- A cell right after a region reset (R73, R203). -/
def Cell.init : Cell :=
  ⟨.idle, [], [], 0, 15, HaltRec.init, true, [], 0, false, Cache.init, Cache.init, [], 0, [], StreamSt.init,
    StreamSt.init, [], [], ArrSt.init, [], 0, 0, 0, false, 0⟩

/-- A block (R18): its L2, the kernel running on it, whether its kernel end (R151) is under way, when its waits for
stores reach their limit (R186), and the lines whose allocation waits for a way to become free (R198). -/
structure Block where
  l2    : Cache
  kern  : Nat
  owes  : Bool
  endAt : Nat
  alloc : List Nat
deriving DecidableEq, Repr

def Block.init : Block := ⟨Cache.init, 0, false, 0, []⟩

/-! ### Translation, device pages, migration -/

/-- The memory a leaf maps (R235). -/
structure Leaf where
  w      : Bool
  x      : Bool
  target : Nat
  addr   : Nat
  dev    : Nat
deriving DecidableEq, Repr

/-- One held translation (R237): ASC, leaf level, the virtual page it maps at that level, the leaf. -/
structure TlbEnt where
  asc   : Nat
  level : Nat
  vpage : Nat
  leaf  : Leaf
deriving DecidableEq, Repr

/-- One held non-leaf entry (R237): ASC, the level it was read at, the virtual range it maps at that level, the table
that it names. -/
structure WalkEnt where
  asc   : Nat
  level : Nat
  vpage : Nat
  table : Nat
deriving DecidableEq, Repr

/-- The states of a device page (R239, R240). -/
inductive PageState where
  | unallocated
  | zero
  | resident
  | migrating
  | lost
deriving DecidableEq, Repr

/-- The seasons (R239). -/
inductive Season where
  | spring
  | summer
  | autumn
  | winter
deriving DecidableEq, Repr

/-- A location entry (R239). -/
structure LocEnt where
  state  : PageState
  season : Season
  sync   : Bool
  pin    : Nat
  hint   : Nat
  loc    : Nat
  frame  : Nat
  heat   : Nat
  dwell  : Nat
deriving DecidableEq, Repr

/-- The entry of a DPN nothing has allocated: every field zero (R241). -/
def LocEnt.init : LocEnt := ⟨.unallocated, .spring, false, 0, 0, 0, 0, 0, 0⟩

/-- Why a page moves. -/
inductive MigKind where
  | promotion
  | demotion
  | pin
  | evac
deriving DecidableEq, Repr

/-- A migration in progress (R251): the page, its destination, the dirty lines (0 to 511 data, 512 check shadow, 513 to
520 sync shadow), the pass number, the Autumn page that is to take the source frame of a promotion into headroom
(R248); whether it uses a headroom frame: as a promotion into headroom or as the demotion that gives one back (R249). -/
structure Migration where
  dpn    : Nat
  loc    : Nat
  frame  : Nat
  dirty  : List Nat
  pass   : Nat
  kind   : MigKind
  pair   : Option Nat
  start  : Nat
  room   : Bool
deriving DecidableEq, Repr

/-- A reservation (R159): shared-cache die, cell, slot, lane, granule (the target's address divided by 64). -/
structure Resv where
  scd     : Nat
  cell    : Nat
  slot    : Nat
  lane    : Nat
  granule : Target
deriving DecidableEq, Repr

/-- Who waits for a full/empty word (R165, R436). -/
inductive FeSrc where
  | cell (c : Nat) (slot : Nat) (req : Nat) (lane : Nat)
  | packet (q : Nat) (seq : Nat)
  | peer (dev : Nat) (tid : Nat) (port : Nat) (epoch : Nat)
deriving DecidableEq, Repr

/-- A waiting full/empty operation (R165): the holding die (0 to 3 a MID, 4 FTA, 5 FTB), the word's device address, the
operation (the F2 `op`, or 0x30, 0x31 for FE_WAIT), who waits, the operand, since when, and the ASC. -/
structure FeWaiter where
  die   : Nat
  word  : Nat
  op    : Nat
  src   : FeSrc
  data  : Nat
  since : Nat
  asc   : Nat
deriving DecidableEq, Repr

/-- An open tile of a shared-cache die (R206): tile address, open writes, the regions that opened them. -/
structure OpenTile where
  tile  : Nat
  count : Nat
  rgns  : List Nat
deriving DecidableEq, Repr

/-! ### The front end -/

/-- The progress of a fetched packet. -/
inductive PktSt where
  | fetched
  | running
deriving DecidableEq, Repr

/-- A packet in the pool (R265, R266): where it was fetched from, its eight words, the sequence numbers of the steps it
waits on, when it became startable and started, its account tag once started, the bytes or pieces it has done, an engine
number, the code of its fault; the limits in force when it started: of its own wait in ns (R189, R318; 0: none), of CRC
retries and of CXL.mem completions (R233); when the wait of its write for the
host to give up a line reaches its limit, plus one (R186); the bytes of whole tiles read from a peer in parts, by offset
(R207). -/
structure Pkt where
  q      : Nat
  seq    : Nat
  addr   : Nat
  ind    : Bool
  words  : List DWord
  deps   : List Nat
  st     : PktSt
  since  : Option Nat
  start  : Nat
  acct   : Nat
  pos    : Nat
  eng    : Nat
  fault  : Nat
  lim    : Nat
  crcLim : Nat
  cxlLim : Nat
  held   : Nat
  buf    : NMap Byte
deriving DecidableEq, Repr

/-- A packet that has completed and is owed a completion record (R301, R302). -/
structure DonePkt where
  q       : Nat
  seq     : Nat
  ns      : Nat
  code    : Nat
  fstep   : Nat
  acct    : Nat
  opcode  : Nat
  record  : Bool
  irq     : Bool
  stopped : Bool
  locked  : Bool
  cap     : Bool
  stale   : Bool
  drain   : Bool
deriving DecidableEq, Repr

/-- A failed step that later steps may wait on (R269). -/
structure StepFail where
  q     : Nat
  seq   : Nat
  fstep : Nat
deriving DecidableEq, Repr

/-- What a queue drains for (R287, R313). -/
inductive Drain where
  | none
  | reset
  | destroy
  | asc
deriving DecidableEq, Repr

/-- The part of a queue that its registers do not hold (R264, R268): the fetcher's write pointer, whether the next
packet must begin a buffer, the step of the previous packet, the sequence numbers in the current buffer that hold none of
its steps, the drain under way, a packet stopped at fetch that RESUME may fetch again, the packets whose completion is
above `done_seq`. -/
structure Queue where
  w       : Nat
  needB   : Bool
  prev    : Nat
  skips   : List Nat
  drain   : Drain
  refetch : Option (Nat × Bool)
  ahead   : List Nat
deriving DecidableEq, Repr

def Queue.init : Queue := ⟨0, true, 0, [], .none, none, []⟩

/-- Writes to a queue's completion area in order (R304), the area's place when they were asked for, whether the queue's
vector follows the last acknowledgement; `sent`: the first of them awaits its acknowledgement. -/
structure RecWrite where
  q      : Nat
  irq    : Bool
  host   : Bool
  base   : Nat
  writes : List (Nat × List Byte)
  sent   : Bool
deriving DecidableEq, Repr

/-- A kernel in progress (R274, R283, R284). `next` counts thread blocks placed, `retired` those retired, `code` the
fault it will complete with, `first` the placement of its first thread block; `short` marks an abort within a drain,
whose store waits are cut short (R186). -/
structure Kernel where
  id      : Nat
  q       : Nat
  seq     : Nat
  asc     : Nat
  acct    : Nat
  epoch   : Nat
  priv    : Bool
  prio    : Nat
  budget  : Nat
  entry   : Nat
  args    : Nat
  gx      : Nat
  gy      : Nat
  gz      : Nat
  groups  : Nat
  pages   : Nat
  tile    : Bool
  aEntry  : Nat
  xEntry  : Nat
  affin   : Nat
  share   : Option (List Nat)
  next    : Nat
  retired : Nat
  due     : Nat
  passed  : Option Nat
  first   : Option Nat
  code    : Nat
  aborted : Bool
  short   : Bool
  lost    : Bool
  cells   : List Nat
deriving DecidableEq, Repr

/-- A collective step in progress (R366 to R371): the packet, the neighbours whose credit has come, whether this
member's own segments have been sent, the segments handled, the ring steps completed (R373), and the parts that have come
of a segment sent in parts, by its number and the members it has passed (R350). -/
structure CollStep where
  q       : Nat
  seq     : Nat
  group   : Nat
  cseq    : Nat
  digest  : Nat
  credits : List Nat
  sent    : Bool
  got     : Nat
  ring    : Nat
  parts   : List (Nat × Nat × List Byte)
deriving DecidableEq, Repr

/-- A collective frame held until its step starts (R371). -/
structure CollHeld where
  group : Nat
  cseq  : Nat
  src   : Nat
  abort : Bool
  dig   : Nat
  port  : Nat
deriving DecidableEq, Repr

/-! ### The host interface -/

/-- One line the host may hold (R335). -/
structure FilterEnt where
  line : Nat
  excl : Bool
deriving DecidableEq, Repr

/-- An answer the device last gave on an interface: what a reader outside sees of it. -/
structure Response where
  kind : Nat
  addr : Nat
  data : List Byte
deriving DecidableEq, Repr

/-- An entry of the MSI-X table with its pending bit and the messages sent (R336). -/
structure Msix where
  addr    : Nat
  data    : Nat
  masked  : Bool
  pending : Bool
  sent    : Nat
deriving DecidableEq, Repr

/-- An MSI-X entry at reset: masked, nothing pending. -/
def Msix.init : Msix := ⟨0, 0, true, false, 0⟩

/-- The reset in progress while `boot_state` is RESETTING (R340, R410): none, a host-side reset, one that writes dirty
host lines back first, a CXL Reset with or without memory clear and before or after its pages are released, an
activation of firmware. -/
inductive Resetting where
  | none
  | host
  | flr
  | cxl (memClr released : Bool)
  | swap
deriving DecidableEq, Repr

/-- The host side of the HIF die: link, power state, MSI-X Enable and Function Mask (R336), HDM decoder, held and snooped
lines; the responses of the DOE
instances, their Error bits, and the time until which their request is in progress; the SPDM response over MCTP and how
far its negotiation has come; the six BAR registers. -/
structure HifSt where
  linkUp  : Bool
  pcie    : Bool
  d3hot   : Bool
  crs     : Bool
  decoder : Option (Nat × Nat)
  notComm : Bool
  inval   : Bool
  viral   : Bool
  viralEn : Bool
  msixEn  : Bool
  msixMask : Bool
  filter  : List FilterEnt
  snoops  : List FilterEnt
  resp    : Option Response
  doe0    : Option Response
  doe1    : Option Response
  doeErr0 : Bool
  doeErr1 : Bool
  busy0   : Nat
  busy1   : Nat
  spdm    : Option Response
  spdmSt  : Nat
  aer     : Nat
  rst     : Resetting
  base    : NMap Nat
deriving DecidableEq, Repr

/-! ### The fabric and time -/

/-- A frame this device sends (R346): its type and header, and the FW_STAGE step (queue, sequence number) that waits for
its acknowledgement, if one does (R408). -/
structure TxFrame where
  type  : Nat
  frame : Frame
  step  : Option (Nat × Nat)
deriving DecidableEq, Repr

/-- A frame header sent or received (R346): its type, the length of its payload, its other fields. -/
structure FrameHdr where
  type : Nat
  len  : Nat
  head : Frame
deriving DecidableEq, Repr

/-- What a control unit of a NATIVE link, or the header of an ENCAP frame, carries beside frames (R349, R350): `lack`, a
NAK, the credits returned for both channels. -/
structure LinkNote where
  lack : Nat
  nak  : Option Nat
  cr0  : Nat
  cr1  : Nat
deriving DecidableEq, Repr

/-- One link or tunnel (R349, R356, R357): next `lseq` to send, next expected, the frames not yet acknowledged in order,
the transmit queue, the replays of the oldest frame, the transmit credits of both channels and the credits to return,
whether the neighbour is unreachable, whether PFC pauses it and whether this device last sent it a pause, the NAK that
goes out next, whether an acknowledgement is due, the frame units since the last control unit, the note sent last, the
source of the last frame, and the time of the last progress or retransmission. -/
structure Link where
  nextTx  : Nat
  nextRx  : Nat
  replay  : List TxFrame
  waiting : List TxFrame
  retries : Nat
  retryOf : Nat
  cr0     : Nat
  cr1     : Nat
  ret0    : Nat
  ret1    : Nat
  unreach : Bool
  paused  : Bool
  pausing : Bool
  nak     : Option Nat
  ackDue  : Bool
  units   : Nat
  note    : Option LinkNote
  peer    : BitVec 16
  since   : Nat
deriving DecidableEq, Repr

/-- A link that starts afresh: each channel has credit for 4,096 units of 64 bytes (log entry 55). -/
def Link.init : Link := ⟨0, 0, [], [], 0, 0, 4096, 4096, 0, 0, false, false, false, none, false, 0, none, 0, 0⟩

/-- A frame received for this device that waits at its fabric die (R335, R357): its port, its link, its type. -/
structure Arrived where
  port  : Nat
  key   : Nat
  type  : Nat
  frame : Frame
deriving DecidableEq, Repr

/-- Whom a remote request serves (R359, R360). -/
inductive RemFor where
  | lane (c : Nat) (req : Nat) (lane : Nat)
  | flush (c : Nat) (id : Nat) (slots : Nat)
  | piece (q : Nat) (seq : Nat) (off : Nat)
  | fence (q : Nat) (seq : Nat)
  | probe (dst : Nat)
deriving DecidableEq, Repr

/-- An outstanding remote request (R423): its transaction number, tag epoch, target, type, when it was sent and when it
times out (R186), the bytes it names, whom it serves, whether it carries the verified `crc` of a tile (R372), and the
data that has come of a reply sent in parts (R350). A PROBE names its link in `addr`. -/
structure RemReq where
  tid    : Nat
  tepoch : Nat
  dst    : Nat
  type   : Nat
  since  : Nat
  lim    : Nat
  addr   : Nat
  len    : Nat
  svc    : RemFor
  tile   : Bool
  got    : List Byte
deriving DecidableEq, Repr

/-- The time counter's discipline (R374 to R376): the counter's nanoseconds and fraction; the chosen time transmitter's
port, identity and rank; the Syncs in a row within the threshold; the sequence number, arrival and correction of a
two-step Sync; the time stamps of the delay measurement; the path delay; the slew; the lead of the counter over TAI
before its step; the remainder of the rate's correction; when the chosen transmitter's last Announce and last Sync came,
and the intervals before them. -/
structure TimeSt where
  ns      : Nat
  frac    : Nat
  chosen  : Option (Nat × DWord × Nat)
  inLock  : Nat
  twoStep : Option (Nat × Nat × Int)
  t1      : Nat
  t2      : Nat
  t3      : Nat
  delay   : Int
  slewPpm : Int
  lead    : Option Int
  rem     : Nat
  annAt   : Nat
  annIv   : Nat
  syncAt  : Nat
  syncIv  : Nat
deriving DecidableEq, Repr

/-! ### Start-up, firmware, power, test access -/

/-- The fuse array (R397): revocation bits, anti-rollback count, debug unlock, the unique device secret, serial,
factory-failed cells by block, cell maps of such blocks, calibration by 65536 × fid + idx. -/
structure Fuses where
  revoked : Nat
  svn     : Nat
  debug   : Bool
  secret  : BitVec 512
  serial  : Nat
  failed  : NMap Nat
  maps    : NMap Nat
  cal     : NMap Int
deriving DecidableEq, Repr

/-- An open firmware transfer or relay (R404, R408, R417). -/
structure Transfer where
  slot   : Nat
  target : Nat
  length : Nat
  got    : Nat
  relay  : Nat
  hops   : Nat
  port   : Nat
  src    : Nat
deriving DecidableEq, Repr

/-- Limhel (R397 to R417): the open transfer; the relays already seen; of the staged set its slot, its `relay_id` within
the device, its relay targets (port, device) and whether its ACTIVATE has been passed on; whether it is armed late; the
ENDs that FW_STAGE steps wait for (link, queue, sequence number); the relays received and ignored up to their
END (port, source); when the dies last swapped; the manifest of the
running set and the digest of the image read, if one was; the factory store of 16 KiB and the modulus of the root key. -/
structure SecSt where
  xfer    : Option Transfer
  seen    : List Nat
  slot    : Nat
  relayId : Nat
  targets : List (Nat × Nat)
  passed  : Bool
  late    : Bool
  ends    : List (Nat × Nat × Nat)
  skips   : List (Nat × Nat)
  swapAt  : Nat
  running : List Byte
  image   : List Byte
  otp     : NMap Byte
  rootKey : Nat
deriving DecidableEq, Repr

/-- One sample of the power ring (R461). -/
structure PwrSample where
  ns    : Nat
  power : Nat
  cap   : Nat
  rails : List Nat
  temps : List Int
deriving DecidableEq, Repr

/-- The power manager and the pins of R458: PWRGOOD; PERST# asserted; RECOVERY_N; PWR_BRAKE_N driven low; PWROFF_REQ_N
low; an orderly power-down begun, when, and the limit of its waits for stores (R186); PWROFF_RDY; THERMTRIP_N driven
low; the power samples of the last millisecond in mW, newest first; the ticks since the rails last rose; whether each
region is thermally throttled; since when each junction sensor has been at 115 °C and each memory die at 110 °C (time
plus one); the power ring, oldest first; the package energy in units of 10 nJ; a PERST# that waits for PWROFF_RDY;
whether the regulators are off; whether the sites are in self-refresh (R450); since when each region's rail has been off
its setpoint and VIN12 low (time plus one, R448); the energy of each unit of R315 since its last split, in units of 10
pJ, numbered as `State.used`; the highest junction temperatures of the last millisecond, with their times (R330). -/
structure PwrSt where
  pwrgood   : Bool
  perst     : Bool
  recovery  : Bool
  brake     : Bool
  offPin    : Bool
  offReq    : Bool
  offAt     : Nat
  offLim    : Nat
  offRdy    : Bool
  thermtrip : Bool
  avg       : List Nat
  slow      : Nat
  therm     : NMap Nat
  hot115    : NMap Nat
  memHot    : NMap Nat
  ring      : List PwrSample
  energy    : Nat
  perstWait : Bool
  regsOff   : Bool
  selfRef   : Bool
  off50     : NMap Nat
  vinLow    : Nat
  unitPj    : NMap Nat
  maxima    : List (Nat × Int)
deriving DecidableEq, Repr

/-- The MCTP endpoint and PLDM terminus (R452), with the straps SMB_ADDR0 and SMB_ADDR1 and SMB_ALERT_N (R458), which no
rule drives. -/
structure SideSt where
  eid      : Nat
  receiver : Option Nat
  alert    : Bool
  events   : List Nat
  reading  : Option (Nat × Option Int)
  addr0    : Bool
  addr1    : Bool
  smbAlert : Bool
deriving DecidableEq, Repr

/-- The test access port (R454, R455): the instruction register, what the identification register last captured, the
boundary register's sampled and preloaded cells, what the outputs carry. -/
structure TapSt where
  ir      : BitVec 8
  dr      : BitVec 32
  sampled : BitVec 614
  preload : BitVec 614
  drive   : Option (BitVec 614)
  hiz     : Bool
  bypass  : Bool
deriving DecidableEq, Repr

/-- A December dump held in close memory (R433): the pieces complete, and the site of each piece present. -/
structure DumpSt where
  complete : Nat
  sites    : NMap Nat
deriving DecidableEq, Repr

/-- The state of the device. -/
structure State where
  /-- The commands that wait, first in, first out. -/
  pending  : List Instr
  /-- The model's own counter of free values drawn. -/
  free     : Nat
  /-- Register fields at other than their reset value, keyed 1024 × index + field. -/
  regs     : NMap Nat
  cells    : NMap Cell
  blocks   : NMap Block
  /-- Close and far memory: location × 2^42 + frame × 65536 + offset. -/
  mem      : NMap Byte
  /-- Check shadow (R204): 16 × (location × 2^26 + frame) + tile. -/
  check    : NMap Nat
  /-- Sync shadow (R164): 8192 × (location × 2^26 + frame) + word; 1 is full. -/
  full     : NMap Nat
  hostMem  : NMap Byte
  loct     : NMap LocEnt
  /-- Location-cache contents of each MID (R238), newest first. -/
  lcache   : NMap (List Nat)
  /-- Heat sampling counters of the MIDs (R245). -/
  sampled  : NMap Nat
  migs     : List Migration
  /-- Released frames not yet cleared (R242): location × 2^26 + frame. -/
  unclean  : List Nat
  /-- Those of them whose page held a sync slot, which is cleared with the frame (R242). -/
  unslot   : List Nat
  /-- The promotion queues of the MIDs: at most 1,024 Spring pages each (R248). -/
  promo    : NMap (List Nat)
  /-- Headroom frames in use whose paired demotion has still to begin (R248, R249). -/
  roomOwed : Nat
  /-- Far frames left by promotions into headroom, as `unclean` counts them, that are cleared for the Autumn page to be
  demoted into them (R242, R248). -/
  pairs    : List (Nat × Nat)
  /-- The sync-shadow lines held by the caches of FTA and FTB, newest first, with their dirty marks (R227). -/
  feLines  : NMap (List (Nat × Bool))
  /-- Far-tier ports, as their number, or expanders, as 4 + 8 × port + expander, with an access that is to be answered as
  uncorrectable (R228). -/
  ftBad    : List Nat
  /-- Lines of close memory that a patrol found uncorrectable and nothing has read or written since (R223), as `mem`
  counts them, divided by 128. -/
  badLines : List Nat
  /-- Far-tier ports whose frames FAR_TIER_CLEAR has cleared. -/
  farClear : List Nat
  evac     : List EvacUnit
  /-- Pages not to be chosen again, with the scans left (R253). -/
  skip     : NMap Nat
  /-- Pins waiting for their packet: (queue, sequence number). -/
  pinWait  : List (Nat × Nat)
  /-- The location that a page pinned with value 3 is to have (R255). -/
  want     : NMap Nat
  /-- Whether close frames fell below the low mark and have not reached the high mark since (R248). -/
  demoting : Bool
  scds     : NMap Cache
  /-- Dirty bytes of host lines held by the shared caches (R332). -/
  hostDirty : NMap Byte
  resv     : List Resv
  waiters  : List FeWaiter
  tiles    : List OpenTile
  tlbs     : NMap (List TlbEnt)
  /-- The walk caches of the MMUs (R237). -/
  walks    : NMap (List WalkEnt)
  queues   : NMap Queue
  pool     : List Pkt
  done     : List DonePkt
  fails    : List StepFail
  acks     : List RecWrite
  copyEng  : NMap (List (Nat × Nat))
  lastQ    : NMap Nat
  /-- The queue last given an entry of the pool (R265). -/
  roomTurn : Nat
  kernels  : List Kernel
  nextKern : Nat
  kepoch   : Nat
  colls    : List CollStep
  held     : List CollHeld
  collSeq  : NMap Nat
  msix     : NMap Msix
  hif      : HifSt
  links    : NMap Link
  /-- The frames received that wait, in order (R357). -/
  arrived  : List Arrived
  /-- The Silit ports whose training is a retraining (R358). -/
  retrain  : List Nat
  /-- The round trip measured of each route, in ns (R355). -/
  rtts     : NMap Nat
  remote   : List RemReq
  nextTid  : Nat
  gens     : NMap Nat
  /-- R423: entries freed by TARGET_RESET or a timeout: transaction number ↦ when, plus 1. -/
  tidHold  : NMap Nat
  /-- Frames sent without a link that keeps them (PTP, LLDP, Ethernet control). -/
  plainTx  : List TxFrame
  /-- R434: the last 4,096 frame headers sent (key 2p) and received (2p + 1) on each port p, oldest first. -/
  hdrs     : NMap (List FrameHdr)
  time     : TimeSt
  flash    : NMap Byte
  fuses    : Fuses
  usercal  : NMap Int
  ports    : NMap PortEnum
  ftTimes  : NMap (List Nat)
  devLoad  : NMap DevLoad
  sec      : SecSt
  pwr      : PwrSt
  side     : SideSt
  tap      : TapSt
  dump     : Option DumpSt
  /-- A fatal stop whose steps 5 to 7 are still to come (R431). -/
  dumpDue  : Bool
  /-- The boot flash that discovery found (R383). -/
  flashDev : Option FlashDev
  /-- `far_port_en` and `fabric_wait_ms` as written after start-up, for the next chip reset (R396). -/
  later    : Option Nat × Option Nat
  /-- The regions whose caches, and whether the shared caches, have left safe mode (R199, R202). -/
  normRgn  : List Nat
  normScd  : Bool
  /-- Since when the token rate of each region has been low (time plus one, R420). -/
  slowAt   : NMap Nat
  /-- Refreshes done of each bank (R219): (site × 4 + channel) × 64 + die × 16 + bank. -/
  refresh  : NMap Nat
  hotDies  : List Nat
  dieTemp  : NMap Int
  patrolAt : NMap Nat
  scrubAt  : NMap Nat
  /-- The period in force, in hours, of the patrol pass of each site and of the scrub pass of each shared-cache die
  under way (R212, R233); 0: none. -/
  patrolPer : NMap Nat
  scrubPer : NMap Nat
  /-- When the drain of a region that is powered down reaches its limit, plus one (R185, R186, R189). -/
  drainAt  : NMap Nat
  siliOff  : List Nat
  /-- When each Silit port last began to train (R345, R358). -/
  trainAt  : NMap Nat
  /-- The sites that hold the location-table slice of each MID and its mirror (R238), set at start-up. -/
  slices   : NMap (Option Nat × Option Nat)
  /-- What a tag is owed below 1 mJ, in µJ (R315). -/
  energyRem : NMap Nat
  /-- The use of a unit by a tag since the last energy split, keyed 65536 × unit + tag: regions 0 to 23 in cell-ns, sites
  24 to 35 in bytes, fabric dies 36 to 41 in bytes, FTA 42 and FTB 43 in bytes (R315). -/
  used     : NMap Nat
deriving DecidableEq, Repr

/-- The device right after chip reset begins: PWRGOOD high, PERST# asserted, RECOVERY_N, PWROFF_REQ_N and PWR_BRAKE_N
not driven, every register at its reset value, every page UNALLOCATED, the fuses of a part without factory repairs and
an erased boot flash. Log entries 1, 3, 4. -/
def State.reset : State where
  pending := []
  free := 0
  regs := []
  cells := []
  blocks := []
  mem := []
  check := []
  full := []
  hostMem := []
  loct := []
  lcache := []
  sampled := []
  migs := []
  unclean := []
  unslot := []
  promo := []
  roomOwed := 0
  pairs := []
  feLines := []
  ftBad := []
  badLines := []
  farClear := []
  evac := []
  skip := []
  pinWait := []
  want := []
  demoting := false
  scds := []
  hostDirty := []
  resv := []
  waiters := []
  tiles := []
  tlbs := []
  walks := []
  queues := []
  pool := []
  done := []
  fails := []
  acks := []
  copyEng := []
  lastQ := []
  roomTurn := 0
  kernels := []
  nextKern := 1
  kepoch := 0
  colls := []
  held := []
  collSeq := []
  msix := []
  hif := ⟨false, false, false, true, none, false, false, false, false, false, false, [], [], none, none, none, false, false, 0, 0,
    none, 0, 0, .none, []⟩
  links := []
  arrived := []
  retrain := []
  rtts := []
  remote := []
  nextTid := 0
  gens := []
  tidHold := []
  plainTx := []
  hdrs := []
  time := ⟨0, 0, none, 0, none, 0, 0, 0, 0, 0, none, 0, 0, 0, 0, 0⟩
  flash := []
  fuses := ⟨0, 0, false, 0, 0, [], [], []⟩
  usercal := []
  ports := []
  ftTimes := []
  devLoad := []
  sec := ⟨none, [], 0, 0, [], false, false, [], [], 0, [], [], [], 0⟩
  pwr := ⟨true, true, true, false, false, false, 0, 0, false, false, [], 0, [], [], [], [], 0, false, false, false,
    [], 0, [], []⟩
  side := ⟨0, none, false, [], none, false, false, false⟩
  tap := ⟨0x01, 0x1481256F, 0, 0, none, false, false⟩
  dump := none
  dumpDue := false
  flashDev := none
  later := (none, none)
  normRgn := []
  normScd := false
  slowAt := []
  refresh := []
  hotDies := []
  dieTemp := []
  patrolAt := []
  scrubAt := []
  patrolPer := []
  scrubPer := []
  drainAt := []
  siliOff := []
  trainAt := []
  slices := []
  energyRem := []
  used := []

end Sys2Proof.Machine
end

