-- ==== Sys2Proof/Machine/Maps.lean ====
section
/-!
DEFINITION. Sparse maps keyed by numbers, sorted by key, listing only what differs from a default; and the small list
and arithmetic helpers the rest of the model uses.
-/

namespace Sys2Proof.Machine

/-- The entry of a map at a key. -/
def mapFind {α : Type} : NMap α → Nat → Option α
  | [], _ => none
  | (k, v) :: t, q => if k = q then some v else mapFind t q

/-- The value of a map at a key, the default where the map lists none. -/
def mapGet {α : Type} (d : α) (m : NMap α) (k : Nat) : α := (mapFind m k).getD d

/-- Removal of a key. -/
def mapErase {α : Type} : NMap α → Nat → NMap α
  | [], _ => []
  | (k, v) :: t, q => if k = q then mapErase t q else (k, v) :: mapErase t q

/-- Insertion at the key's place, replacing an entry of the same key. -/
def mapIns {α : Type} : NMap α → Nat → α → NMap α
  | [], k, v => [(k, v)]
  | (k', v') :: t, k, v =>
    if k < k' then (k, v) :: (k', v') :: t
    else if k' = k then (k, v) :: t
    else (k', v') :: mapIns t k v

/-- A write that keeps the map canonical: the default value removes the entry. -/
def mapSet {α : Type} [DecidableEq α] (d : α) (m : NMap α) (k : Nat) (v : α) : NMap α :=
  if v = d then mapErase m k else mapIns m k v

/-- Keys strictly rising. -/
def mapSorted {α : Type} : NMap α → Bool
  | [] => true
  | (k, _) :: t => t.all (fun e => decide (k < e.1)) && mapSorted t

/-- The canonical form: keys strictly rising, no entry equal to the default. -/
def mapWf {α : Type} [DecidableEq α] (d : α) (m : NMap α) : Bool :=
  mapSorted m && m.all (fun e => decide (e.2 ≠ d))

/-- The entries of a map whose keys lie in `[lo, hi)`, in order. -/
def mapRange {α : Type} (m : NMap α) (lo hi : Nat) : NMap α :=
  m.filter (fun e => decide (lo ≤ e.1) && decide (e.1 < hi))

/-- A map without its entries in `[lo, hi)`. -/
def mapClear {α : Type} (m : NMap α) (lo hi : Nat) : NMap α :=
  m.filter (fun e => !(decide (lo ≤ e.1) && decide (e.1 < hi)))

/-- The `n` bytes of a byte map from an address, unlisted bytes 0. -/
def bytesAt (m : NMap Byte) (a n : Nat) : List Byte :=
  let r := mapRange m a (a + n)
  (List.range n).map (fun i => mapGet 0 r (a + i))

/-- A write of bytes from an address on. -/
def putBytes : NMap Byte → Nat → List Byte → NMap Byte
  | m, _, [] => m
  | m, a, b :: t => putBytes (mapSet 0 m a b) (a + 1) t

/-- A little-endian number of bytes (R6). -/
def leNat : List Byte → Nat
  | [] => 0
  | b :: t => b.toNat + 256 * leNat t

/-- The `n` little-endian bytes of a number (R6). -/
def natLe : Nat → Nat → List Byte
  | 0, _ => []
  | n + 1, v => BitVec.ofNat 8 v :: natLe n (v / 256)

/-- Bit `i` of a number. -/
def bitOf (v i : Nat) : Bool := v.testBit i

/-- Bits `[lo + w − 1 : lo]` of a number. -/
def bits (v lo w : Nat) : Nat := v / 2 ^ lo % 2 ^ w

/-- A number with bits `[lo + w − 1 : lo]` replaced. -/
def setBits (v lo w x : Nat) : Nat :=
  v % 2 ^ lo + 2 ^ lo * (x % 2 ^ w) + 2 ^ (lo + w) * (v / 2 ^ (lo + w))

/-- 1 for true. -/
def b2n (b : Bool) : Nat := if b then 1 else 0

/-- The two's complement value of the low `w` bits. -/
def sgn (w v : Nat) : Int :=
  let x := v % 2 ^ w
  if 2 * x < 2 ^ w then (x : Int) else (x : Int) - (2 ^ w : Nat)

/-- The low `w` bits of an integer. -/
def lowBits (w : Nat) (v : Int) : Nat := (v % ((2 ^ w : Nat) : Int)).toNat

/-- An integer clamped to the signed range of `w` bits. -/
def clampInt (w : Nat) (v : Int) : Int :=
  let m : Int := ((2 ^ (w - 1) : Nat) : Int)
  if v ≥ m then m - 1 else if v < -m then -m else v

/-- A list with element `i` replaced. -/
def setNth {α : Type} : List α → Nat → α → List α
  | [], _, _ => []
  | _ :: t, 0, x => x :: t
  | a :: t, n + 1, x => a :: setNth t n x

/-- The lanes of a mask, in ascending order. -/
def lanesOf (m : Mask) : List Nat := (List.range 32).filter (fun i => m.getLsbD i)

/-- The mask of a lane list. -/
def maskOf (l : List Nat) : Mask := l.foldl (fun m i => m ||| (1 <<< i)) 0

/-- The lowest number below `n` that a test accepts. -/
def firstBelow (n : Nat) (p : Nat → Bool) : Option Nat := (List.range n).find? p

/-- The least element of a list by a key; the first of equals. -/
def minBy {α : Type} (f : α → Nat) : List α → Option α
  | [] => none
  | a :: t =>
    match minBy f t with
    | none => some a
    | some b => if f b < f a then some b else some a

/-- Rounding up a quotient. -/
def ceilDiv (a b : Nat) : Nat := (a + b - 1) / b

end Sys2Proof.Machine
end

