-- ==== Sys2Proof/Machine/Fp.lean ====
section
/-!
DEFINITION. The number formats of R112 and the floating-point arithmetic of R55, R115, R117 and R462, by exact values:
every finite number is `(−1)^neg × mant × 2^exp`, results are formed exactly and rounded once.
-/

namespace Sys2Proof.Machine

/-- What a format does with codes beyond its finite range: codes for infinities and NaNs, NaNs only, neither. -/
inductive Special where
  | ieee
  | nanOnly
  | none
deriving DecidableEq, Repr

/-- A binary format: exponent and mantissa widths, bias, special codes, default quiet NaN. -/
structure FFmt where
  ebits : Nat
  mbits : Nat
  bias  : Nat
  spec  : Special
  qnan  : Nat
deriving DecidableEq, Repr

/-- R112. -/
def FFmt.fp32 : FFmt := ⟨8, 23, 127, .ieee, 0x7FC00000⟩
/-- R112. -/
def FFmt.bf16 : FFmt := ⟨8, 7, 127, .ieee, 0x7FC0⟩
/-- R112. -/
def FFmt.fp16 : FFmt := ⟨5, 10, 15, .ieee, 0x7E00⟩
/-- R112. -/
def FFmt.fp64 : FFmt := ⟨11, 52, 1023, .ieee, 0x7FF8000000000000⟩
/-- R112. The only NaN codes are S.1111.111, so the default quiet NaN with sign 0 is 0x7F. -/
def FFmt.e4m3 : FFmt := ⟨4, 3, 7, .nanOnly, 0x7F⟩
/-- R112. The default quiet NaN sets the leading mantissa bit alone. -/
def FFmt.e5m2 : FFmt := ⟨5, 2, 15, .ieee, 0x7E⟩
/-- R112. -/
def FFmt.e3m2 : FFmt := ⟨3, 2, 3, .none, 0⟩
/-- R112. -/
def FFmt.e2m3 : FFmt := ⟨2, 3, 1, .none, 0⟩
/-- R112. -/
def FFmt.e2m1 : FFmt := ⟨2, 1, 1, .none, 0⟩

/-- The width of a format. -/
def FFmt.width (f : FFmt) : Nat := 1 + f.ebits + f.mbits

/-- The largest finite code of a format, sign clear. -/
def FFmt.maxFin (f : FFmt) : Nat :=
  match f.spec with
  | .ieee => (2 ^ f.ebits - 1) * 2 ^ f.mbits - 1
  | .nanOnly => 2 ^ (f.ebits + f.mbits) - 2
  | .none => 2 ^ (f.ebits + f.mbits) - 1

/-- The sign bit of a format. -/
def FFmt.signBit (f : FFmt) : Nat := 2 ^ (f.ebits + f.mbits)

/-- The exponent of the smallest subnormal. -/
def FFmt.qmin (f : FFmt) : Int := 1 - (f.bias : Int) - (f.mbits : Int)

/-- The value of a floating-point code. -/
inductive FVal where
  | nan
  | inf (neg : Bool)
  | fin (neg : Bool) (m : Nat) (e : Int)
deriving DecidableEq, Repr

/-- The value of a code (R112). -/
def FFmt.dec (f : FFmt) (v : Nat) : FVal :=
  let neg := v.testBit (f.ebits + f.mbits)
  let mag := v % f.signBit
  let ex := mag / 2 ^ f.mbits
  let man := mag % 2 ^ f.mbits
  if mag > f.maxFin then
    if f.spec = .ieee ∧ man = 0 then .inf neg else .nan
  else if ex = 0 then .fin neg man f.qmin
  else .fin neg (2 ^ f.mbits + man) (f.qmin + (ex : Int) - 1)

/-- The rounding modes of R54: nearest even, towards zero, towards −∞, towards +∞. -/
inductive Rnd where
  | ne
  | tz
  | dn
  | up
deriving DecidableEq, Repr

/-- R54: `mod`[1:0]. -/
def Rnd.of (m : Nat) : Rnd :=
  match m % 4 with
  | 0 => .ne
  | 1 => .tz
  | 2 => .dn
  | _ => .up

/-- Rounding of `m / 2^d` to an integer, for a number of the given sign. -/
def roundShift (rm : Rnd) (neg : Bool) (m d : Nat) : Nat :=
  let q := m / 2 ^ d
  let r := m % 2 ^ d
  if r = 0 then q
  else
    let upw : Bool :=
      match rm with
      | .ne => decide (2 ^ d < 2 * r) || (decide (2 * r = 2 ^ d) && decide (q % 2 = 1))
      | .tz => false
      | .dn => neg
      | .up => !neg
    if upw then q + 1 else q

/-- The code an overflow gives: R117, R55 (E4M3 saturates), R462 (no infinity: the largest finite value). -/
def FFmt.overflow (f : FFmt) (rm : Rnd) (neg : Bool) : Nat :=
  let toInf : Bool :=
    match rm with
    | .ne => true
    | .tz => false
    | .dn => neg
    | .up => !neg
  if f.spec = .ieee ∧ toInf then f.maxFin + 1 else f.maxFin

/-- The code of `(−1)^neg × m × 2^e`, rounded once. -/
def FFmt.round (f : FFmt) (rm : Rnd) (neg : Bool) (m : Nat) (e : Int) : Nat :=
  let sb := if neg then f.signBit else 0
  if m = 0 then sb
  else
    let top : Int := e + (Nat.log2 m : Int)
    let q : Int := max (top - (f.mbits : Int)) f.qmin
    let n := if q ≤ e then m * 2 ^ (e - q).toNat else roundShift rm neg m (q - e).toNat
    let code := n + (q - f.qmin).toNat * 2 ^ f.mbits
    sb + (if code > f.maxFin then f.overflow rm neg else code)

/-- The code of a value: infinities saturate where the format has none, a NaN is the default quiet NaN. -/
def FFmt.enc (f : FFmt) (rm : Rnd) : FVal → Nat
  | .nan => f.qnan
  | .inf neg => (if neg then f.signBit else 0) + (if f.spec = .ieee then f.maxFin + 1 else f.maxFin)
  | .fin neg m e => f.round rm neg m e

/-- The signed integer mantissa of a finite number at exponent `q`, at most its own. -/
def signedAt (neg : Bool) (m : Nat) (e q : Int) : Int :=
  let x : Int := ((m * 2 ^ (e - q).toNat : Nat) : Int)
  if neg then -x else x

/-- An exact sum. A zero sum of two zeros of one sign keeps it; any other exact zero is −0 towards −∞, else +0. -/
def FVal.add (rm : Rnd) : FVal → FVal → FVal
  | .nan, _ => .nan
  | _, .nan => .nan
  | .inf a, .inf b => if a = b then .inf a else .nan
  | .inf a, .fin _ _ _ => .inf a
  | .fin _ _ _, .inf b => .inf b
  | .fin a ma ea, .fin b mb eb =>
    let q := min ea eb
    let s := signedAt a ma ea q + signedAt b mb eb q
    if s = 0 then
      .fin (if ma = 0 ∧ mb = 0 ∧ a = b then a else decide (rm = .dn)) 0 q
    else .fin (decide (s < 0)) s.natAbs q

/-- An exact product. -/
def FVal.mul : FVal → FVal → FVal
  | .nan, _ => .nan
  | _, .nan => .nan
  | .inf a, .inf b => .inf (a != b)
  | .inf a, .fin b m _ => if m = 0 then .nan else .inf (a != b)
  | .fin a m _, .inf b => if m = 0 then .nan else .inf (a != b)
  | .fin a ma ea, .fin b mb eb => .fin (a != b) (ma * mb) (ea + eb)

/-- A value with its sign flipped. -/
def FVal.neg : FVal → FVal
  | .nan => .nan
  | .inf a => .inf (!a)
  | .fin a m e => .fin (!a) m e

/-- The magnitude of a value. -/
def FVal.abs : FVal → FVal
  | .nan => .nan
  | .inf _ => .inf false
  | .fin _ m e => .fin false m e

/-- A value times a power of two. -/
def FVal.scale (k : Int) : FVal → FVal
  | .fin a m e => .fin a m (e + k)
  | v => v

/-- Whether a value is a finite number. -/
def FVal.isFin : FVal → Bool
  | .fin _ _ _ => true
  | _ => false

/-- Whether the first of two numbers is below the second; false where either is a NaN. −0 equals +0. -/
def FVal.lt : FVal → FVal → Bool
  | .nan, _ => false
  | _, .nan => false
  | .inf a, .inf b => a && !b
  | .inf a, .fin _ _ _ => a
  | .fin _ _ _, .inf b => !b
  | .fin a ma ea, .fin b mb eb =>
    let q := min ea eb
    decide (signedAt a ma ea q < signedAt b mb eb q)

/-- Whether two numbers are equal. -/
def FVal.eq : FVal → FVal → Bool
  | .nan, _ => false
  | _, .nan => false
  | a, b => !(FVal.lt a b) && !(FVal.lt b a)

/-- R55: a correctly rounded sum. -/
def fAdd (f : FFmt) (rm : Rnd) (a b : Nat) : Nat := f.enc rm (FVal.add rm (f.dec a) (f.dec b))

/-- R55: a correctly rounded product. -/
def fMul (f : FFmt) (rm : Rnd) (a b : Nat) : Nat := f.enc rm (FVal.mul (f.dec a) (f.dec b))

/-- R54, R55: a correctly rounded fused multiply-add; `neg` negates the third source. -/
def fFma (f : FFmt) (rm : Rnd) (neg : Bool) (a b c : Nat) : Nat :=
  let c := f.dec c
  f.enc rm (FVal.add rm (FVal.mul (f.dec a) (f.dec b)) (if neg then c.neg else c))

/-- R55: minimumNumber, or maximumNumber when `isMax`. −0 is below +0. -/
def fMinMax (f : FFmt) (isMax : Bool) (a b : Nat) : Nat :=
  match f.dec a, f.dec b with
  | .nan, .nan => f.qnan
  | .nan, _ => b
  | _, .nan => a
  | x, y =>
    let aBelow := x.lt y || (!(y.lt x) && a.testBit (f.ebits + f.mbits))
    if aBelow != isMax then a else b

/-- R55: abs clears the sign bit and changes nothing else. -/
def fAbs (f : FFmt) (a : Nat) : Nat := a % f.signBit

/-- R55: negate flips the sign bit and changes nothing else. -/
def fNeg (f : FFmt) (a : Nat) : Nat := a ^^^ f.signBit

/-- R55: a correctly rounded square root. -/
def fSqrt (f : FFmt) (rm : Rnd) (a : Nat) : Nat :=
  match f.dec a with
  | .nan => f.qnan
  | .inf neg => if neg then f.qnan else a
  | .fin neg m e =>
    if m = 0 then a
    else if neg then f.qnan
    else
      -- an even exponent and enough bits that the root has more than the format's
      let k := 2 * (f.mbits + 4) + (if e % 2 = 0 then 0 else 1)
      let m' := m * 2 ^ k
      let r := Nat.sqrt m'
      let st := if r * r = m' then 0 else 1
      f.round rm false (2 * r + st) ((e - (k : Int)) / 2 - 1)

/-! ### Results within a bound (R55) -/

/-- Whether code `c` is a finite value within `tol × 2^q` of `(−1)^neg × m × 2^q`. -/
def withinOf (f : FFmt) (c : Nat) (neg : Bool) (m tol : Nat) (q : Int) : Bool :=
  match f.dec c with
  | .fin n mc ec =>
    let z := min q ec
    let d := signedAt n mc ec z - signedAt neg m q z
    decide (d.natAbs ≤ tol * 2 ^ (q - z).toNat)
  | _ => false

/-- Whether code `c` is a finite magnitude within `2^u` of a magnitude that lies from `m × 2^q` to `(m + st) × 2^q`, at
`st` = 0 exactly the first and at `st` = 1 between them, known to within `slack × 2^q`. -/
def nearOf (f : FFmt) (c m st slack : Nat) (u q : Int) : Bool :=
  match f.dec c with
  | .fin _ mc ec =>
    let z := min (min q ec) u
    let x := mc * 2 ^ (ec - z).toNat
    let tol := 2 ^ (u - z).toNat + slack * 2 ^ (q - z).toNat
    decide (x ≤ m * 2 ^ (q - z).toNat + tol) && decide ((m + st) * 2 ^ (q - z).toNat ≤ x + tol)
  | _ => false

/-- A result the spec bounds to 1 ulp: the free candidate where it is within 1 ulp of the exact value, else that value
rounded. The exact magnitude is `m × 2^q` (`st` = 0) or lies between that and the next multiple of `2^q` (`st` = 1),
known to within `slack` units of `2^q`, far below an ulp; an overflow admits the largest finite value and the infinity.
Log entry 2. -/
def ulpPick (f : FFmt) (rm : Rnd) (cand : Nat) (neg : Bool) (m st slack : Nat) (q : Int) : Nat :=
  let best := f.round rm neg (2 * m + st) (q - 1)
  let mag := best % f.signBit
  let c := cand % 2 ^ f.width
  if mag > f.maxFin ∨ mag = f.maxFin then
    if c % f.signBit = f.maxFin ∨ c % f.signBit = f.maxFin + 1 then
      (if neg then f.signBit else 0) + c % f.signBit
    else best
  else
    let u : Int := max (q + (Nat.log2 m : Int) - (f.mbits : Int)) f.qmin
    if c / f.signBit = b2n neg ∧ nearOf f c m st slack u q then c else best

/-- R55: a reciprocal within 1 ulp, its special cases exact. -/
def fRcp (f : FFmt) (rm : Rnd) (cand a : Nat) : Nat :=
  match f.dec a with
  | .nan => f.qnan
  | .inf neg => if neg then f.signBit else 0
  | .fin neg m e =>
    if m = 0 then (if neg then f.signBit else 0) + f.maxFin + 1
    else
      let k := Nat.log2 m + 2 * f.mbits + 16
      ulpPick f rm cand neg (2 ^ k / m) (if 2 ^ k % m = 0 then 0 else 1) 0 (-(k : Int) - e)

/-- R55: a reciprocal square root within 1 ulp, its special cases exact. -/
def fRsq (f : FFmt) (rm : Rnd) (cand a : Nat) : Nat :=
  match f.dec a with
  | .nan => f.qnan
  | .inf neg => if neg then f.qnan else 0
  | .fin neg m e =>
    if m = 0 then (if neg then f.signBit else 0) + f.maxFin + 1
    else if neg then f.qnan
    else
      -- 1 / sqrt(m 2^e) = sqrt(2^k / m) × 2^(−(k + e) / 2), with k + e even
      let k0 := Nat.log2 m + 4 * f.mbits + 40
      let k := if (e + (k0 : Int)) % 2 = 0 then k0 else k0 + 1
      let r := Nat.sqrt (2 ^ k / m)
      ulpPick f rm cand false r (if r * r * m = 2 ^ k then 0 else 1) 0 (-((k : Int) + e) / 2)

/-! ### Transcendental functions in fixed point -/

/-- ln 2 × 2^128. -/
def ln2Q : Nat := 235865763225513294137944142764154484399

/-- π × 2^192. -/
def piQ : Nat := 19720096697726538562396133364228268891463450865190089732560

/-- Σ x^i / i! in fixed point of 128 fraction bits, from term `i` on. -/
def expTerms : Nat → Nat → Nat → Nat → Nat
  | 0, _, _, acc => acc
  | n + 1, i, x, acc =>
    let t := acc
    -- Horner's rule from the last term: 1 + x/1 (1 + x/2 (…))
    expTerms n (i - 1) x (2 ^ 128 + t * x / (2 ^ 128 * i))

/-- 2^x for a fraction x of 128 bits, in [1, 2), with 128 fraction bits. -/
def exp2Frac (x : Nat) : Nat := expTerms 40 40 (x * ln2Q / 2 ^ 128) (2 ^ 128)

/-- The argument of an exponential in fixed point of 128 fraction bits; one beyond any exponent of a format is cut off.
-/
def exp2Arg (neg : Bool) (m : Nat) (e : Int) : Int :=
  if e + (Nat.log2 m : Int) > 12 ∧ m ≠ 0 then (if neg then -(2 ^ 140 : Int) else 2 ^ 140)
  else
    let v : Nat := if e ≥ -128 then m * 2 ^ (e + 128).toNat else m / 2 ^ (-128 - e).toNat
    if neg then -(v : Int) else (v : Int)

/-- 2^x in fixed point: its mantissa and exponent. -/
def exp2Fix (x : Int) : Nat × Int := (exp2Frac (x % (2 ^ 128 : Int)).toNat, x / (2 ^ 128 : Int) - 128)

/-- R55: 2^x within 1 ulp. -/
def fExp2 (f : FFmt) (rm : Rnd) (cand a : Nat) : Nat :=
  match f.dec a with
  | .nan => f.qnan
  | .inf neg => if neg then 0 else f.maxFin + 1
  | .fin neg m e =>
    let x := exp2Arg neg m e
    let y := exp2Fix x
    ulpPick f rm cand false y.1 0 (if x % (2 ^ 128 : Int) = 0 then 0 else 1) y.2

/-- Fraction bits of log2 by repeated squaring of y in [1, 2), which has 256 fraction bits. -/
def log2Bits : Nat → Nat → Nat → Nat
  | 0, _, acc => acc
  | n + 1, y, acc =>
    let y2 := y * y / 2 ^ 256
    if y2 ≥ 2 ^ 257 then log2Bits n (y2 / 2) (2 * acc + 1) else log2Bits n y2 (2 * acc)

/-- log2 of `m × 2^e` in fixed point of 96 fraction bits. -/
def log2Fix (m : Nat) (e : Int) : Int :=
  ((Nat.log2 m : Int) + e) * (2 ^ 96 : Int) + (log2Bits 96 (m * 2 ^ (256 - Nat.log2 m)) 0 : Int)

/-- R55: log2 x within 1 ulp. Of ±0 it is −∞ and of a number below zero the default quiet NaN (IEEE 754-2019). -/
def fLog2 (f : FFmt) (rm : Rnd) (cand a : Nat) : Nat :=
  match f.dec a with
  | .nan => f.qnan
  | .inf neg => if neg then f.qnan else a
  | .fin neg m e =>
    if m = 0 then f.signBit + f.maxFin + 1
    else if neg then f.qnan
    else
      let v := log2Fix m e
      if v = 0 then 0
      else ulpPick f rm cand (decide (v < 0)) v.natAbs 0 (if m = 2 ^ Nat.log2 m then 0 else 1) (-96)

/-- The terms of a sine or cosine series by Horner's rule in fixed point of 192 bits: `1 − x²/((i)(i+1)) (…)`. -/
def trigTerms : Nat → Nat → Int → Int → Int
  | 0, _, _, acc => acc
  | n + 1, i, x2, acc =>
    trigTerms n (i - 2) x2 ((2 ^ 192 : Int) - acc * x2 / ((2 ^ 192 : Int) * (i * (i + 1) : Nat)))

/-- The argument reduced to [−π, π], with 192 fraction bits. -/
def reduceAngle (x : Int) : Int :=
  let t : Int := 2 * (piQ : Int)
  let r := x % t
  if r > (piQ : Int) then r - t else r

/-- An angle in fixed point of 192 fraction bits. -/
def trigArg (neg : Bool) (m : Nat) (e : Int) : Int :=
  let v : Nat := if e ≥ -192 then m * 2 ^ (e + 192).toNat else 0
  if neg then -(v : Int) else (v : Int)

/-- Sine, or cosine, in fixed point of 192 fraction bits. -/
def trigFix (isCos : Bool) (x : Int) : Int :=
  let r := reduceAngle x
  let x2 := r * r / (2 ^ 192 : Int)
  let s : Int :=
    if isCos then trigTerms 40 79 x2 (2 ^ 192 : Int) else trigTerms 40 80 x2 (2 ^ 192 : Int) * r / (2 ^ 192 : Int)
  max (-(2 ^ 192 : Int)) (min (2 ^ 192 : Int) s)

/-- R55: sine, or cosine, of FP32: within 2^−21 for |x| ≤ 100π; beyond, a free value. NaN for a NaN and an infinity. -/
def fTrig (isCos : Bool) (rm : Rnd) (cand a : Nat) : Nat :=
  let f := FFmt.fp32
  match f.dec a with
  | .nan => f.qnan
  | .inf _ => f.qnan
  | .fin neg m e =>
    let c := cand % 2 ^ 32
    if e + (Nat.log2 m : Int) > 9 ∨ (trigArg neg m e).natAbs > 100 * piQ then c
    else
      let s := trigFix isCos (trigArg neg m e)
      if withinOf f c (decide (s < 0)) s.natAbs (2 ^ 171) (-192) then c
      else f.round rm (decide (s < 0)) s.natAbs (-192)

/-! ### Conversions (R54, R55) -/

/-- A value rounded to an integer. -/
def FVal.toInt (rm : Rnd) : FVal → Option Int
  | .fin neg m e =>
    let n := if e ≥ 0 then m * 2 ^ e.toNat else roundShift rm neg m (-e).toNat
    some (if neg then -(n : Int) else (n : Int))
  | _ => none

/-- R55: an integer saturated to a signed or unsigned width. -/
def satInt (signed : Bool) (w : Nat) (v : Int) : Nat :=
  if signed then lowBits w (clampInt w v)
  else if v < 0 then 0 else min v.toNat (2 ^ w - 1)

/-- R55: a value converted to an integer type: a NaN is 0, an infinity saturates. -/
def FVal.toIntSat (rm : Rnd) (signed : Bool) (w : Nat) (v : FVal) : Nat :=
  match v with
  | .nan => 0
  | .inf neg => satInt signed w (if neg then -(2 ^ 64 : Int) else (2 ^ 64 : Int))
  | v => satInt signed w ((v.toInt rm).getD 0)

/-- The value of an integer. -/
def FVal.ofInt (v : Int) : FVal := .fin (decide (v < 0)) v.natAbs 0

/-- The type codes of CVT (R54): integers as (signed, width), or a format. -/
inductive CvtType where
  | int (signed : Bool) (w : Nat)
  | fp (f : FFmt)
deriving DecidableEq, Repr

/-- R54. -/
def CvtType.of : Nat → Option CvtType
  | 0 => some (.int false 32)
  | 1 => some (.int true 32)
  | 2 => some (.int false 64)
  | 3 => some (.int true 64)
  | 4 => some (.fp .fp16)
  | 5 => some (.fp .bf16)
  | 6 => some (.fp .fp32)
  | 7 => some (.fp .fp64)
  | 8 => some (.fp .e4m3)
  | 9 => some (.fp .e5m2)
  | _ => none

/-- The width of a CVT type. -/
def CvtType.width : CvtType → Nat
  | .int _ w => w
  | .fp f => f.width

/-- R54, R55: one conversion. -/
def cvt (rm : Rnd) (dst src : CvtType) (a : Nat) : Nat :=
  match dst, src with
  | .int sd wd, .int ss ws => satInt sd wd (if ss then sgn ws a else ((a % 2 ^ ws : Nat) : Int))
  | .int sd wd, .fp f => (f.dec (a % 2 ^ f.width)).toIntSat rm sd wd
  | .fp f, .int ss ws => f.enc rm (FVal.ofInt (if ss then sgn ws a else ((a % 2 ^ ws : Nat) : Int)))
  | .fp f, .fp g => f.enc rm (g.dec (a % 2 ^ g.width))

end Sys2Proof.Machine
end

