-- ==== Sys2Proof/Machine/Flags.lean ====
section
/-!
DEFINITION. Comparisons and predicate functions (R52): the machine's only flags are the predicates.
-/

namespace Sys2Proof.Machine

/-- R52: an integer comparison by `cond`; 6 and 7 are not legal here. -/
def icmpC (cond : Nat) (a b : Int) : Bool :=
  match cond with
  | 0 => a == b
  | 1 => a != b
  | 2 => decide (a < b)
  | 3 => decide (a ≤ b)
  | 4 => decide (b < a)
  | _ => decide (b ≤ a)

/-- R52: a floating-point comparison by `cond`: a NaN makes EQ, LT, LE, GT and GE false, NE and unordered true. -/
def fcmpC (f : FFmt) (cond a b : Nat) : Bool :=
  let x := f.dec a
  let y := f.dec b
  let nan := (match x with | .nan => true | _ => false) || (match y with | .nan => true | _ => false)
  match cond with
  | 0 => FVal.eq x y
  | 1 => !(FVal.eq x y)
  | 2 => FVal.lt x y
  | 3 => FVal.lt x y || FVal.eq x y
  | 4 => FVal.lt y x
  | 5 => FVal.lt y x || FVal.eq x y
  | 6 => !nan
  | _ => nan

/-- R52: the value of a register operand as its integer type says: 0 u32, 1 s32, 2 u64, 3 s64. -/
def intVal (ty v : Nat) : Int :=
  match ty with
  | 0 => ((v % 2 ^ 32 : Nat) : Int)
  | 1 => sgn 32 v
  | 2 => ((v % 2 ^ 64 : Nat) : Int)
  | _ => sgn 64 v

/-- R52: `comb`: the mask pq takes from the old p[ps] and the comparison. -/
def combMask (comb : Nat) (ps c : Mask) : Mask :=
  match comb with
  | 1 => ps &&& c
  | 2 => ps ||| c
  | _ => ps &&& ~~~c

/-- R52: PLOGIC by `cond`. -/
def plogicMask (cond : Nat) (a b : Mask) : Mask :=
  match cond with
  | 0 => a &&& b
  | 1 => a ||| b
  | 2 => a ^^^ b
  | _ => a &&& ~~~b

end Sys2Proof.Machine
end

