-- ==== Sys2Proof/Config.lean ====
section
/-!
DEFINITION. What the spec leaves open: opaque constants without a body, so that no proof can rest on their values.
-/

namespace Sys2Proof

/-- The `n`-th value the spec leaves open in a run: the state's counter `free` says which is next. Log entry 2. -/
opaque Config.freeValue : Nat → BitVec 64

/-- The flits that an operation of so many bytes sends on a region's links (R35). Log entry 11. -/
opaque Config.linkFlits : Nat → Nat

/-- A wide value the spec leaves open (a random number, a signature). Log entry 2. -/
opaque Config.freeBytes : Nat → Nat → List Byte

/-- The digest of the boot ROM, and that of the security and identity fuses by their values (R339). Log entry 38. -/
opaque Config.romDigest : BitVec 512
opaque Config.fuseDigest : Nat → Nat → Bool → BitVec 512

/-- The signature of the identity key over a message (R398), by the unique device secret and a fresh salt. Log
entry 38. -/
opaque Config.sign : BitVec 512 → List Byte → Nat → List Byte

end Sys2Proof
end

