-- ==== Sys2Proof/Machine/Regs.lean ====
section
/-!
DEFINITION. The registers of BAR0 (R7 to R12): one constructor of `Reg` for each register the spec's register tables
name, one constructor of `Fld` for each of their fields, and one description of each: where it lies, its width, its
access type, its reset value. The tables are those of the chapters, in the chapters' order.
-/

namespace Sys2Proof.Machine

/-- The access types of R7. -/
inductive Acc where
  | RO
  | RW
  | W1C
  | W1S
  | WO
  | RWL
deriving DecidableEq, Repr

/-- The registers, by the names of the register tables (without the index letter). -/
inductive Reg where
  | REG_STATUS
  | REG_SPEED
  | REG_BLOCK_MAP
  | REG_PMC_CTL
  | REG_PMC_SEL
  | REG_PMC_VAL
  | REG_PMC_SNAP
  | REG_PMC_SNAP_TIME
  | REG_PMC_ONLINE_NS
  | BLK_CELL_MAP
  | BLK_HALTED
  | CEL_STATUS
  | CEL_HALT_INFO
  | CEL_HALT_PC
  | CEL_HALT_ADDR
  | CEL_HALT_TIME
  | CEL_STORE_LOST
  | CEL_GRP_PC
  | CEL_GRP_MASK
  | CEL_GRP_WAIT
  | CEL_TS_MPC
  | CEL_TS_STATE
  | CEL_TS_RETIRED
  | CEL_TS_QUEUES
  | CEL_TS_APPEND
  | BLK_ABFT_CTL
  | BLK_ABFT_COUNT
  | CEL_MX_STATE
  | CEL_ABFT_INFO
  | CEL_ABFT_RETRIES
  | CEL_LUT_STATE
  | CFG_SYNC_TIMEOUTS
  | CEL_CACHE_MODE
  | CEL_ECC_COUNT
  | CEL_TCHK_COUNT
  | CEL_TCHK_CRC
  | CEL_TCHK_ENTRY
  | BLK_L2_STATUS
  | BLK_L2_ECC
  | BLK_L2_ERR_ADDR
  | RAS_SCD_STATUS
  | RAS_SCD_ECC
  | RAS_SCD_TILES
  | CFG_TILE_CHECK
  | MEM_MID_FE
  | MEM_SITE_STATUS
  | MEM_SITE_ERR
  | MEM_SITE_ERR_ADDR
  | FTP_STATUS
  | FTP_CTL
  | FTP_ERR
  | FTP_DIE_FE
  | FTP_EXP
  | CFG_MEMORY
  | CFG_FAR_TIER
  | PLE_CTL
  | PLE_SEASON
  | PLE_WATER
  | PLE_WP
  | PLE_CAP_CLOSE
  | PLE_CAP_FAR
  | PLE_CAP_COMMIT
  | PLE_SEASON_COUNT
  | PLE_PAGE_COUNT
  | PLE_MIG_STAT
  | PLE_QUERY_DPN
  | PLE_QUERY_ENTRY
  | PLE_MID
  | PLE_RGN_TB
  | CFE_BOOTQ_BASE
  | CFE_BOOTQ_CFG
  | CFE_BOOTQ_CMPL
  | CFE_BOOTQ_CTL
  | CFE_SCHED_CFG
  | CFE_STATUS
  | CFE_Q_CFG
  | CFE_Q_BASE
  | CFE_Q_WPTR
  | CFE_Q_RPTR
  | CFE_Q_STATUS
  | CFE_Q_SEQ
  | CFE_Q_DONE
  | CFE_Q_FAULT_SEQ
  | CFE_Q_FAULT_STEP
  | CFE_Q_MARK
  | CFE_Q_BUDGET
  | CFE_Q_CHAIN
  | CFE_Q_CHAIN_LEFT
  | CFE_Q_DB_STALE
  | CFE_ASC_STATE
  | CFE_ASC_ROOT
  | CFE_ASC_FAULT
  | CFE_FENCE_VALUE
  | CFE_FENCE_FORCE
  | CFE_FENCE_CTL
  | CFE_FENCE_STATUS
  | CFE_FENCE_STALE_COUNT
  | CFE_CAPTURE_STATUS
  | CFE_CAPTURE
  | CFE_Q_CMPL
  | CFE_Q_IRQ
  | CFE_ACCT
  | CFG_FENCE
  | CFG_QUEUE_FAULTS
  | HIF_PROMPT_ID
  | HIF_PROMPT_STATE
  | HIF_PROMPT_TIME
  | HIF_PROMPT_BEAT
  | HIF_PROMPT_FATAL
  | HIF_PROMPT_POWER
  | HIF_PROMPT_QUEUE
  | HIF_PROMPT_FENCE
  | HIF_LINK_STATUS
  | HIF_ACCESS_ERR
  | HIF_HDM_ERR
  | HIF_HDM_COUNT
  | HIF_EVENT_CFG
  | CFG_HOST
  | CFG_HOST_SUBSYS
  | FAB_ID
  | FAB_CFG
  | FAB_COUNT
  | FAB_PORT_CFG
  | FAB_PORT_STATUS
  | FAB_PORT_ERR
  | FAB_PORT_MAC
  | FAB_ROUTE
  | FAB_NBR
  | FAB_EXPORT
  | FAB_CGRP
  | FAB_CGRP_MEMBERS
  | TIM_NOW
  | TIM_FINE
  | TIM_STATUS
  | TIM_GM
  | TIM_CFG
  | CFG_MARCH_STATUS
  | CFG_MARCH_IMAGE
  | CFG_MARCH_ENTRY
  | CFG_START
  | CFG_CAL_SEL
  | CFG_CAL_READ
  | SEC_MBX_CMD
  | SEC_MBX_ARGHI
  | SEC_MBX_STATUS
  | SEC_MBX_DATA
  | SEC_FW_RUN
  | SEC_FW_STATE
  | SEC_FW_STAGED
  | SEC_FW_ARM
  | SEC_RELAY
  | SEC_RELAY_ID
  | SEC_JAN
  | RAS_FATAL
  | RAS_FATAL_TIME
  | RAS_PRESET_CTL
  | RAS_PRESET_STATUS
  | RAS_DUMP_HOST
  | RAS_DUMP_HOST_SIZE
  | RAS_DUMP_STATUS
  | RAS_DUMP_WIN
  | RAS_UNIT
  | RAS_RGN_CAUSE
  | PWR_CAP
  | PWR_STATUS
  | PWR_THERM_CFG
  | PWR_ENERGY
  | PWR_RAIL
  | PWR_TEMP
deriving DecidableEq, Repr

/-- The fields of the registers: register name, underscore, field name. -/
inductive Fld where
  | REG_STATUS_state
  | REG_STATUS_enabled_blocks
  | REG_STATUS_enabled_cells
  | REG_STATUS_reset_count
  | REG_SPEED_token_rate_mtps
  | REG_SPEED_vcore_mv
  | REG_BLOCK_MAP_cell_enabled
  | REG_BLOCK_MAP_cell_isolate_pending
  | REG_BLOCK_MAP_spare_available
  | REG_BLOCK_MAP_block_enabled
  | REG_PMC_CTL_enable
  | REG_PMC_CTL_clear
  | REG_PMC_CTL_snapshot
  | REG_PMC_SEL_event
  | REG_PMC_SEL_block
  | REG_PMC_VAL_count
  | REG_PMC_SNAP_count
  | REG_PMC_SNAP_TIME_tai_ns
  | REG_PMC_ONLINE_NS_online_ns
  | BLK_CELL_MAP_phys_of_logical
  | BLK_HALTED_cell_halted
  | CEL_STATUS_state
  | CEL_STATUS_resident_groups
  | CEL_STATUS_tile_mode
  | CEL_HALT_INFO_reason
  | CEL_HALT_INFO_group
  | CEL_HALT_INFO_source
  | CEL_HALT_INFO_more
  | CEL_HALT_INFO_valid
  | CEL_HALT_INFO_mask
  | CEL_HALT_PC_pc
  | CEL_HALT_ADDR_addr
  | CEL_HALT_ADDR_addr_valid
  | CEL_HALT_TIME_tai_ns
  | CEL_STORE_LOST_count
  | CEL_GRP_PC_pc
  | CEL_GRP_PC_stack_depth
  | CEL_GRP_PC_resident
  | CEL_GRP_MASK_active
  | CEL_GRP_MASK_exited
  | CEL_GRP_WAIT_wait
  | CEL_TS_MPC_mpc
  | CEL_TS_STATE_state
  | CEL_TS_STATE_append_mode
  | CEL_TS_STATE_wait
  | CEL_TS_STATE_in_progress
  | CEL_TS_STATE_append_left
  | CEL_TS_RETIRED_count
  | CEL_TS_QUEUES_aq_fill
  | CEL_TS_QUEUES_xq_fill
  | CEL_TS_APPEND_a_buf
  | CEL_TS_APPEND_x_buf
  | CEL_TS_APPEND_a_pending
  | CEL_TS_APPEND_x_pending
  | BLK_ABFT_CTL_mode
  | BLK_ABFT_CTL_tol_shift
  | BLK_ABFT_COUNT_detected
  | BLK_ABFT_COUNT_recovered
  | CEL_MX_STATE_acc_type
  | CEL_MX_STATE_busy
  | CEL_MX_STATE_retrying
  | CEL_MX_STATE_slices
  | CEL_MX_STATE_k_acc
  | CEL_ABFT_INFO_index
  | CEL_ABFT_INFO_is_col
  | CEL_ABFT_INFO_fmt
  | CEL_ABFT_INFO_retried
  | CEL_ABFT_INFO_retry_blocked
  | CEL_ABFT_INFO_isolate_marked
  | CEL_ABFT_INFO_valid
  | CEL_ABFT_INFO_residual
  | CEL_ABFT_RETRIES_count
  | CEL_LUT_STATE_fwd_type
  | CEL_LUT_STATE_drv_type
  | CFG_SYNC_TIMEOUTS_fe_wait_timeout_ms
  | CFG_SYNC_TIMEOUTS_dead_target_timeout_us
  | CEL_CACHE_MODE_icache_safe
  | CEL_CACHE_MODE_l1_safe
  | CEL_CACHE_MODE_selftest_failed
  | CEL_ECC_COUNT_corrected
  | CEL_ECC_COUNT_tag_parity
  | CEL_ECC_COUNT_refetched
  | CEL_TCHK_COUNT_unchecked
  | CEL_TCHK_COUNT_reread_ok
  | CEL_TCHK_CRC_computed
  | CEL_TCHK_CRC_entry_crc
  | CEL_TCHK_ENTRY_state
  | CEL_TCHK_ENTRY_epoch
  | CEL_TCHK_ENTRY_entries_differed
  | CEL_TCHK_ENTRY_reread
  | CEL_TCHK_ENTRY_valid
  | BLK_L2_STATUS_safe
  | BLK_L2_STATUS_selftest_failed
  | BLK_L2_ECC_corrected
  | BLK_L2_ECC_tag_parity
  | BLK_L2_ECC_refetched
  | BLK_L2_ECC_dirty_lost
  | BLK_L2_ERR_ADDR_addr
  | BLK_L2_ERR_ADDR_host
  | BLK_L2_ERR_ADDR_valid
  | RAS_SCD_STATUS_safe
  | RAS_SCD_STATUS_selftest_failed
  | RAS_SCD_STATUS_scrub_period_h
  | RAS_SCD_ECC_corrected
  | RAS_SCD_ECC_tag_parity
  | RAS_SCD_ECC_refetched
  | RAS_SCD_TILES_open_tiles
  | CFG_TILE_CHECK_unchecked_action
  | MEM_MID_FE_waiters
  | MEM_MID_FE_returns
  | MEM_SITE_STATUS_state
  | MEM_SITE_STATUS_dump_region
  | MEM_SITE_STATUS_chan_ok
  | MEM_SITE_STATUS_temp_c
  | MEM_SITE_STATUS_sync_slots_used
  | MEM_SITE_ERR_crc_retries
  | MEM_SITE_ERR_ecc_corrected
  | MEM_SITE_ERR_uncorrectable
  | MEM_SITE_ERR_retrains
  | MEM_SITE_ERR_ADDR_addr
  | MEM_SITE_ERR_ADDR_crc
  | MEM_SITE_ERR_ADDR_patrol
  | MEM_SITE_ERR_ADDR_valid
  | FTP_STATUS_state
  | FTP_STATUS_lanes
  | FTP_STATUS_flit256
  | FTP_STATUS_gts
  | FTP_STATUS_expanders
  | FTP_STATUS_switch
  | FTP_STATUS_evac_failed
  | FTP_STATUS_capacity_gib
  | FTP_CTL_offline_req
  | FTP_CTL_online_req
  | FTP_ERR_poison
  | FTP_ERR_timeouts
  | FTP_ERR_failures
  | FTP_ERR_dirty_lost
  | FTP_DIE_FE_waiters
  | FTP_DIE_FE_returns
  | FTP_EXP_present
  | FTP_EXP_behind_switch
  | FTP_EXP_mld
  | FTP_EXP_base_256m
  | FTP_EXP_size_256m
  | CFG_MEMORY_patrol_period_h
  | CFG_MEMORY_crc_retry_limit
  | CFG_MEMORY_refresh_hot_c
  | CFG_FAR_TIER_completion_timeout_ms
  | CFG_FAR_TIER_hot_add
  | PLE_CTL_migrate_en
  | PLE_CTL_mig_cap_gbps
  | PLE_CTL_epoch_ms
  | PLE_CTL_sample_shift
  | PLE_SEASON_warm_thr
  | PLE_SEASON_cool_thr
  | PLE_SEASON_min_dwell
  | PLE_SEASON_decay_shift
  | PLE_WATER_low_water_pm
  | PLE_WATER_high_water_pm
  | PLE_WP_aff_weight
  | PLE_CAP_CLOSE_allocatable
  | PLE_CAP_CLOSE_free
  | PLE_CAP_FAR_allocatable
  | PLE_CAP_FAR_free
  | PLE_CAP_COMMIT_committed
  | PLE_CAP_COMMIT_headroom_free
  | PLE_SEASON_COUNT_spring
  | PLE_SEASON_COUNT_summer
  | PLE_SEASON_COUNT_autumn
  | PLE_SEASON_COUNT_winter
  | PLE_PAGE_COUNT_zero
  | PLE_PAGE_COUNT_lost
  | PLE_MIG_STAT_promotions
  | PLE_MIG_STAT_demotions
  | PLE_MIG_STAT_abandoned
  | PLE_MIG_STAT_hold_max_ns
  | PLE_MIG_STAT_bytes
  | PLE_QUERY_DPN_dpn
  | PLE_QUERY_ENTRY_entry
  | PLE_MID_mirrored
  | PLE_MID_migrating
  | PLE_MID_lcache_miss
  | PLE_RGN_TB_placed
  | CFE_BOOTQ_BASE_base
  | CFE_BOOTQ_CFG_size_log2
  | CFE_BOOTQ_CFG_ring_host
  | CFE_BOOTQ_CFG_vector
  | CFE_BOOTQ_CFG_vector_en
  | CFE_BOOTQ_CMPL_cmpl_base
  | CFE_BOOTQ_CMPL_cmpl_host
  | CFE_BOOTQ_CTL_enable
  | CFE_BOOTQ_CTL_resume
  | CFE_BOOTQ_CTL_retry
  | CFE_BOOTQ_CTL_reset
  | CFE_SCHED_CFG_age_us
  | CFE_SCHED_CFG_budget_default_ms
  | CFE_STATUS_active_queues
  | CFE_STATUS_pool_used
  | CFE_STATUS_kernels
  | CFE_Q_CFG_kernel
  | CFE_Q_CFG_ring_host
  | CFE_Q_CFG_size_log2
  | CFE_Q_CFG_asc
  | CFE_Q_CFG_prio
  | CFE_Q_CFG_acct
  | CFE_Q_BASE_base
  | CFE_Q_WPTR_wptr
  | CFE_Q_RPTR_rptr
  | CFE_Q_STATUS_state
  | CFE_Q_STATUS_doorbell_latch
  | CFE_Q_STATUS_idle
  | CFE_Q_STATUS_in_chain
  | CFE_Q_STATUS_outstanding
  | CFE_Q_STATUS_fault_code
  | CFE_Q_SEQ_fetched_seq
  | CFE_Q_DONE_done_seq
  | CFE_Q_FAULT_SEQ_seq
  | CFE_Q_FAULT_STEP_step
  | CFE_Q_FAULT_STEP_none
  | CFE_Q_MARK_mark
  | CFE_Q_BUDGET_budget_ms
  | CFE_Q_CHAIN_next
  | CFE_Q_CHAIN_LEFT_left
  | CFE_Q_DB_STALE_db_stale
  | CFE_ASC_STATE_state
  | CFE_ASC_STATE_root_valid
  | CFE_ASC_STATE_queues
  | CFE_ASC_ROOT_root
  | CFE_ASC_FAULT_first_code
  | CFE_ASC_FAULT_first_queue
  | CFE_ASC_FAULT_count
  | CFE_ASC_FAULT_valid
  | CFE_FENCE_VALUE_value
  | CFE_FENCE_FORCE_value
  | CFE_FENCE_CTL_owner
  | CFE_FENCE_CTL_open
  | CFE_FENCE_CTL_remote_ok
  | CFE_FENCE_STATUS_waiters
  | CFE_FENCE_STATUS_stale
  | CFE_FENCE_STALE_COUNT_count
  | CFE_CAPTURE_STATUS_next
  | CFE_CAPTURE_STATUS_count
  | CFE_CAPTURE_capture
  | CFE_Q_CMPL_cmpl_base
  | CFE_Q_CMPL_cmpl_host
  | CFE_Q_IRQ_vector
  | CFE_Q_IRQ_vector_en
  | CFE_Q_IRQ_records_lost
  | CFE_ACCT_cell_ns
  | CFE_ACCT_matrix_tokens
  | CFE_ACCT_vector_ops
  | CFE_ACCT_close_bytes
  | CFE_ACCT_far_bytes
  | CFE_ACCT_fabric_bytes
  | CFE_ACCT_energy_mj
  | CFE_ACCT_kernels
  | CFG_FENCE_fence_wait_timeout_ms
  | CFG_QUEUE_FAULTS_store_lost_stops
  | HIF_PROMPT_ID_vendor
  | HIF_PROMPT_ID_device
  | HIF_PROMPT_ID_revision
  | HIF_PROMPT_ID_layout
  | HIF_PROMPT_STATE_boot_state
  | HIF_PROMPT_STATE_ready
  | HIF_PROMPT_STATE_fatal
  | HIF_PROMPT_STATE_dump_valid
  | HIF_PROMPT_STATE_time_locked
  | HIF_PROMPT_STATE_march_entries
  | HIF_PROMPT_STATE_regions_online
  | HIF_PROMPT_STATE_sites_online
  | HIF_PROMPT_STATE_far_ports_online
  | HIF_PROMPT_STATE_fabric_ports_up
  | HIF_PROMPT_TIME_tai_ns
  | HIF_PROMPT_BEAT_beat
  | HIF_PROMPT_FATAL_fatal_code
  | HIF_PROMPT_FATAL_fatal_ns
  | HIF_PROMPT_POWER_cap_w
  | HIF_PROMPT_POWER_power_w
  | HIF_PROMPT_POWER_tj_max_c
  | HIF_PROMPT_QUEUE_state
  | HIF_PROMPT_QUEUE_fault_code
  | HIF_PROMPT_FENCE_value
  | HIF_LINK_STATUS_mode
  | HIF_LINK_STATUS_lanes
  | HIF_LINK_STATUS_degraded
  | HIF_LINK_STATUS_cache_en
  | HIF_LINK_STATUS_mem_en
  | HIF_ACCESS_ERR_offset
  | HIF_ACCESS_ERR_bar
  | HIF_ACCESS_ERR_write
  | HIF_ACCESS_ERR_count
  | HIF_HDM_ERR_hpa
  | HIF_HDM_ERR_write
  | HIF_HDM_ERR_lost
  | HIF_HDM_ERR_valid
  | HIF_HDM_COUNT_unmapped
  | HIF_HDM_COUNT_errors
  | HIF_EVENT_CFG_event_vector
  | HIF_EVENT_CFG_event_en
  | CFG_HOST_hdm_size_gib
  | CFG_HOST_hdm_dpn_base
  | CFG_HOST_SUBSYS_subsys_vendor
  | CFG_HOST_SUBSYS_subsys_id
  | FAB_ID_dev_id
  | FAB_CFG_hop_limit
  | FAB_CFG_rtt_budget_us
  | FAB_CFG_ethertype
  | FAB_COUNT_hop_drops
  | FAB_COUNT_no_route
  | FAB_COUNT_denied
  | FAB_PORT_CFG_mode
  | FAB_PORT_CFG_width
  | FAB_PORT_CFG_ptp_en
  | FAB_PORT_CFG_pfc_en
  | FAB_PORT_CFG_pfc_prio
  | FAB_PORT_CFG_jumbo
  | FAB_PORT_CFG_rto_us
  | FAB_PORT_CFG_asym_ns
  | FAB_PORT_STATUS_state
  | FAB_PORT_STATUS_lanes_up
  | FAB_PORT_ERR_replays
  | FAB_PORT_ERR_crc_errors
  | FAB_PORT_ERR_dropped
  | FAB_PORT_ERR_retrains
  | FAB_PORT_MAC_mac
  | FAB_ROUTE_port
  | FAB_ROUTE_valid
  | FAB_ROUTE_over_budget
  | FAB_ROUTE_alt_port
  | FAB_ROUTE_alt_valid
  | FAB_ROUTE_nbr
  | FAB_ROUTE_rtt_100ns
  | FAB_NBR_mac
  | FAB_NBR_vlan
  | FAB_NBR_vlan_en
  | FAB_NBR_pcp
  | FAB_EXPORT_dpn_base
  | FAB_EXPORT_count
  | FAB_EXPORT_w
  | FAB_EXPORT_amo
  | FAB_EXPORT_valid
  | FAB_EXPORT_src_id
  | FAB_CGRP_n
  | FAB_CGRP_rank
  | FAB_CGRP_MEMBERS_member
  | TIM_NOW_tai_ns
  | TIM_FINE_frac
  | TIM_FINE_ns_low
  | TIM_STATUS_state
  | TIM_STATUS_port
  | TIM_STATUS_stepped
  | TIM_STATUS_offset_ns
  | TIM_GM_clock_id
  | TIM_CFG_domain
  | TIM_CFG_transport
  | TIM_CFG_lock_thr_ns
  | TIM_CFG_max_slew_ppm
  | CFG_MARCH_STATUS_entries
  | CFG_MARCH_STATUS_image_used
  | CFG_MARCH_STATUS_log_failed
  | CFG_MARCH_STATUS_done
  | CFG_MARCH_STATUS_records_read
  | CFG_MARCH_STATUS_records_ignored
  | CFG_MARCH_IMAGE_image_seq
  | CFG_MARCH_ENTRY_entry
  | CFG_START_far_port_en
  | CFG_START_fabric_wait_ms
  | CFG_START_watchdog_ms
  | CFG_CAL_SEL_fid
  | CFG_CAL_SEL_idx
  | CFG_CAL_READ_factory
  | CFG_CAL_READ_applied
  | SEC_MBX_CMD_cmd
  | SEC_MBX_CMD_go
  | SEC_MBX_CMD_arg
  | SEC_MBX_ARGHI_arg32
  | SEC_MBX_STATUS_state
  | SEC_MBX_STATUS_result
  | SEC_MBX_STATUS_bytes
  | SEC_MBX_DATA_data
  | SEC_FW_RUN_version
  | SEC_FW_STATE_running_slot
  | SEC_FW_STATE_stage_state
  | SEC_FW_STATE_last_result
  | SEC_FW_STATE_fallback
  | SEC_FW_STATE_svn_fuse
  | SEC_FW_STATE_revoked
  | SEC_FW_STATE_debug_unlocked
  | SEC_FW_STATE_january_next
  | SEC_FW_STAGED_version
  | SEC_FW_ARM_at_ns
  | SEC_RELAY_relay_accept
  | SEC_RELAY_relay_skipped
  | SEC_RELAY_relay_busy
  | SEC_RELAY_relays_staged
  | SEC_RELAY_ID_relay_id
  | SEC_JAN_cause
  | SEC_JAN_path
  | SEC_JAN_set_ready
  | RAS_FATAL_fatal_code
  | RAS_FATAL_die
  | RAS_FATAL_valid
  | RAS_FATAL_TIME_tai_ns
  | RAS_PRESET_CTL_kind
  | RAS_PRESET_CTL_index
  | RAS_PRESET_CTL_action
  | RAS_PRESET_CTL_go
  | RAS_PRESET_STATUS_busy
  | RAS_PRESET_STATUS_evac_failed
  | RAS_PRESET_STATUS_failed
  | RAS_PRESET_STATUS_pages_left
  | RAS_DUMP_HOST_host_en
  | RAS_DUMP_HOST_base
  | RAS_DUMP_HOST_SIZE_size_mib
  | RAS_DUMP_STATUS_valid
  | RAS_DUMP_STATUS_host_written
  | RAS_DUMP_STATUS_host_truncated
  | RAS_DUMP_STATUS_pieces
  | RAS_DUMP_WIN_piece
  | RAS_DUMP_WIN_window
  | RAS_UNIT_epoch
  | RAS_UNIT_resets
  | RAS_UNIT_dirty_lost
  | RAS_RGN_CAUSE_cause
  | RAS_RGN_CAUSE_count
  | PWR_CAP_cap_w
  | PWR_CAP_source
  | PWR_STATUS_power_w
  | PWR_STATUS_tj_max_c
  | PWR_STATUS_state
  | PWR_STATUS_trip_cause
  | PWR_STATUS_throttle_events
  | PWR_THERM_CFG_tj_target_c
  | PWR_ENERGY_energy_mj
  | PWR_RAIL_mv
  | PWR_RAIL_ma
  | PWR_TEMP_temp
  | PWR_TEMP_valid
deriving DecidableEq, Repr

/-- Where a register lies (R12): its offset in BAR0, the count and stride of each of its indices from the outermost
inwards, its width in bits. -/
structure RegDesc where
  base  : Nat
  dims  : List (Nat × Nat)
  width : Nat

/-- The place and width of every register (R11, R12 and the register tables). -/
def Reg.desc : Reg → RegDesc
  | .REG_STATUS => ⟨0x1000000, [(24, 0x80000)], 64⟩
  | .REG_SPEED => ⟨0x1000010, [(24, 0x80000)], 32⟩
  | .REG_BLOCK_MAP => ⟨0x1000100, [(24, 0x80000), (12, 0x4)], 32⟩
  | .REG_PMC_CTL => ⟨0x1000200, [(24, 0x80000)], 32⟩
  | .REG_PMC_SEL => ⟨0x1000210, [(24, 0x80000), (8, 0x4)], 32⟩
  | .REG_PMC_VAL => ⟨0x1000240, [(24, 0x80000), (8, 0x8)], 64⟩
  | .REG_PMC_SNAP => ⟨0x1000280, [(24, 0x80000), (8, 0x8)], 64⟩
  | .REG_PMC_SNAP_TIME => ⟨0x10002c0, [(24, 0x80000)], 64⟩
  | .REG_PMC_ONLINE_NS => ⟨0x10002c8, [(24, 0x80000)], 64⟩
  | .BLK_CELL_MAP => ⟨0x1010000, [(24, 0x80000), (12, 0x4000)], 32⟩
  | .BLK_HALTED => ⟨0x1010004, [(24, 0x80000), (12, 0x4000)], 32⟩
  | .CEL_STATUS => ⟨0x1010400, [(24, 0x80000), (12, 0x4000), (9, 0x400)], 32⟩
  | .CEL_HALT_INFO => ⟨0x1010408, [(24, 0x80000), (12, 0x4000), (9, 0x400)], 64⟩
  | .CEL_HALT_PC => ⟨0x1010410, [(24, 0x80000), (12, 0x4000), (9, 0x400)], 64⟩
  | .CEL_HALT_ADDR => ⟨0x1010418, [(24, 0x80000), (12, 0x4000), (9, 0x400)], 64⟩
  | .CEL_HALT_TIME => ⟨0x1010420, [(24, 0x80000), (12, 0x4000), (9, 0x400)], 64⟩
  | .CEL_STORE_LOST => ⟨0x1010428, [(24, 0x80000), (12, 0x4000), (9, 0x400)], 64⟩
  | .CEL_GRP_PC => ⟨0x1010500, [(24, 0x80000), (12, 0x4000), (9, 0x400), (16, 0x10)], 64⟩
  | .CEL_GRP_MASK => ⟨0x1010508, [(24, 0x80000), (12, 0x4000), (9, 0x400), (16, 0x10)], 64⟩
  | .CEL_GRP_WAIT => ⟨0x1010600, [(24, 0x80000), (12, 0x4000), (9, 0x400), (16, 0x4)], 32⟩
  | .CEL_TS_MPC => ⟨0x1010700, [(24, 0x80000), (12, 0x4000), (9, 0x400), (2, 0x20)], 64⟩
  | .CEL_TS_STATE => ⟨0x1010708, [(24, 0x80000), (12, 0x4000), (9, 0x400), (2, 0x20)], 32⟩
  | .CEL_TS_RETIRED => ⟨0x1010710, [(24, 0x80000), (12, 0x4000), (9, 0x400), (2, 0x20)], 64⟩
  | .CEL_TS_QUEUES => ⟨0x1010740, [(24, 0x80000), (12, 0x4000), (9, 0x400)], 64⟩
  | .CEL_TS_APPEND => ⟨0x1010748, [(24, 0x80000), (12, 0x4000), (9, 0x400)], 32⟩
  | .BLK_ABFT_CTL => ⟨0x1010010, [(24, 0x80000), (12, 0x4000)], 32⟩
  | .BLK_ABFT_COUNT => ⟨0x1010018, [(24, 0x80000), (12, 0x4000)], 64⟩
  | .CEL_MX_STATE => ⟨0x1010780, [(24, 0x80000), (12, 0x4000), (9, 0x400)], 64⟩
  | .CEL_ABFT_INFO => ⟨0x1010788, [(24, 0x80000), (12, 0x4000), (9, 0x400)], 64⟩
  | .CEL_ABFT_RETRIES => ⟨0x1010790, [(24, 0x80000), (12, 0x4000), (9, 0x400)], 64⟩
  | .CEL_LUT_STATE => ⟨0x10107a0, [(24, 0x80000), (12, 0x4000), (9, 0x400)], 32⟩
  | .CFG_SYNC_TIMEOUTS => ⟨0x3801000, [], 32⟩
  | .CEL_CACHE_MODE => ⟨0x10107b0, [(24, 0x80000), (12, 0x4000), (9, 0x400)], 32⟩
  | .CEL_ECC_COUNT => ⟨0x10107b8, [(24, 0x80000), (12, 0x4000), (9, 0x400)], 64⟩
  | .CEL_TCHK_COUNT => ⟨0x10107c0, [(24, 0x80000), (12, 0x4000), (9, 0x400)], 64⟩
  | .CEL_TCHK_CRC => ⟨0x10107c8, [(24, 0x80000), (12, 0x4000), (9, 0x400)], 64⟩
  | .CEL_TCHK_ENTRY => ⟨0x10107d0, [(24, 0x80000), (12, 0x4000), (9, 0x400)], 64⟩
  | .BLK_L2_STATUS => ⟨0x1010020, [(24, 0x80000), (12, 0x4000)], 32⟩
  | .BLK_L2_ECC => ⟨0x1010028, [(24, 0x80000), (12, 0x4000)], 64⟩
  | .BLK_L2_ERR_ADDR => ⟨0x1010030, [(24, 0x80000), (12, 0x4000)], 64⟩
  | .RAS_SCD_STATUS => ⟨0x3020000, [(2, 0x100)], 32⟩
  | .RAS_SCD_ECC => ⟨0x3020008, [(2, 0x100)], 64⟩
  | .RAS_SCD_TILES => ⟨0x3020010, [(2, 0x100)], 32⟩
  | .CFG_TILE_CHECK => ⟨0x3801004, [], 32⟩
  | .MEM_MID_FE => ⟨0x800000, [(4, 0x100000)], 64⟩
  | .MEM_SITE_STATUS => ⟨0x801000, [(4, 0x100000), (3, 0x1000)], 64⟩
  | .MEM_SITE_ERR => ⟨0x801008, [(4, 0x100000), (3, 0x1000)], 64⟩
  | .MEM_SITE_ERR_ADDR => ⟨0x801010, [(4, 0x100000), (3, 0x1000)], 64⟩
  | .FTP_STATUS => ⟨0xc00000, [(4, 0x100000)], 64⟩
  | .FTP_CTL => ⟨0xc00008, [(4, 0x100000)], 32⟩
  | .FTP_ERR => ⟨0xc00010, [(4, 0x100000)], 64⟩
  | .FTP_DIE_FE => ⟨0xc00018, [(4, 0x100000)], 64⟩
  | .FTP_EXP => ⟨0xc00100, [(4, 0x100000), (8, 0x8)], 64⟩
  | .CFG_MEMORY => ⟨0x3801008, [], 32⟩
  | .CFG_FAR_TIER => ⟨0x380100c, [], 32⟩
  | .PLE_CTL => ⟨0x400000, [], 32⟩
  | .PLE_SEASON => ⟨0x400008, [], 32⟩
  | .PLE_WATER => ⟨0x400010, [], 32⟩
  | .PLE_WP => ⟨0x400018, [], 32⟩
  | .PLE_CAP_CLOSE => ⟨0x400040, [], 64⟩
  | .PLE_CAP_FAR => ⟨0x400048, [], 64⟩
  | .PLE_CAP_COMMIT => ⟨0x400050, [], 64⟩
  | .PLE_SEASON_COUNT => ⟨0x400060, [], 128⟩
  | .PLE_PAGE_COUNT => ⟨0x400070, [], 64⟩
  | .PLE_MIG_STAT => ⟨0x400080, [], 256⟩
  | .PLE_QUERY_DPN => ⟨0x400100, [], 32⟩
  | .PLE_QUERY_ENTRY => ⟨0x400108, [], 64⟩
  | .PLE_MID => ⟨0x400180, [(4, 0x8)], 64⟩
  | .PLE_RGN_TB => ⟨0x400200, [(24, 0x8)], 64⟩
  | .CFE_BOOTQ_BASE => ⟨0x10000, [], 64⟩
  | .CFE_BOOTQ_CFG => ⟨0x10008, [], 32⟩
  | .CFE_BOOTQ_CMPL => ⟨0x10010, [], 64⟩
  | .CFE_BOOTQ_CTL => ⟨0x10018, [], 32⟩
  | .CFE_SCHED_CFG => ⟨0x10100, [], 64⟩
  | .CFE_STATUS => ⟨0x10108, [], 64⟩
  | .CFE_Q_CFG => ⟨0x100000, [(4096, 0x100)], 64⟩
  | .CFE_Q_BASE => ⟨0x100008, [(4096, 0x100)], 64⟩
  | .CFE_Q_WPTR => ⟨0x100010, [(4096, 0x100)], 64⟩
  | .CFE_Q_RPTR => ⟨0x100018, [(4096, 0x100)], 64⟩
  | .CFE_Q_STATUS => ⟨0x100020, [(4096, 0x100)], 64⟩
  | .CFE_Q_SEQ => ⟨0x100028, [(4096, 0x100)], 64⟩
  | .CFE_Q_DONE => ⟨0x100030, [(4096, 0x100)], 64⟩
  | .CFE_Q_FAULT_SEQ => ⟨0x100038, [(4096, 0x100)], 64⟩
  | .CFE_Q_FAULT_STEP => ⟨0x100040, [(4096, 0x100)], 32⟩
  | .CFE_Q_MARK => ⟨0x100044, [(4096, 0x100)], 32⟩
  | .CFE_Q_BUDGET => ⟨0x100048, [(4096, 0x100)], 32⟩
  | .CFE_Q_CHAIN => ⟨0x100050, [(4096, 0x100)], 64⟩
  | .CFE_Q_CHAIN_LEFT => ⟨0x100058, [(4096, 0x100)], 32⟩
  | .CFE_Q_DB_STALE => ⟨0x100060, [(4096, 0x100)], 64⟩
  | .CFE_ASC_STATE => ⟨0x200000, [(64, 0x1000)], 32⟩
  | .CFE_ASC_ROOT => ⟨0x200008, [(64, 0x1000)], 64⟩
  | .CFE_ASC_FAULT => ⟨0x200010, [(64, 0x1000)], 64⟩
  | .CFE_FENCE_VALUE => ⟨0x300000, [(4096, 0x100)], 64⟩
  | .CFE_FENCE_FORCE => ⟨0x300008, [(4096, 0x100)], 64⟩
  | .CFE_FENCE_CTL => ⟨0x300010, [(4096, 0x100)], 32⟩
  | .CFE_FENCE_STATUS => ⟨0x300018, [(4096, 0x100)], 64⟩
  | .CFE_FENCE_STALE_COUNT => ⟨0x10200, [], 64⟩
  | .CFE_CAPTURE_STATUS => ⟨0x10208, [], 64⟩
  | .CFE_CAPTURE => ⟨0x20000, [(256, 0x100)], 2048⟩
  | .CFE_Q_CMPL => ⟨0x100068, [(4096, 0x100)], 64⟩
  | .CFE_Q_IRQ => ⟨0x100070, [(4096, 0x100)], 64⟩
  | .CFE_ACCT => ⟨0x2c00000, [(65536, 0x40)], 512⟩
  | .CFG_FENCE => ⟨0x3801010, [], 32⟩
  | .CFG_QUEUE_FAULTS => ⟨0x3801014, [], 32⟩
  | .HIF_PROMPT_ID => ⟨0x0, [], 64⟩
  | .HIF_PROMPT_STATE => ⟨0x8, [], 64⟩
  | .HIF_PROMPT_TIME => ⟨0x10, [], 64⟩
  | .HIF_PROMPT_BEAT => ⟨0x18, [], 64⟩
  | .HIF_PROMPT_FATAL => ⟨0x20, [], 64⟩
  | .HIF_PROMPT_POWER => ⟨0x28, [], 64⟩
  | .HIF_PROMPT_QUEUE => ⟨0x1000, [(4096, 0x4)], 32⟩
  | .HIF_PROMPT_FENCE => ⟨0x8000, [(4096, 0x8)], 64⟩
  | .HIF_LINK_STATUS => ⟨0x3030000, [], 32⟩
  | .HIF_ACCESS_ERR => ⟨0x3030008, [], 64⟩
  | .HIF_HDM_ERR => ⟨0x3030010, [], 64⟩
  | .HIF_HDM_COUNT => ⟨0x3030018, [], 64⟩
  | .HIF_EVENT_CFG => ⟨0x3030020, [], 32⟩
  | .CFG_HOST => ⟨0x3801018, [], 64⟩
  | .CFG_HOST_SUBSYS => ⟨0x3801020, [], 32⟩
  | .FAB_ID => ⟨0x2000000, [], 32⟩
  | .FAB_CFG => ⟨0x2000008, [], 32⟩
  | .FAB_COUNT => ⟨0x2000010, [], 64⟩
  | .FAB_PORT_CFG => ⟨0x2010000, [(12, 0x1000)], 32⟩
  | .FAB_PORT_STATUS => ⟨0x2010008, [(12, 0x1000)], 32⟩
  | .FAB_PORT_ERR => ⟨0x2010010, [(12, 0x1000)], 64⟩
  | .FAB_PORT_MAC => ⟨0x2010018, [(12, 0x1000)], 64⟩
  | .FAB_ROUTE => ⟨0x2100000, [(65536, 0x4)], 32⟩
  | .FAB_NBR => ⟨0x2200000, [(4096, 0x8)], 64⟩
  | .FAB_EXPORT => ⟨0x2300000, [(256, 0x10)], 128⟩
  | .FAB_CGRP => ⟨0x2400000, [(256, 0x400)], 64⟩
  | .FAB_CGRP_MEMBERS => ⟨0x2400010, [(256, 0x400)], 4096⟩
  | .TIM_NOW => ⟨0x2800000, [], 64⟩
  | .TIM_FINE => ⟨0x2800008, [], 64⟩
  | .TIM_STATUS => ⟨0x2800010, [], 64⟩
  | .TIM_GM => ⟨0x2800018, [], 64⟩
  | .TIM_CFG => ⟨0x2800020, [], 64⟩
  | .CFG_MARCH_STATUS => ⟨0x3800000, [], 64⟩
  | .CFG_MARCH_IMAGE => ⟨0x3800008, [], 64⟩
  | .CFG_MARCH_ENTRY => ⟨0x3810000, [(256, 0x20)], 256⟩
  | .CFG_START => ⟨0x3801028, [], 64⟩
  | .CFG_CAL_SEL => ⟨0x3801030, [], 32⟩
  | .CFG_CAL_READ => ⟨0x3801038, [], 64⟩
  | .SEC_MBX_CMD => ⟨0x3c00000, [], 64⟩
  | .SEC_MBX_ARGHI => ⟨0x3c00008, [], 32⟩
  | .SEC_MBX_STATUS => ⟨0x3c00010, [], 64⟩
  | .SEC_MBX_DATA => ⟨0x3c10000, [], 524288⟩
  | .SEC_FW_RUN => ⟨0x3c00100, [], 64⟩
  | .SEC_FW_STATE => ⟨0x3c00108, [], 64⟩
  | .SEC_FW_STAGED => ⟨0x3c00110, [], 64⟩
  | .SEC_FW_ARM => ⟨0x3c00118, [], 64⟩
  | .SEC_RELAY => ⟨0x3c00120, [], 64⟩
  | .SEC_RELAY_ID => ⟨0x3c00128, [], 64⟩
  | .SEC_JAN => ⟨0x3c00200, [], 32⟩
  | .RAS_FATAL => ⟨0x3000000, [], 64⟩
  | .RAS_FATAL_TIME => ⟨0x3000008, [], 64⟩
  | .RAS_PRESET_CTL => ⟨0x3000010, [], 32⟩
  | .RAS_PRESET_STATUS => ⟨0x3000018, [], 64⟩
  | .RAS_DUMP_HOST => ⟨0x3000020, [], 64⟩
  | .RAS_DUMP_HOST_SIZE => ⟨0x3000028, [], 32⟩
  | .RAS_DUMP_STATUS => ⟨0x3000030, [], 32⟩
  | .RAS_DUMP_WIN => ⟨0x3000038, [], 32⟩
  | .RAS_UNIT => ⟨0x3000100, [(52, 0x8)], 64⟩
  | .RAS_RGN_CAUSE => ⟨0x3000400, [(24, 0x4)], 32⟩
  | .PWR_CAP => ⟨0x3400000, [], 32⟩
  | .PWR_STATUS => ⟨0x3400008, [], 64⟩
  | .PWR_THERM_CFG => ⟨0x3400010, [], 32⟩
  | .PWR_ENERGY => ⟨0x3400018, [], 64⟩
  | .PWR_RAIL => ⟨0x3400100, [(56, 0x8)], 64⟩
  | .PWR_TEMP => ⟨0x3400400, [(128, 0x4)], 32⟩

/-- One field: its register, lowest bit, width, access type, reset value. -/
structure FldDesc where
  reg   : Reg
  lsb   : Nat
  width : Nat
  acc   : Acc
  reset : Nat

/-- Every field of the register tables. A field whose reset is the fuse map has the value of a block whose spare was
not used at the factory (R21: spare available, logical cell l is physical cell l), and MAC address 0: DESIGN CHOICE,
log entry 3. -/
def Fld.desc : Fld → FldDesc
  | .REG_STATUS_state => ⟨.REG_STATUS, 0, 4, .RO, 0⟩
  | .REG_STATUS_enabled_blocks => ⟨.REG_STATUS, 8, 4, .RO, 0⟩
  | .REG_STATUS_enabled_cells => ⟨.REG_STATUS, 16, 7, .RO, 0⟩
  | .REG_STATUS_reset_count => ⟨.REG_STATUS, 32, 32, .RO, 0⟩
  | .REG_SPEED_token_rate_mtps => ⟨.REG_SPEED, 0, 16, .RO, 0⟩
  | .REG_SPEED_vcore_mv => ⟨.REG_SPEED, 16, 12, .RO, 0⟩
  | .REG_BLOCK_MAP_cell_enabled => ⟨.REG_BLOCK_MAP, 0, 9, .RO, 0xff⟩
  | .REG_BLOCK_MAP_cell_isolate_pending => ⟨.REG_BLOCK_MAP, 16, 9, .RO, 0⟩
  | .REG_BLOCK_MAP_spare_available => ⟨.REG_BLOCK_MAP, 30, 1, .RO, 1⟩
  | .REG_BLOCK_MAP_block_enabled => ⟨.REG_BLOCK_MAP, 31, 1, .RO, 1⟩
  | .REG_PMC_CTL_enable => ⟨.REG_PMC_CTL, 0, 1, .RW, 0⟩
  | .REG_PMC_CTL_clear => ⟨.REG_PMC_CTL, 1, 1, .WO, 0⟩
  | .REG_PMC_CTL_snapshot => ⟨.REG_PMC_CTL, 2, 1, .WO, 0⟩
  | .REG_PMC_SEL_event => ⟨.REG_PMC_SEL, 0, 8, .RW, 0⟩
  | .REG_PMC_SEL_block => ⟨.REG_PMC_SEL, 8, 4, .RW, 0xf⟩
  | .REG_PMC_VAL_count => ⟨.REG_PMC_VAL, 0, 64, .RO, 0⟩
  | .REG_PMC_SNAP_count => ⟨.REG_PMC_SNAP, 0, 64, .RO, 0⟩
  | .REG_PMC_SNAP_TIME_tai_ns => ⟨.REG_PMC_SNAP_TIME, 0, 64, .RO, 0⟩
  | .REG_PMC_ONLINE_NS_online_ns => ⟨.REG_PMC_ONLINE_NS, 0, 64, .RO, 0⟩
  | .BLK_CELL_MAP_phys_of_logical => ⟨.BLK_CELL_MAP, 0, 32, .RO, 0x76543210⟩
  | .BLK_HALTED_cell_halted => ⟨.BLK_HALTED, 0, 9, .RO, 0⟩
  | .CEL_STATUS_state => ⟨.CEL_STATUS, 0, 2, .RO, 0⟩
  | .CEL_STATUS_resident_groups => ⟨.CEL_STATUS, 2, 5, .RO, 0⟩
  | .CEL_STATUS_tile_mode => ⟨.CEL_STATUS, 7, 1, .RO, 0⟩
  | .CEL_HALT_INFO_reason => ⟨.CEL_HALT_INFO, 0, 8, .RO, 0⟩
  | .CEL_HALT_INFO_group => ⟨.CEL_HALT_INFO, 8, 4, .RO, 0⟩
  | .CEL_HALT_INFO_source => ⟨.CEL_HALT_INFO, 12, 2, .RO, 0⟩
  | .CEL_HALT_INFO_more => ⟨.CEL_HALT_INFO, 14, 1, .RO, 0⟩
  | .CEL_HALT_INFO_valid => ⟨.CEL_HALT_INFO, 15, 1, .RO, 0⟩
  | .CEL_HALT_INFO_mask => ⟨.CEL_HALT_INFO, 16, 32, .RO, 0⟩
  | .CEL_HALT_PC_pc => ⟨.CEL_HALT_PC, 0, 57, .RO, 0⟩
  | .CEL_HALT_ADDR_addr => ⟨.CEL_HALT_ADDR, 0, 57, .RO, 0⟩
  | .CEL_HALT_ADDR_addr_valid => ⟨.CEL_HALT_ADDR, 63, 1, .RO, 0⟩
  | .CEL_HALT_TIME_tai_ns => ⟨.CEL_HALT_TIME, 0, 64, .RO, 0⟩
  | .CEL_STORE_LOST_count => ⟨.CEL_STORE_LOST, 0, 64, .RO, 0⟩
  | .CEL_GRP_PC_pc => ⟨.CEL_GRP_PC, 0, 57, .RO, 0⟩
  | .CEL_GRP_PC_stack_depth => ⟨.CEL_GRP_PC, 57, 5, .RO, 0⟩
  | .CEL_GRP_PC_resident => ⟨.CEL_GRP_PC, 62, 1, .RO, 0⟩
  | .CEL_GRP_MASK_active => ⟨.CEL_GRP_MASK, 0, 32, .RO, 0⟩
  | .CEL_GRP_MASK_exited => ⟨.CEL_GRP_MASK, 32, 32, .RO, 0⟩
  | .CEL_GRP_WAIT_wait => ⟨.CEL_GRP_WAIT, 0, 4, .RO, 0xf⟩
  | .CEL_TS_MPC_mpc => ⟨.CEL_TS_MPC, 0, 57, .RO, 0⟩
  | .CEL_TS_STATE_state => ⟨.CEL_TS_STATE, 0, 3, .RO, 0⟩
  | .CEL_TS_STATE_append_mode => ⟨.CEL_TS_STATE, 3, 1, .RO, 0⟩
  | .CEL_TS_STATE_wait => ⟨.CEL_TS_STATE, 4, 4, .RO, 0⟩
  | .CEL_TS_STATE_in_progress => ⟨.CEL_TS_STATE, 8, 3, .RO, 0⟩
  | .CEL_TS_STATE_append_left => ⟨.CEL_TS_STATE, 11, 4, .RO, 0⟩
  | .CEL_TS_RETIRED_count => ⟨.CEL_TS_RETIRED, 0, 64, .RO, 0⟩
  | .CEL_TS_QUEUES_aq_fill => ⟨.CEL_TS_QUEUES, 0, 20, .RO, 0⟩
  | .CEL_TS_QUEUES_xq_fill => ⟨.CEL_TS_QUEUES, 20, 20, .RO, 0⟩
  | .CEL_TS_APPEND_a_buf => ⟨.CEL_TS_APPEND, 0, 4, .RO, 0⟩
  | .CEL_TS_APPEND_x_buf => ⟨.CEL_TS_APPEND, 4, 4, .RO, 0⟩
  | .CEL_TS_APPEND_a_pending => ⟨.CEL_TS_APPEND, 8, 8, .RO, 0⟩
  | .CEL_TS_APPEND_x_pending => ⟨.CEL_TS_APPEND, 16, 8, .RO, 0⟩
  | .BLK_ABFT_CTL_mode => ⟨.BLK_ABFT_CTL, 0, 2, .RWL, 2⟩
  | .BLK_ABFT_CTL_tol_shift => ⟨.BLK_ABFT_CTL, 4, 2, .RWL, 0⟩
  | .BLK_ABFT_COUNT_detected => ⟨.BLK_ABFT_COUNT, 0, 32, .RO, 0⟩
  | .BLK_ABFT_COUNT_recovered => ⟨.BLK_ABFT_COUNT, 32, 32, .RO, 0⟩
  | .CEL_MX_STATE_acc_type => ⟨.CEL_MX_STATE, 0, 2, .RO, 3⟩
  | .CEL_MX_STATE_busy => ⟨.CEL_MX_STATE, 2, 1, .RO, 0⟩
  | .CEL_MX_STATE_retrying => ⟨.CEL_MX_STATE, 3, 1, .RO, 0⟩
  | .CEL_MX_STATE_slices => ⟨.CEL_MX_STATE, 4, 4, .RO, 0⟩
  | .CEL_MX_STATE_k_acc => ⟨.CEL_MX_STATE, 32, 32, .RO, 0⟩
  | .CEL_ABFT_INFO_index => ⟨.CEL_ABFT_INFO, 0, 7, .RO, 0⟩
  | .CEL_ABFT_INFO_is_col => ⟨.CEL_ABFT_INFO, 7, 1, .RO, 0⟩
  | .CEL_ABFT_INFO_fmt => ⟨.CEL_ABFT_INFO, 8, 4, .RO, 0⟩
  | .CEL_ABFT_INFO_retried => ⟨.CEL_ABFT_INFO, 12, 1, .RO, 0⟩
  | .CEL_ABFT_INFO_retry_blocked => ⟨.CEL_ABFT_INFO, 13, 1, .RO, 0⟩
  | .CEL_ABFT_INFO_isolate_marked => ⟨.CEL_ABFT_INFO, 14, 1, .RO, 0⟩
  | .CEL_ABFT_INFO_valid => ⟨.CEL_ABFT_INFO, 15, 1, .RO, 0⟩
  | .CEL_ABFT_INFO_residual => ⟨.CEL_ABFT_INFO, 32, 32, .RO, 0⟩
  | .CEL_ABFT_RETRIES_count => ⟨.CEL_ABFT_RETRIES, 0, 64, .RO, 0⟩
  | .CEL_LUT_STATE_fwd_type => ⟨.CEL_LUT_STATE, 0, 8, .RO, 0⟩
  | .CEL_LUT_STATE_drv_type => ⟨.CEL_LUT_STATE, 8, 8, .RO, 0⟩
  | .CFG_SYNC_TIMEOUTS_fe_wait_timeout_ms => ⟨.CFG_SYNC_TIMEOUTS, 0, 16, .RWL, 0x7d0⟩
  | .CFG_SYNC_TIMEOUTS_dead_target_timeout_us => ⟨.CFG_SYNC_TIMEOUTS, 16, 14, .RWL, 0x64⟩
  | .CEL_CACHE_MODE_icache_safe => ⟨.CEL_CACHE_MODE, 0, 1, .RO, 1⟩
  | .CEL_CACHE_MODE_l1_safe => ⟨.CEL_CACHE_MODE, 1, 1, .RO, 1⟩
  | .CEL_CACHE_MODE_selftest_failed => ⟨.CEL_CACHE_MODE, 2, 1, .RO, 0⟩
  | .CEL_ECC_COUNT_corrected => ⟨.CEL_ECC_COUNT, 0, 16, .RO, 0⟩
  | .CEL_ECC_COUNT_tag_parity => ⟨.CEL_ECC_COUNT, 16, 16, .RO, 0⟩
  | .CEL_ECC_COUNT_refetched => ⟨.CEL_ECC_COUNT, 32, 16, .RO, 0⟩
  | .CEL_TCHK_COUNT_unchecked => ⟨.CEL_TCHK_COUNT, 0, 32, .RO, 0⟩
  | .CEL_TCHK_COUNT_reread_ok => ⟨.CEL_TCHK_COUNT, 32, 16, .RO, 0⟩
  | .CEL_TCHK_CRC_computed => ⟨.CEL_TCHK_CRC, 0, 32, .RO, 0⟩
  | .CEL_TCHK_CRC_entry_crc => ⟨.CEL_TCHK_CRC, 32, 32, .RO, 0⟩
  | .CEL_TCHK_ENTRY_state => ⟨.CEL_TCHK_ENTRY, 0, 8, .RO, 0⟩
  | .CEL_TCHK_ENTRY_epoch => ⟨.CEL_TCHK_ENTRY, 8, 24, .RO, 0⟩
  | .CEL_TCHK_ENTRY_entries_differed => ⟨.CEL_TCHK_ENTRY, 32, 1, .RO, 0⟩
  | .CEL_TCHK_ENTRY_reread => ⟨.CEL_TCHK_ENTRY, 33, 1, .RO, 0⟩
  | .CEL_TCHK_ENTRY_valid => ⟨.CEL_TCHK_ENTRY, 34, 1, .RO, 0⟩
  | .BLK_L2_STATUS_safe => ⟨.BLK_L2_STATUS, 0, 1, .RO, 1⟩
  | .BLK_L2_STATUS_selftest_failed => ⟨.BLK_L2_STATUS, 1, 1, .RO, 0⟩
  | .BLK_L2_ECC_corrected => ⟨.BLK_L2_ECC, 0, 16, .RO, 0⟩
  | .BLK_L2_ECC_tag_parity => ⟨.BLK_L2_ECC, 16, 16, .RO, 0⟩
  | .BLK_L2_ECC_refetched => ⟨.BLK_L2_ECC, 32, 16, .RO, 0⟩
  | .BLK_L2_ECC_dirty_lost => ⟨.BLK_L2_ECC, 48, 8, .RO, 0⟩
  | .BLK_L2_ERR_ADDR_addr => ⟨.BLK_L2_ERR_ADDR, 0, 52, .RO, 0⟩
  | .BLK_L2_ERR_ADDR_host => ⟨.BLK_L2_ERR_ADDR, 62, 1, .RO, 0⟩
  | .BLK_L2_ERR_ADDR_valid => ⟨.BLK_L2_ERR_ADDR, 63, 1, .RO, 0⟩
  | .RAS_SCD_STATUS_safe => ⟨.RAS_SCD_STATUS, 0, 1, .RO, 1⟩
  | .RAS_SCD_STATUS_selftest_failed => ⟨.RAS_SCD_STATUS, 1, 1, .RO, 0⟩
  | .RAS_SCD_STATUS_scrub_period_h => ⟨.RAS_SCD_STATUS, 16, 8, .RWL, 0x18⟩
  | .RAS_SCD_ECC_corrected => ⟨.RAS_SCD_ECC, 0, 32, .RO, 0⟩
  | .RAS_SCD_ECC_tag_parity => ⟨.RAS_SCD_ECC, 32, 16, .RO, 0⟩
  | .RAS_SCD_ECC_refetched => ⟨.RAS_SCD_ECC, 48, 16, .RO, 0⟩
  | .RAS_SCD_TILES_open_tiles => ⟨.RAS_SCD_TILES, 0, 13, .RO, 0⟩
  | .CFG_TILE_CHECK_unchecked_action => ⟨.CFG_TILE_CHECK, 0, 1, .RWL, 0⟩
  | .MEM_MID_FE_waiters => ⟨.MEM_MID_FE, 0, 15, .RO, 0⟩
  | .MEM_MID_FE_returns => ⟨.MEM_MID_FE, 32, 32, .RO, 0⟩
  | .MEM_SITE_STATUS_state => ⟨.MEM_SITE_STATUS, 0, 3, .RO, 0⟩
  | .MEM_SITE_STATUS_dump_region => ⟨.MEM_SITE_STATUS, 3, 1, .RO, 0⟩
  | .MEM_SITE_STATUS_chan_ok => ⟨.MEM_SITE_STATUS, 4, 4, .RO, 0⟩
  | .MEM_SITE_STATUS_temp_c => ⟨.MEM_SITE_STATUS, 8, 8, .RO, 0⟩
  | .MEM_SITE_STATUS_sync_slots_used => ⟨.MEM_SITE_STATUS, 32, 17, .RO, 0⟩
  | .MEM_SITE_ERR_crc_retries => ⟨.MEM_SITE_ERR, 0, 16, .RO, 0⟩
  | .MEM_SITE_ERR_ecc_corrected => ⟨.MEM_SITE_ERR, 16, 16, .RO, 0⟩
  | .MEM_SITE_ERR_uncorrectable => ⟨.MEM_SITE_ERR, 32, 8, .RO, 0⟩
  | .MEM_SITE_ERR_retrains => ⟨.MEM_SITE_ERR, 40, 8, .RO, 0⟩
  | .MEM_SITE_ERR_ADDR_addr => ⟨.MEM_SITE_ERR_ADDR, 0, 36, .RO, 0⟩
  | .MEM_SITE_ERR_ADDR_crc => ⟨.MEM_SITE_ERR_ADDR, 36, 1, .RO, 0⟩
  | .MEM_SITE_ERR_ADDR_patrol => ⟨.MEM_SITE_ERR_ADDR, 37, 1, .RO, 0⟩
  | .MEM_SITE_ERR_ADDR_valid => ⟨.MEM_SITE_ERR_ADDR, 63, 1, .RO, 0⟩
  | .FTP_STATUS_state => ⟨.FTP_STATUS, 0, 3, .RO, 0⟩
  | .FTP_STATUS_lanes => ⟨.FTP_STATUS, 3, 5, .RO, 0⟩
  | .FTP_STATUS_flit256 => ⟨.FTP_STATUS, 8, 1, .RO, 0⟩
  | .FTP_STATUS_gts => ⟨.FTP_STATUS, 9, 7, .RO, 0⟩
  | .FTP_STATUS_expanders => ⟨.FTP_STATUS, 16, 4, .RO, 0⟩
  | .FTP_STATUS_switch => ⟨.FTP_STATUS, 20, 1, .RO, 0⟩
  | .FTP_STATUS_evac_failed => ⟨.FTP_STATUS, 21, 1, .RO, 0⟩
  | .FTP_STATUS_capacity_gib => ⟨.FTP_STATUS, 32, 13, .RO, 0⟩
  | .FTP_CTL_offline_req => ⟨.FTP_CTL, 0, 1, .RWL, 0⟩
  | .FTP_CTL_online_req => ⟨.FTP_CTL, 1, 1, .RWL, 0⟩
  | .FTP_ERR_poison => ⟨.FTP_ERR, 0, 16, .RO, 0⟩
  | .FTP_ERR_timeouts => ⟨.FTP_ERR, 16, 16, .RO, 0⟩
  | .FTP_ERR_failures => ⟨.FTP_ERR, 32, 8, .RO, 0⟩
  | .FTP_ERR_dirty_lost => ⟨.FTP_ERR, 40, 24, .RO, 0⟩
  | .FTP_DIE_FE_waiters => ⟨.FTP_DIE_FE, 0, 13, .RO, 0⟩
  | .FTP_DIE_FE_returns => ⟨.FTP_DIE_FE, 32, 32, .RO, 0⟩
  | .FTP_EXP_present => ⟨.FTP_EXP, 0, 1, .RO, 0⟩
  | .FTP_EXP_behind_switch => ⟨.FTP_EXP, 1, 1, .RO, 0⟩
  | .FTP_EXP_mld => ⟨.FTP_EXP, 2, 1, .RO, 0⟩
  | .FTP_EXP_base_256m => ⟨.FTP_EXP, 16, 14, .RO, 0⟩
  | .FTP_EXP_size_256m => ⟨.FTP_EXP, 32, 15, .RO, 0⟩
  | .CFG_MEMORY_patrol_period_h => ⟨.CFG_MEMORY, 0, 8, .RWL, 0x18⟩
  | .CFG_MEMORY_crc_retry_limit => ⟨.CFG_MEMORY, 8, 4, .RWL, 4⟩
  | .CFG_MEMORY_refresh_hot_c => ⟨.CFG_MEMORY, 16, 8, .RWL, 0x55⟩
  | .CFG_FAR_TIER_completion_timeout_ms => ⟨.CFG_FAR_TIER, 0, 8, .RWL, 0xa⟩
  | .CFG_FAR_TIER_hot_add => ⟨.CFG_FAR_TIER, 8, 1, .RWL, 1⟩
  | .PLE_CTL_migrate_en => ⟨.PLE_CTL, 0, 1, .RWL, 1⟩
  | .PLE_CTL_mig_cap_gbps => ⟨.PLE_CTL, 8, 8, .RWL, 0x28⟩
  | .PLE_CTL_epoch_ms => ⟨.PLE_CTL, 16, 12, .RWL, 0xfa⟩
  | .PLE_CTL_sample_shift => ⟨.PLE_CTL, 28, 4, .RWL, 4⟩
  | .PLE_SEASON_warm_thr => ⟨.PLE_SEASON, 0, 8, .RWL, 0x30⟩
  | .PLE_SEASON_cool_thr => ⟨.PLE_SEASON, 8, 8, .RWL, 0xc⟩
  | .PLE_SEASON_min_dwell => ⟨.PLE_SEASON, 16, 4, .RWL, 2⟩
  | .PLE_SEASON_decay_shift => ⟨.PLE_SEASON, 20, 3, .RWL, 1⟩
  | .PLE_WATER_low_water_pm => ⟨.PLE_WATER, 0, 10, .RWL, 0xa⟩
  | .PLE_WATER_high_water_pm => ⟨.PLE_WATER, 16, 10, .RWL, 0x1e⟩
  | .PLE_WP_aff_weight => ⟨.PLE_WP, 0, 4, .RWL, 4⟩
  | .PLE_CAP_CLOSE_allocatable => ⟨.PLE_CAP_CLOSE, 0, 32, .RO, 0⟩
  | .PLE_CAP_CLOSE_free => ⟨.PLE_CAP_CLOSE, 32, 32, .RO, 0⟩
  | .PLE_CAP_FAR_allocatable => ⟨.PLE_CAP_FAR, 0, 32, .RO, 0⟩
  | .PLE_CAP_FAR_free => ⟨.PLE_CAP_FAR, 32, 32, .RO, 0⟩
  | .PLE_CAP_COMMIT_committed => ⟨.PLE_CAP_COMMIT, 0, 32, .RO, 0⟩
  | .PLE_CAP_COMMIT_headroom_free => ⟨.PLE_CAP_COMMIT, 32, 32, .RO, 0⟩
  | .PLE_SEASON_COUNT_spring => ⟨.PLE_SEASON_COUNT, 0, 32, .RO, 0⟩
  | .PLE_SEASON_COUNT_summer => ⟨.PLE_SEASON_COUNT, 32, 32, .RO, 0⟩
  | .PLE_SEASON_COUNT_autumn => ⟨.PLE_SEASON_COUNT, 64, 32, .RO, 0⟩
  | .PLE_SEASON_COUNT_winter => ⟨.PLE_SEASON_COUNT, 96, 32, .RO, 0⟩
  | .PLE_PAGE_COUNT_zero => ⟨.PLE_PAGE_COUNT, 0, 32, .RO, 0⟩
  | .PLE_PAGE_COUNT_lost => ⟨.PLE_PAGE_COUNT, 32, 32, .RO, 0⟩
  | .PLE_MIG_STAT_promotions => ⟨.PLE_MIG_STAT, 0, 64, .RO, 0⟩
  | .PLE_MIG_STAT_demotions => ⟨.PLE_MIG_STAT, 64, 64, .RO, 0⟩
  | .PLE_MIG_STAT_abandoned => ⟨.PLE_MIG_STAT, 128, 32, .RO, 0⟩
  | .PLE_MIG_STAT_hold_max_ns => ⟨.PLE_MIG_STAT, 160, 32, .RO, 0⟩
  | .PLE_MIG_STAT_bytes => ⟨.PLE_MIG_STAT, 192, 64, .RO, 0⟩
  | .PLE_QUERY_DPN_dpn => ⟨.PLE_QUERY_DPN, 0, 28, .RW, 0⟩
  | .PLE_QUERY_ENTRY_entry => ⟨.PLE_QUERY_ENTRY, 0, 64, .RO, 0⟩
  | .PLE_MID_mirrored => ⟨.PLE_MID, 0, 1, .RO, 0⟩
  | .PLE_MID_migrating => ⟨.PLE_MID, 1, 5, .RO, 0⟩
  | .PLE_MID_lcache_miss => ⟨.PLE_MID, 32, 32, .RO, 0⟩
  | .PLE_RGN_TB_placed => ⟨.PLE_RGN_TB, 0, 64, .RO, 0⟩
  | .CFE_BOOTQ_BASE_base => ⟨.CFE_BOOTQ_BASE, 0, 52, .RW, 0⟩
  | .CFE_BOOTQ_CFG_size_log2 => ⟨.CFE_BOOTQ_CFG, 0, 5, .RW, 6⟩
  | .CFE_BOOTQ_CFG_ring_host => ⟨.CFE_BOOTQ_CFG, 5, 1, .RW, 1⟩
  | .CFE_BOOTQ_CFG_vector => ⟨.CFE_BOOTQ_CFG, 16, 11, .RW, 0⟩
  | .CFE_BOOTQ_CFG_vector_en => ⟨.CFE_BOOTQ_CFG, 27, 1, .RW, 0⟩
  | .CFE_BOOTQ_CMPL_cmpl_base => ⟨.CFE_BOOTQ_CMPL, 0, 52, .RW, 0⟩
  | .CFE_BOOTQ_CMPL_cmpl_host => ⟨.CFE_BOOTQ_CMPL, 63, 1, .RW, 1⟩
  | .CFE_BOOTQ_CTL_enable => ⟨.CFE_BOOTQ_CTL, 0, 1, .WO, 0⟩
  | .CFE_BOOTQ_CTL_resume => ⟨.CFE_BOOTQ_CTL, 1, 1, .WO, 0⟩
  | .CFE_BOOTQ_CTL_retry => ⟨.CFE_BOOTQ_CTL, 2, 1, .WO, 0⟩
  | .CFE_BOOTQ_CTL_reset => ⟨.CFE_BOOTQ_CTL, 3, 1, .WO, 0⟩
  | .CFE_SCHED_CFG_age_us => ⟨.CFE_SCHED_CFG, 0, 16, .RWL, 0x3e8⟩
  | .CFE_SCHED_CFG_budget_default_ms => ⟨.CFE_SCHED_CFG, 32, 32, .RWL, 0xea60⟩
  | .CFE_STATUS_active_queues => ⟨.CFE_STATUS, 0, 13, .RO, 0⟩
  | .CFE_STATUS_pool_used => ⟨.CFE_STATUS, 16, 17, .RO, 0⟩
  | .CFE_STATUS_kernels => ⟨.CFE_STATUS, 33, 7, .RO, 0⟩
  | .CFE_Q_CFG_kernel => ⟨.CFE_Q_CFG, 0, 1, .RO, 0⟩
  | .CFE_Q_CFG_ring_host => ⟨.CFE_Q_CFG, 1, 1, .RO, 0⟩
  | .CFE_Q_CFG_size_log2 => ⟨.CFE_Q_CFG, 2, 5, .RO, 0⟩
  | .CFE_Q_CFG_asc => ⟨.CFE_Q_CFG, 8, 6, .RO, 0⟩
  | .CFE_Q_CFG_prio => ⟨.CFE_Q_CFG, 16, 3, .RO, 0⟩
  | .CFE_Q_CFG_acct => ⟨.CFE_Q_CFG, 32, 16, .RO, 0⟩
  | .CFE_Q_BASE_base => ⟨.CFE_Q_BASE, 0, 52, .RO, 0⟩
  | .CFE_Q_WPTR_wptr => ⟨.CFE_Q_WPTR, 0, 64, .RO, 0⟩
  | .CFE_Q_RPTR_rptr => ⟨.CFE_Q_RPTR, 0, 64, .RO, 0⟩
  | .CFE_Q_STATUS_state => ⟨.CFE_Q_STATUS, 0, 3, .RO, 0⟩
  | .CFE_Q_STATUS_doorbell_latch => ⟨.CFE_Q_STATUS, 3, 1, .RO, 0⟩
  | .CFE_Q_STATUS_idle => ⟨.CFE_Q_STATUS, 4, 1, .RO, 0⟩
  | .CFE_Q_STATUS_in_chain => ⟨.CFE_Q_STATUS, 5, 1, .RO, 0⟩
  | .CFE_Q_STATUS_outstanding => ⟨.CFE_Q_STATUS, 16, 11, .RO, 0⟩
  | .CFE_Q_STATUS_fault_code => ⟨.CFE_Q_STATUS, 32, 16, .RO, 0⟩
  | .CFE_Q_SEQ_fetched_seq => ⟨.CFE_Q_SEQ, 0, 64, .RO, 0⟩
  | .CFE_Q_DONE_done_seq => ⟨.CFE_Q_DONE, 0, 64, .RO, 0⟩
  | .CFE_Q_FAULT_SEQ_seq => ⟨.CFE_Q_FAULT_SEQ, 0, 64, .RO, 0⟩
  | .CFE_Q_FAULT_STEP_step => ⟨.CFE_Q_FAULT_STEP, 0, 16, .RO, 0⟩
  | .CFE_Q_FAULT_STEP_none => ⟨.CFE_Q_FAULT_STEP, 31, 1, .RO, 0⟩
  | .CFE_Q_MARK_mark => ⟨.CFE_Q_MARK, 0, 32, .RO, 0⟩
  | .CFE_Q_BUDGET_budget_ms => ⟨.CFE_Q_BUDGET, 0, 32, .RO, 0⟩
  | .CFE_Q_CHAIN_next => ⟨.CFE_Q_CHAIN, 0, 57, .RO, 0⟩
  | .CFE_Q_CHAIN_LEFT_left => ⟨.CFE_Q_CHAIN_LEFT, 0, 21, .RO, 0⟩
  | .CFE_Q_DB_STALE_db_stale => ⟨.CFE_Q_DB_STALE, 0, 64, .RO, 0⟩
  | .CFE_ASC_STATE_state => ⟨.CFE_ASC_STATE, 0, 2, .RO, 0⟩
  | .CFE_ASC_STATE_root_valid => ⟨.CFE_ASC_STATE, 2, 1, .RO, 0⟩
  | .CFE_ASC_STATE_queues => ⟨.CFE_ASC_STATE, 16, 13, .RO, 0⟩
  | .CFE_ASC_ROOT_root => ⟨.CFE_ASC_ROOT, 0, 44, .RO, 0⟩
  | .CFE_ASC_FAULT_first_code => ⟨.CFE_ASC_FAULT, 0, 16, .RO, 0⟩
  | .CFE_ASC_FAULT_first_queue => ⟨.CFE_ASC_FAULT, 16, 12, .RO, 0⟩
  | .CFE_ASC_FAULT_count => ⟨.CFE_ASC_FAULT, 32, 31, .RO, 0⟩
  | .CFE_ASC_FAULT_valid => ⟨.CFE_ASC_FAULT, 63, 1, .RO, 0⟩
  | .CFE_FENCE_VALUE_value => ⟨.CFE_FENCE_VALUE, 0, 64, .RO, 0⟩
  | .CFE_FENCE_FORCE_value => ⟨.CFE_FENCE_FORCE, 0, 64, .RWL, 0⟩
  | .CFE_FENCE_CTL_owner => ⟨.CFE_FENCE_CTL, 0, 6, .RWL, 0⟩
  | .CFE_FENCE_CTL_open => ⟨.CFE_FENCE_CTL, 6, 1, .RWL, 0⟩
  | .CFE_FENCE_CTL_remote_ok => ⟨.CFE_FENCE_CTL, 7, 1, .RWL, 0⟩
  | .CFE_FENCE_STATUS_waiters => ⟨.CFE_FENCE_STATUS, 0, 17, .RO, 0⟩
  | .CFE_FENCE_STATUS_stale => ⟨.CFE_FENCE_STATUS, 32, 32, .RO, 0⟩
  | .CFE_FENCE_STALE_COUNT_count => ⟨.CFE_FENCE_STALE_COUNT, 0, 64, .RO, 0⟩
  | .CFE_CAPTURE_STATUS_next => ⟨.CFE_CAPTURE_STATUS, 0, 8, .RO, 0⟩
  | .CFE_CAPTURE_STATUS_count => ⟨.CFE_CAPTURE_STATUS, 32, 32, .RO, 0⟩
  | .CFE_CAPTURE_capture => ⟨.CFE_CAPTURE, 0, 2048, .RO, 0⟩
  | .CFE_Q_CMPL_cmpl_base => ⟨.CFE_Q_CMPL, 0, 52, .RO, 0⟩
  | .CFE_Q_CMPL_cmpl_host => ⟨.CFE_Q_CMPL, 63, 1, .RO, 0⟩
  | .CFE_Q_IRQ_vector => ⟨.CFE_Q_IRQ, 0, 11, .RO, 0⟩
  | .CFE_Q_IRQ_vector_en => ⟨.CFE_Q_IRQ, 11, 1, .RO, 0⟩
  | .CFE_Q_IRQ_records_lost => ⟨.CFE_Q_IRQ, 32, 32, .RO, 0⟩
  | .CFE_ACCT_cell_ns => ⟨.CFE_ACCT, 0, 64, .RO, 0⟩
  | .CFE_ACCT_matrix_tokens => ⟨.CFE_ACCT, 64, 64, .RO, 0⟩
  | .CFE_ACCT_vector_ops => ⟨.CFE_ACCT, 128, 64, .RO, 0⟩
  | .CFE_ACCT_close_bytes => ⟨.CFE_ACCT, 192, 64, .RO, 0⟩
  | .CFE_ACCT_far_bytes => ⟨.CFE_ACCT, 256, 64, .RO, 0⟩
  | .CFE_ACCT_fabric_bytes => ⟨.CFE_ACCT, 320, 64, .RO, 0⟩
  | .CFE_ACCT_energy_mj => ⟨.CFE_ACCT, 384, 64, .RO, 0⟩
  | .CFE_ACCT_kernels => ⟨.CFE_ACCT, 448, 64, .RO, 0⟩
  | .CFG_FENCE_fence_wait_timeout_ms => ⟨.CFG_FENCE, 0, 32, .RWL, 0x2710⟩
  | .CFG_QUEUE_FAULTS_store_lost_stops => ⟨.CFG_QUEUE_FAULTS, 0, 1, .RWL, 0⟩
  | .HIF_PROMPT_ID_vendor => ⟨.HIF_PROMPT_ID, 0, 16, .RO, 0x1dae⟩
  | .HIF_PROMPT_ID_device => ⟨.HIF_PROMPT_ID, 16, 16, .RO, 0x4812⟩
  | .HIF_PROMPT_ID_revision => ⟨.HIF_PROMPT_ID, 32, 8, .RO, 0xa1⟩
  | .HIF_PROMPT_ID_layout => ⟨.HIF_PROMPT_ID, 40, 8, .RO, 1⟩
  | .HIF_PROMPT_STATE_boot_state => ⟨.HIF_PROMPT_STATE, 0, 4, .RO, 0⟩
  | .HIF_PROMPT_STATE_ready => ⟨.HIF_PROMPT_STATE, 4, 1, .RO, 0⟩
  | .HIF_PROMPT_STATE_fatal => ⟨.HIF_PROMPT_STATE, 5, 1, .RO, 0⟩
  | .HIF_PROMPT_STATE_dump_valid => ⟨.HIF_PROMPT_STATE, 6, 1, .RO, 0⟩
  | .HIF_PROMPT_STATE_time_locked => ⟨.HIF_PROMPT_STATE, 7, 1, .RO, 0⟩
  | .HIF_PROMPT_STATE_march_entries => ⟨.HIF_PROMPT_STATE, 16, 16, .RO, 0⟩
  | .HIF_PROMPT_STATE_regions_online => ⟨.HIF_PROMPT_STATE, 32, 5, .RO, 0⟩
  | .HIF_PROMPT_STATE_sites_online => ⟨.HIF_PROMPT_STATE, 37, 4, .RO, 0⟩
  | .HIF_PROMPT_STATE_far_ports_online => ⟨.HIF_PROMPT_STATE, 41, 3, .RO, 0⟩
  | .HIF_PROMPT_STATE_fabric_ports_up => ⟨.HIF_PROMPT_STATE, 44, 4, .RO, 0⟩
  | .HIF_PROMPT_TIME_tai_ns => ⟨.HIF_PROMPT_TIME, 0, 64, .RO, 0⟩
  | .HIF_PROMPT_BEAT_beat => ⟨.HIF_PROMPT_BEAT, 0, 64, .RO, 0⟩
  | .HIF_PROMPT_FATAL_fatal_code => ⟨.HIF_PROMPT_FATAL, 0, 16, .RO, 0⟩
  | .HIF_PROMPT_FATAL_fatal_ns => ⟨.HIF_PROMPT_FATAL, 16, 48, .RO, 0⟩
  | .HIF_PROMPT_POWER_cap_w => ⟨.HIF_PROMPT_POWER, 0, 16, .RO, 0⟩
  | .HIF_PROMPT_POWER_power_w => ⟨.HIF_PROMPT_POWER, 16, 16, .RO, 0⟩
  | .HIF_PROMPT_POWER_tj_max_c => ⟨.HIF_PROMPT_POWER, 32, 8, .RO, 0⟩
  | .HIF_PROMPT_QUEUE_state => ⟨.HIF_PROMPT_QUEUE, 0, 3, .RO, 0⟩
  | .HIF_PROMPT_QUEUE_fault_code => ⟨.HIF_PROMPT_QUEUE, 16, 16, .RO, 0⟩
  | .HIF_PROMPT_FENCE_value => ⟨.HIF_PROMPT_FENCE, 0, 64, .RO, 0⟩
  | .HIF_LINK_STATUS_mode => ⟨.HIF_LINK_STATUS, 0, 2, .RO, 0⟩
  | .HIF_LINK_STATUS_lanes => ⟨.HIF_LINK_STATUS, 2, 5, .RO, 0⟩
  | .HIF_LINK_STATUS_degraded => ⟨.HIF_LINK_STATUS, 7, 1, .RO, 0⟩
  | .HIF_LINK_STATUS_cache_en => ⟨.HIF_LINK_STATUS, 8, 1, .RO, 0⟩
  | .HIF_LINK_STATUS_mem_en => ⟨.HIF_LINK_STATUS, 9, 1, .RO, 0⟩
  | .HIF_ACCESS_ERR_offset => ⟨.HIF_ACCESS_ERR, 0, 26, .RO, 0⟩
  | .HIF_ACCESS_ERR_bar => ⟨.HIF_ACCESS_ERR, 26, 2, .RO, 0⟩
  | .HIF_ACCESS_ERR_write => ⟨.HIF_ACCESS_ERR, 28, 1, .RO, 0⟩
  | .HIF_ACCESS_ERR_count => ⟨.HIF_ACCESS_ERR, 32, 32, .RO, 0⟩
  | .HIF_HDM_ERR_hpa => ⟨.HIF_HDM_ERR, 0, 52, .RO, 0⟩
  | .HIF_HDM_ERR_write => ⟨.HIF_HDM_ERR, 52, 1, .RO, 0⟩
  | .HIF_HDM_ERR_lost => ⟨.HIF_HDM_ERR, 53, 1, .RO, 0⟩
  | .HIF_HDM_ERR_valid => ⟨.HIF_HDM_ERR, 63, 1, .RO, 0⟩
  | .HIF_HDM_COUNT_unmapped => ⟨.HIF_HDM_COUNT, 0, 32, .RO, 0⟩
  | .HIF_HDM_COUNT_errors => ⟨.HIF_HDM_COUNT, 32, 32, .RO, 0⟩
  | .HIF_EVENT_CFG_event_vector => ⟨.HIF_EVENT_CFG, 0, 11, .RW, 0⟩
  | .HIF_EVENT_CFG_event_en => ⟨.HIF_EVENT_CFG, 11, 1, .RW, 0⟩
  | .CFG_HOST_hdm_size_gib => ⟨.CFG_HOST, 0, 11, .RWL, 0x400⟩
  | .CFG_HOST_hdm_dpn_base => ⟨.CFG_HOST, 32, 28, .RWL, 0⟩
  | .CFG_HOST_SUBSYS_subsys_vendor => ⟨.CFG_HOST_SUBSYS, 0, 16, .RWL, 0x1dae⟩
  | .CFG_HOST_SUBSYS_subsys_id => ⟨.CFG_HOST_SUBSYS, 16, 16, .RWL, 0x4812⟩
  | .FAB_ID_dev_id => ⟨.FAB_ID, 0, 16, .RWL, 0⟩
  | .FAB_CFG_hop_limit => ⟨.FAB_CFG, 0, 4, .RWL, 0xf⟩
  | .FAB_CFG_rtt_budget_us => ⟨.FAB_CFG, 8, 8, .RWL, 0x14⟩
  | .FAB_CFG_ethertype => ⟨.FAB_CFG, 16, 16, .RWL, 0x88b5⟩
  | .FAB_COUNT_hop_drops => ⟨.FAB_COUNT, 0, 32, .RO, 0⟩
  | .FAB_COUNT_no_route => ⟨.FAB_COUNT, 32, 16, .RO, 0⟩
  | .FAB_COUNT_denied => ⟨.FAB_COUNT, 48, 16, .RO, 0⟩
  | .FAB_PORT_CFG_mode => ⟨.FAB_PORT_CFG, 0, 2, .RWL, 0⟩
  | .FAB_PORT_CFG_width => ⟨.FAB_PORT_CFG, 2, 2, .RWL, 0⟩
  | .FAB_PORT_CFG_ptp_en => ⟨.FAB_PORT_CFG, 4, 1, .RWL, 0⟩
  | .FAB_PORT_CFG_pfc_en => ⟨.FAB_PORT_CFG, 5, 1, .RWL, 0⟩
  | .FAB_PORT_CFG_pfc_prio => ⟨.FAB_PORT_CFG, 6, 3, .RWL, 0⟩
  | .FAB_PORT_CFG_jumbo => ⟨.FAB_PORT_CFG, 9, 1, .RWL, 1⟩
  | .FAB_PORT_CFG_rto_us => ⟨.FAB_PORT_CFG, 10, 6, .RWL, 0x14⟩
  | .FAB_PORT_CFG_asym_ns => ⟨.FAB_PORT_CFG, 16, 16, .RWL, 0⟩
  | .FAB_PORT_STATUS_state => ⟨.FAB_PORT_STATUS, 0, 3, .RO, 0⟩
  | .FAB_PORT_STATUS_lanes_up => ⟨.FAB_PORT_STATUS, 3, 8, .RO, 0⟩
  | .FAB_PORT_ERR_replays => ⟨.FAB_PORT_ERR, 0, 16, .RO, 0⟩
  | .FAB_PORT_ERR_crc_errors => ⟨.FAB_PORT_ERR, 16, 16, .RO, 0⟩
  | .FAB_PORT_ERR_dropped => ⟨.FAB_PORT_ERR, 32, 16, .RO, 0⟩
  | .FAB_PORT_ERR_retrains => ⟨.FAB_PORT_ERR, 48, 16, .RO, 0⟩
  | .FAB_PORT_MAC_mac => ⟨.FAB_PORT_MAC, 0, 48, .RWL, 0⟩
  | .FAB_ROUTE_port => ⟨.FAB_ROUTE, 0, 4, .RWL, 0⟩
  | .FAB_ROUTE_valid => ⟨.FAB_ROUTE, 4, 1, .RWL, 0⟩
  | .FAB_ROUTE_over_budget => ⟨.FAB_ROUTE, 5, 1, .RO, 0⟩
  | .FAB_ROUTE_alt_port => ⟨.FAB_ROUTE, 6, 4, .RWL, 0⟩
  | .FAB_ROUTE_alt_valid => ⟨.FAB_ROUTE, 10, 1, .RWL, 0⟩
  | .FAB_ROUTE_nbr => ⟨.FAB_ROUTE, 12, 12, .RWL, 0⟩
  | .FAB_ROUTE_rtt_100ns => ⟨.FAB_ROUTE, 24, 8, .RO, 0⟩
  | .FAB_NBR_mac => ⟨.FAB_NBR, 0, 48, .RWL, 0⟩
  | .FAB_NBR_vlan => ⟨.FAB_NBR, 48, 12, .RWL, 0⟩
  | .FAB_NBR_vlan_en => ⟨.FAB_NBR, 60, 1, .RWL, 0⟩
  | .FAB_NBR_pcp => ⟨.FAB_NBR, 61, 3, .RWL, 0⟩
  | .FAB_EXPORT_dpn_base => ⟨.FAB_EXPORT, 0, 28, .RWL, 0⟩
  | .FAB_EXPORT_count => ⟨.FAB_EXPORT, 32, 29, .RWL, 0⟩
  | .FAB_EXPORT_w => ⟨.FAB_EXPORT, 61, 1, .RWL, 0⟩
  | .FAB_EXPORT_amo => ⟨.FAB_EXPORT, 62, 1, .RWL, 0⟩
  | .FAB_EXPORT_valid => ⟨.FAB_EXPORT, 63, 1, .RWL, 0⟩
  | .FAB_EXPORT_src_id => ⟨.FAB_EXPORT, 64, 16, .RWL, 0⟩
  | .FAB_CGRP_n => ⟨.FAB_CGRP, 0, 9, .RWL, 0⟩
  | .FAB_CGRP_rank => ⟨.FAB_CGRP, 16, 8, .RWL, 0⟩
  | .FAB_CGRP_MEMBERS_member => ⟨.FAB_CGRP_MEMBERS, 0, 4096, .RWL, 0⟩
  | .TIM_NOW_tai_ns => ⟨.TIM_NOW, 0, 64, .RO, 0⟩
  | .TIM_FINE_frac => ⟨.TIM_FINE, 0, 16, .RO, 0⟩
  | .TIM_FINE_ns_low => ⟨.TIM_FINE, 16, 48, .RO, 0⟩
  | .TIM_STATUS_state => ⟨.TIM_STATUS, 0, 2, .RO, 0⟩
  | .TIM_STATUS_port => ⟨.TIM_STATUS, 2, 4, .RO, 0⟩
  | .TIM_STATUS_stepped => ⟨.TIM_STATUS, 6, 1, .RO, 0⟩
  | .TIM_STATUS_offset_ns => ⟨.TIM_STATUS, 32, 32, .RO, 0⟩
  | .TIM_GM_clock_id => ⟨.TIM_GM, 0, 64, .RO, 0⟩
  | .TIM_CFG_domain => ⟨.TIM_CFG, 0, 8, .RWL, 0⟩
  | .TIM_CFG_transport => ⟨.TIM_CFG, 8, 2, .RWL, 2⟩
  | .TIM_CFG_lock_thr_ns => ⟨.TIM_CFG, 10, 10, .RWL, 0x64⟩
  | .TIM_CFG_max_slew_ppm => ⟨.TIM_CFG, 20, 8, .RWL, 0x64⟩
  | .CFG_MARCH_STATUS_entries => ⟨.CFG_MARCH_STATUS, 0, 16, .RO, 0⟩
  | .CFG_MARCH_STATUS_image_used => ⟨.CFG_MARCH_STATUS, 16, 1, .RO, 0⟩
  | .CFG_MARCH_STATUS_log_failed => ⟨.CFG_MARCH_STATUS, 17, 1, .RO, 0⟩
  | .CFG_MARCH_STATUS_done => ⟨.CFG_MARCH_STATUS, 18, 1, .RO, 0⟩
  | .CFG_MARCH_STATUS_records_read => ⟨.CFG_MARCH_STATUS, 32, 16, .RO, 0⟩
  | .CFG_MARCH_STATUS_records_ignored => ⟨.CFG_MARCH_STATUS, 48, 16, .RO, 0⟩
  | .CFG_MARCH_IMAGE_image_seq => ⟨.CFG_MARCH_IMAGE, 0, 64, .RO, 0⟩
  | .CFG_MARCH_ENTRY_entry => ⟨.CFG_MARCH_ENTRY, 0, 256, .RO, 0⟩
  | .CFG_START_far_port_en => ⟨.CFG_START, 0, 4, .RWL, 0xf⟩
  | .CFG_START_fabric_wait_ms => ⟨.CFG_START, 16, 16, .RWL, 0x1f4⟩
  | .CFG_START_watchdog_ms => ⟨.CFG_START, 32, 32, .RWL, 0x3e8⟩
  | .CFG_CAL_SEL_fid => ⟨.CFG_CAL_SEL, 0, 8, .RW, 0⟩
  | .CFG_CAL_SEL_idx => ⟨.CFG_CAL_SEL, 16, 16, .RW, 0⟩
  | .CFG_CAL_READ_factory => ⟨.CFG_CAL_READ, 0, 32, .RO, 0⟩
  | .CFG_CAL_READ_applied => ⟨.CFG_CAL_READ, 32, 32, .RO, 0⟩
  | .SEC_MBX_CMD_cmd => ⟨.SEC_MBX_CMD, 0, 8, .RW, 0⟩
  | .SEC_MBX_CMD_go => ⟨.SEC_MBX_CMD, 8, 1, .W1S, 0⟩
  | .SEC_MBX_CMD_arg => ⟨.SEC_MBX_CMD, 32, 32, .RW, 0⟩
  | .SEC_MBX_ARGHI_arg32 => ⟨.SEC_MBX_ARGHI, 0, 1, .RW, 0⟩
  | .SEC_MBX_STATUS_state => ⟨.SEC_MBX_STATUS, 0, 2, .RO, 0⟩
  | .SEC_MBX_STATUS_result => ⟨.SEC_MBX_STATUS, 8, 8, .RO, 0⟩
  | .SEC_MBX_STATUS_bytes => ⟨.SEC_MBX_STATUS, 32, 32, .RO, 0⟩
  | .SEC_MBX_DATA_data => ⟨.SEC_MBX_DATA, 0, 524288, .RW, 0⟩
  | .SEC_FW_RUN_version => ⟨.SEC_FW_RUN, 0, 64, .RO, 0⟩
  | .SEC_FW_STATE_running_slot => ⟨.SEC_FW_STATE, 0, 2, .RO, 0⟩
  | .SEC_FW_STATE_stage_state => ⟨.SEC_FW_STATE, 2, 3, .RO, 0⟩
  | .SEC_FW_STATE_last_result => ⟨.SEC_FW_STATE, 5, 2, .RO, 0⟩
  | .SEC_FW_STATE_fallback => ⟨.SEC_FW_STATE, 7, 1, .RO, 0⟩
  | .SEC_FW_STATE_svn_fuse => ⟨.SEC_FW_STATE, 8, 8, .RO, 0⟩
  | .SEC_FW_STATE_revoked => ⟨.SEC_FW_STATE, 16, 16, .RO, 0⟩
  | .SEC_FW_STATE_debug_unlocked => ⟨.SEC_FW_STATE, 32, 1, .RO, 0⟩
  | .SEC_FW_STATE_january_next => ⟨.SEC_FW_STATE, 33, 1, .RO, 0⟩
  | .SEC_FW_STAGED_version => ⟨.SEC_FW_STAGED, 0, 64, .RO, 0⟩
  | .SEC_FW_ARM_at_ns => ⟨.SEC_FW_ARM, 0, 64, .RO, 0⟩
  | .SEC_RELAY_relay_accept => ⟨.SEC_RELAY, 0, 1, .RWL, 1⟩
  | .SEC_RELAY_relay_skipped => ⟨.SEC_RELAY, 8, 8, .RO, 0⟩
  | .SEC_RELAY_relay_busy => ⟨.SEC_RELAY, 16, 16, .RO, 0⟩
  | .SEC_RELAY_relays_staged => ⟨.SEC_RELAY, 32, 32, .RO, 0⟩
  | .SEC_RELAY_ID_relay_id => ⟨.SEC_RELAY_ID, 0, 64, .RO, 0⟩
  | .SEC_JAN_cause => ⟨.SEC_JAN, 0, 4, .RO, 0⟩
  | .SEC_JAN_path => ⟨.SEC_JAN, 4, 2, .RO, 0⟩
  | .SEC_JAN_set_ready => ⟨.SEC_JAN, 6, 1, .RO, 0⟩
  | .RAS_FATAL_fatal_code => ⟨.RAS_FATAL, 0, 16, .RO, 0⟩
  | .RAS_FATAL_die => ⟨.RAS_FATAL, 16, 6, .RO, 0⟩
  | .RAS_FATAL_valid => ⟨.RAS_FATAL, 22, 1, .RO, 0⟩
  | .RAS_FATAL_TIME_tai_ns => ⟨.RAS_FATAL_TIME, 0, 64, .RO, 0⟩
  | .RAS_PRESET_CTL_kind => ⟨.RAS_PRESET_CTL, 0, 2, .RWL, 0⟩
  | .RAS_PRESET_CTL_index => ⟨.RAS_PRESET_CTL, 4, 4, .RWL, 0⟩
  | .RAS_PRESET_CTL_action => ⟨.RAS_PRESET_CTL, 8, 3, .RWL, 0⟩
  | .RAS_PRESET_CTL_go => ⟨.RAS_PRESET_CTL, 31, 1, .RWL, 0⟩
  | .RAS_PRESET_STATUS_busy => ⟨.RAS_PRESET_STATUS, 0, 1, .RO, 0⟩
  | .RAS_PRESET_STATUS_evac_failed => ⟨.RAS_PRESET_STATUS, 1, 1, .RO, 0⟩
  | .RAS_PRESET_STATUS_failed => ⟨.RAS_PRESET_STATUS, 2, 1, .RO, 0⟩
  | .RAS_PRESET_STATUS_pages_left => ⟨.RAS_PRESET_STATUS, 32, 32, .RO, 0⟩
  | .RAS_DUMP_HOST_host_en => ⟨.RAS_DUMP_HOST, 0, 1, .RW, 0⟩
  | .RAS_DUMP_HOST_base => ⟨.RAS_DUMP_HOST, 12, 40, .RW, 0⟩
  | .RAS_DUMP_HOST_SIZE_size_mib => ⟨.RAS_DUMP_HOST_SIZE, 0, 16, .RW, 0⟩
  | .RAS_DUMP_STATUS_valid => ⟨.RAS_DUMP_STATUS, 0, 1, .RO, 0⟩
  | .RAS_DUMP_STATUS_host_written => ⟨.RAS_DUMP_STATUS, 1, 1, .RO, 0⟩
  | .RAS_DUMP_STATUS_host_truncated => ⟨.RAS_DUMP_STATUS, 2, 1, .RO, 0⟩
  | .RAS_DUMP_STATUS_pieces => ⟨.RAS_DUMP_STATUS, 3, 4, .RO, 0⟩
  | .RAS_DUMP_WIN_piece => ⟨.RAS_DUMP_WIN, 0, 2, .RW, 0⟩
  | .RAS_DUMP_WIN_window => ⟨.RAS_DUMP_WIN, 2, 9, .RW, 0⟩
  | .RAS_UNIT_epoch => ⟨.RAS_UNIT, 0, 4, .RO, 0⟩
  | .RAS_UNIT_resets => ⟨.RAS_UNIT, 8, 16, .RO, 0⟩
  | .RAS_UNIT_dirty_lost => ⟨.RAS_UNIT, 32, 32, .RO, 0⟩
  | .RAS_RGN_CAUSE_cause => ⟨.RAS_RGN_CAUSE, 0, 4, .RO, 0⟩
  | .RAS_RGN_CAUSE_count => ⟨.RAS_RGN_CAUSE, 16, 16, .RO, 0⟩
  | .PWR_CAP_cap_w => ⟨.PWR_CAP, 0, 12, .RWL, 0xa28⟩
  | .PWR_CAP_source => ⟨.PWR_CAP, 12, 2, .RO, 0⟩
  | .PWR_STATUS_power_w => ⟨.PWR_STATUS, 0, 16, .RO, 0⟩
  | .PWR_STATUS_tj_max_c => ⟨.PWR_STATUS, 16, 8, .RO, 0⟩
  | .PWR_STATUS_state => ⟨.PWR_STATUS, 24, 2, .RO, 0⟩
  | .PWR_STATUS_trip_cause => ⟨.PWR_STATUS, 28, 4, .RO, 0⟩
  | .PWR_STATUS_throttle_events => ⟨.PWR_STATUS, 32, 32, .RO, 0⟩
  | .PWR_THERM_CFG_tj_target_c => ⟨.PWR_THERM_CFG, 0, 8, .RWL, 0x5f⟩
  | .PWR_ENERGY_energy_mj => ⟨.PWR_ENERGY, 0, 64, .RO, 0⟩
  | .PWR_RAIL_mv => ⟨.PWR_RAIL, 0, 16, .RO, 0⟩
  | .PWR_RAIL_ma => ⟨.PWR_RAIL, 16, 32, .RO, 0⟩
  | .PWR_TEMP_temp => ⟨.PWR_TEMP, 0, 16, .RO, 0⟩
  | .PWR_TEMP_valid => ⟨.PWR_TEMP, 16, 1, .RO, 0⟩

end Sys2Proof.Machine
end

