-- ==== Sys2Proof/Machine/Ops.lean ====
section
/-!
DEFINITION. The named operations over the state: register fields, cells and groups, counters, meters, interrupts, time,
free values.
-/

namespace Sys2Proof.Machine

/-- The result of a command. -/
abbrev Out := Host.Outcome State Fault Refusal

/-! ### Register fields -/

/-- The key of a field's home. -/
def fldKey (f : Fld) (i : Nat) : Nat := 1024 * i + f.ctorIdx

/-- The value a field holds. -/
def State.fld (s : State) (f : Fld) (i : Nat) : Nat := mapGet f.desc.reset s.regs (fldKey f i)

/-- A field set to a value, cut to the field's width. -/
def State.setFld (s : State) (f : Fld) (i v : Nat) : State :=
  { s with regs := mapSet f.desc.reset s.regs (fldKey f i) (v % 2 ^ f.desc.width) }

/-- Whether a one-bit field is 1. -/
def State.flag (s : State) (f : Fld) (i : Nat) : Bool := decide (s.fld f i ≠ 0)

/-- A counter raised by `n`, saturating at its width. -/
def State.satFld (s : State) (f : Fld) (i n : Nat) : State :=
  s.setFld f i (min (s.fld f i + n) (2 ^ f.desc.width - 1))

/-- A counter raised by `n`, wrapping at its width (R36, R316). -/
def State.addFld (s : State) (f : Fld) (i n : Nat) : State := s.setFld f i (s.fld f i + n)

/-- Several fields of one index set. -/
def State.setFlds (s : State) (i : Nat) : List (Fld × Nat) → State
  | [] => s
  | (f, v) :: t => (s.setFld f i v).setFlds i t

/-- A field back at its reset value. -/
def State.clrFld (s : State) (f : Fld) (i : Nat) : State := s.setFld f i f.desc.reset

/-! ### Time and free values -/

/-- The time counter's nanoseconds (R374). -/
def State.now (s : State) : Nat := s.time.ns

/-- R71: the time at which a watchdog interval that begins now runs out. -/
def State.wdUntil (s : State) : Nat := s.now + s.fld .CFG_START_watchdog_ms 0 * 1000000

/-- R186: the wait limit for stores of a wait that begins now, in ns; in a queue's drain at most 500 µs. -/
def State.deadNs (s : State) (short : Bool) : Nat :=
  let l := s.fld .CFG_SYNC_TIMEOUTS_dead_target_timeout_us 0 * 1000
  if short then min l 500000 else l

/-- The next value the spec leaves open. Log entry 2. -/
def State.freeAt (s : State) (k : Nat) : Nat := (Config.freeValue (s.free + k)).toNat

/-- `k` open values used. -/
def State.drew (s : State) (k : Nat) : State := { s with free := s.free + k }

/-! ### Cells, blocks, groups -/

/-- The number of a physical cell: (region × 12 + block) × 9 + cell. -/
def cellNo (c : CellId) : Nat := (c.region.val * 12 + c.block.val) * 9 + c.cell.val

/-- The number of a block: region × 12 + block. -/
def blockNo (b : BlockId) : Nat := b.region.val * 12 + b.block.val

/-- The block and the region of a cell number. -/
def blockOf (c : Nat) : Nat := c / 9
def regionOf (c : Nat) : Nat := c / 108

def State.cell (s : State) (c : Nat) : Cell := mapGet Cell.init s.cells c
def State.setCell (s : State) (c : Nat) (x : Cell) : State := { s with cells := mapSet Cell.init s.cells c x }
def State.modCell (s : State) (c : Nat) (f : Cell → Cell) : State := s.setCell c (f (s.cell c))
def State.block (s : State) (b : Nat) : Block := mapGet Block.init s.blocks b
def State.setBlock (s : State) (b : Nat) (x : Block) : State := { s with blocks := mapSet Block.init s.blocks b x }
def State.modBlock (s : State) (b : Nat) (f : Block → Block) : State := s.setBlock b (f (s.block b))

/-- The group of a slot, if the slot is occupied (R40). -/
def State.group (s : State) (c slot : Nat) : Option Group := mapFind (s.cell c).groups slot

/-- A slot's group replaced. -/
def State.setGroup (s : State) (c slot : Nat) (g : Group) : State :=
  s.modCell c (fun x => { x with groups := mapIns x.groups slot g })

/-- R61: a group whose active mask is zero with an empty stack has ended. -/
def Group.ended (g : Group) : Bool := decide (g.active = 0) && g.stack.isEmpty

/-- The thread block a group belongs to. -/
def Cell.tbOf (x : Cell) (g : Group) : Option ThreadBlock := x.tbs.find? (fun t => t.n == g.tb)

/-- The kernel with an identity. -/
def State.kernel? (s : State) (k : Nat) : Option Kernel := s.kernels.find? (fun x => x.id == k)

/-- A kernel's record changed. -/
def State.modKernel (s : State) (k : Nat) (f : Kernel → Kernel) : State :=
  { s with kernels := s.kernels.map (fun x => if x.id = k then f x else x) }

/-- The kernel of a cell's resident thread blocks. -/
def State.cellKernel (s : State) (c : Nat) : Option Kernel :=
  match (s.cell c).tbs with
  | [] => none
  | t :: _ => s.kernel? t.kern

/-- The account tag of the kernel on a cell. -/
def State.cellAcct (s : State) (c : Nat) : Option Nat := (s.cellKernel c).map (·.acct)

/-- The ASC of the kernel on a cell. -/
def State.cellAsc (s : State) (c : Nat) : Nat := ((s.cellKernel c).map (·.asc)).getD 0

/-- The physical cell behind a logical cell of a block (R21). -/
def State.physOfLogical (s : State) (b l : Nat) : Nat := 9 * b + bits (s.fld .BLK_CELL_MAP_phys_of_logical b) (4 * l) 4

/-- Whether a physical cell is enabled (REG_BLOCK_MAP). -/
def State.cellEnabled (s : State) (c : Nat) : Bool :=
  s.flag .REG_BLOCK_MAP_block_enabled (blockOf c) && (s.fld .REG_BLOCK_MAP_cell_enabled (blockOf c)).testBit (c % 9)

/-- The logical index of a physical cell, if it has one. -/
def State.logicalOf (s : State) (c : Nat) : Option Nat :=
  if s.cellEnabled c then firstBelow 8 (fun l => s.physOfLogical (blockOf c) l == c) else none

/-- R22: a cell marked for isolation at the next reset of its region. -/
def State.markIsolate (s : State) (c : Nat) : State :=
  s.setFld .REG_BLOCK_MAP_cell_isolate_pending (blockOf c)
    (s.fld .REG_BLOCK_MAP_cell_isolate_pending (blockOf c) ||| 2 ^ (c % 9))

/-- REG_STATUS `state` values (R33). -/
def rgnOffline : Nat := 0
def rgnResetting : Nat := 1
def rgnOnline : Nat := 2
def rgnQuarantined : Nat := 3

/-- Whether a region is ONLINE. -/
def State.rgnUp (s : State) (r : Nat) : Bool := s.fld .REG_STATUS_state r == rgnOnline

/-- R430, R450: whether memories, the host interface and the fabric ports answer: not after a fatal stop, nor once an
orderly power-down has ended, nor without power. -/
def State.serves (s : State) : Bool :=
  s.pwr.pwrgood && !s.pwr.regsOff && !s.pwr.offRdy && s.fld .HIF_PROMPT_STATE_boot_state 0 != 0xA

/-- R430, R450: whether the engines of the device run: not after a fatal stop, nor from an orderly power-down on. -/
def State.alive (s : State) : Bool := s.serves && !s.pwr.offReq

/-- R455: whether the instruction in the TAP holds every high-speed link down. -/
def State.linksHeld (s : State) : Bool := ([0x00, 0x03, 0x04, 0x09, 0x0A] : List (BitVec 8)).contains s.tap.ir

/-- Whether the device is READY (R330). -/
def State.ready (s : State) : Bool := s.alive && s.fld .HIF_PROMPT_STATE_boot_state 0 == 8

/-- Whether the device is in January mode (R414). -/
def State.january (s : State) : Bool := s.alive && s.fld .HIF_PROMPT_STATE_boot_state 0 == 9

/-! ### Performance counters and meters -/

/-- Counters of one region from index `k` down: those that select the event and the block count `n` (R35). -/
def pmcLoop (r b ev n : Nat) : Nat → State → State
  | 0, s => s
  | k + 1, s =>
    let i := 8 * r + k
    let sel := s.fld .REG_PMC_SEL_block i
    let s := if s.fld .REG_PMC_SEL_event i = ev ∧ (sel = 0xF ∨ sel = b) then s.addFld .REG_PMC_VAL_count i n else s
    pmcLoop r b ev n k s

/-- An event counted in block `b` of region `r`; `b` = 16, which no counter can select, is the region network (R35,
R36). -/
def State.pmc (s : State) (r b ev n : Nat) : State :=
  if s.flag .REG_PMC_CTL_enable r && s.rgnUp r then pmcLoop r b ev n 8 s else s

/-- An event counted at a cell. -/
def State.cellPmc (s : State) (c ev n : Nat) : State := s.pmc (regionOf c) (blockOf c % 12) ev n

/-- R35: an operation of a region over its two links, of `n` bytes: the flits it takes counted (event 0x06), as many as
the spec leaves open. Log entry 11. -/
def State.flits (s : State) (r n : Nat) : State := s.pmc r 16 0x06 (Config.linkFlits n)

/-- A meter of a tag raised (R314, R316); no tag, no count. -/
def State.meter (s : State) (tag : Option Nat) (f : Fld) (n : Nat) : State :=
  match tag with
  | some t => s.addFld f t n
  | none => s

/-- The use of a unit by a tag counted for the energy split (R315). -/
def State.use (s : State) (tag : Option Nat) (unit n : Nat) : State :=
  match tag with
  | some t => { s with used := mapSet 0 s.used (65536 * unit + t) (mapGet 0 s.used (65536 * unit + t) + n) }
  | none => s

/-! ### Interrupts -/

def State.vec (s : State) (v : Nat) : Msix := mapGet Msix.init s.msix v

/-- R336, R306: a vector raised: one message; one pending message while its entry or the function masks it or the
function is in D3hot; nothing is sent while MSI-X is disabled, where it is taken to wait likewise (DESIGN CHOICE, log
entry 14). -/
def State.raiseVec (s : State) (v : Nat) : State :=
  let m := s.vec v
  let m' := if m.masked || s.hif.msixMask || !s.hif.msixEn || s.hif.d3hot then { m with pending := true }
    else { m with sent := m.sent + 1 }
  { s with msix := mapSet Msix.init s.msix v m' }

/-- A device-level event (R336). -/
def State.event (s : State) : State :=
  if s.flag .HIF_EVENT_CFG_event_en 0 then s.raiseVec (s.fld .HIF_EVENT_CFG_event_vector 0) else s

/-- R452: a PLDM event sent to the receiver, if there is one: 0x80 a change of `boot_state`, 0x81 a fatal stop, 0x02 a
temperature crossed, 0x82 a thermal trip; ALERT_N low until it acknowledges. -/
def State.pldmEvent (s : State) (e : Nat) : State :=
  match s.side.receiver with
  | some _ => { s with side := { s.side with events := s.side.events ++ [e], alert := true } }
  | none => s

/-- `boot_state` set; a change is a device-level event (R336) and a PLDM event (R452). -/
def State.setBoot (s : State) (v : Nat) : State :=
  if s.fld .HIF_PROMPT_STATE_boot_state 0 = v then s
  else ((s.setFld .HIF_PROMPT_STATE_boot_state 0 v).event).pldmEvent 0x80

/-! ### Units -/

/-- The number of a resettable unit in RAS_UNIT (R423): regions, sites, Silit ports, far-tier ports. -/
def unitRgn (r : Nat) : Nat := r
def unitSite (i : Nat) : Nat := 24 + i
def unitSilit (p : Nat) : Nat := 36 + p
def unitFar (p : Nat) : Nat := 48 + p

/-- R423: a unit's epoch advances, modulo 16, and its resets are counted. -/
def State.bumpEpoch (s : State) (u : Nat) : State :=
  (s.setFld .RAS_UNIT_epoch u ((s.fld .RAS_UNIT_epoch u + 1) % 16)).satFld .RAS_UNIT_resets u 1

/-- R394: the applied value of a calibration quantity: the factory value plus the user offset. -/
def State.calOf (s : State) (fid idx : Nat) : Int :=
  mapGet 0 s.fuses.cal (65536 * fid + idx) + mapGet 0 s.usercal (65536 * fid + idx)

/-- Application of an operation at every element of a list. -/
def State.each {α : Type} (s : State) (l : List α) (f : State → α → State) : State := l.foldl f s

end Sys2Proof.Machine
end

