-- ==== Sys2Proof/Machine/Fab.lean ====
section
/-!
DEFINITION. Sending over the Silit fabric: routes (R351, R352), frames with their link sequence (R346, R356, R357),
outstanding remote requests (R359, R423).
-/

namespace Sys2Proof.Machine

/-- FAB_PORT_STATUS `state` values. -/
def portDown : Nat := 0
def portTraining : Nat := 1
def portUp : Nat := 2
def portDegraded : Nat := 3
def portResetting : Nat := 4
def portFailed : Nat := 5

/-- FAB_PORT_CFG `mode` values (R344). -/
def modeOff : Nat := 0
def modeNative : Nat := 1
def modeEncap : Nat := 2
def modePlain : Nat := 3

/-- The key of a link of a NATIVE port, or of a tunnel to a neighbour of an ENCAP port. -/
def State.linkKey (s : State) (p nbr : Nat) : Nat :=
  4097 * p + (if s.fld .FAB_PORT_CFG_mode p = modeNative then 0 else 1 + nbr)

def State.link (s : State) (k : Nat) : Link := mapGet Link.init s.links k
def State.setLink (s : State) (k : Nat) (l : Link) : State := { s with links := mapSet Link.init s.links k l }

/-- R352: a port is usable when UP or DEGRADED and carrying Silit frames, towards a neighbour that is reachable. -/
def State.portUsable (s : State) (p nbr : Nat) : Bool :=
  let st := s.fld .FAB_PORT_STATUS_state p
  let mode := s.fld .FAB_PORT_CFG_mode p
  decide (p < 12) && (st == portUp || st == portDegraded) && (mode == modeNative || mode == modeEncap)
    && !(s.link (s.linkKey p nbr)).unreach

/-- R352, R355: the port and neighbour by which a frame to a device leaves. -/
def State.route (s : State) (dst : Nat) : Option (Nat × Nat) :=
  let p := s.fld .FAB_ROUTE_port dst
  let q := s.fld .FAB_ROUTE_alt_port dst
  let n := s.fld .FAB_ROUTE_nbr dst
  if s.flag .FAB_ROUTE_over_budget dst then none
  else if s.flag .FAB_ROUTE_valid dst && s.portUsable p n then some (p, n)
  else if s.flag .FAB_ROUTE_alt_valid dst && s.portUsable q n then some (q, n)
  else none

/-- A header with nothing in it. -/
def Frame.blank : Frame :=
  { dst := 0, src := 0, hops := 0, vc := false, status := 0, lseq := 0, lack := 0, tid := 0, tepoch := 0, size := 0,
    sign := false, aop := 0, addr := 0, arg := 0, data := [], good := true }

/-- Frame types (R347). -/
def ftRdReq : Nat := 0x01
def ftRdRsp : Nat := 0x02
def ftWrReq : Nat := 0x03
def ftWrAck : Nat := 0x04
def ftAtomReq : Nat := 0x05
def ftAtomRsp : Nat := 0x06
def ftFeReq : Nat := 0x07
def ftFeRsp : Nat := 0x08
def ftFeWithdraw : Nat := 0x09
def ftFenceSig : Nat := 0x0A
def ftFenceAck : Nat := 0x0B
def ftCollData : Nat := 0x10
def ftCollCredit : Nat := 0x11
def ftCollAbort : Nat := 0x12
def ftFwRelay : Nat := 0x18
def ftProbe : Nat := 0x1E

/-- R434: a frame header kept among the last 4,096 of a port in one direction. -/
def State.logHdr (s : State) (k type : Nat) (f : Frame) : State :=
  let l := mapGet [] s.hdrs k ++ [⟨type, f.data.length, { f with data := [] }⟩]
  { s with hdrs := mapSet [] s.hdrs k (l.drop (l.length - 4096)) }

/-- A frame's bytes with header and trailer (R346), and its 64-byte units on a NATIVE link (R349). -/
def wireLen (f : Frame) : Nat := 36 + f.data.length
def unitCount (f : Frame) : Nat := ceilDiv (wireLen f) 64

/-- R349, R350: what goes out beside frames: `lack`, the NAK, the credits to return. -/
def Link.tell (l : Link) : Link :=
  { l with note := some ⟨(l.nextRx + 2 ^ 32 - 1) % 2 ^ 32, l.nak, l.ret0, l.ret1⟩, nak := none, ackDue := false, ret0 := 0
           ret1 := 0 }

/-- R349: frame units sent on a NATIVE link: after every 20 a control unit follows. -/
def Link.sent (l : Link) (n : Nat) : Link :=
  let m := { l with units := (l.units + n) % 20 }
  if l.units + n ≥ 20 then m.tell else m

/-- R356, R357: whether a frame can be sent now: it has room in the replay buffer of 512 KiB, and the credit of its
channel on a NATIVE link, or no pause on an ENCAP port. -/
def Link.fits (l : Link) (native : Bool) (f : Frame) : Bool :=
  decide ((l.replay.map (fun x => wireLen x.frame)).sum + wireLen f ≤ 524288)
    && (if native then decide (unitCount f ≤ if f.vc then l.cr1 else l.cr0) else !l.paused)

/-- Whether a port sends frames. -/
def State.portSends (s : State) (p : Nat) : Bool :=
  let st := s.fld .FAB_PORT_STATUS_state p
  st == portUp || st == portDegraded

/-- R356, R357: a frame sent on a link: it takes the next `lseq` and stays in the replay buffer until acknowledged. -/
def State.transmit (s : State) (k : Nat) (x : TxFrame) : State :=
  let p := k / 4097
  let l := s.link k
  let f := { x.frame with lseq := BitVec.ofNat 32 l.nextTx, lack := BitVec.ofNat 32 (l.nextRx + 2 ^ 32 - 1) }
  let n := unitCount f
  let m := { l with
    nextTx := (l.nextTx + 1) % 2 ^ 32, replay := l.replay ++ [{ x with frame := f }], ackDue := false
    since := if l.replay.isEmpty then s.now else l.since }
  let m := if s.fld .FAB_PORT_CFG_mode p = modeNative then
      Link.sent { m with cr0 := if f.vc then m.cr0 else m.cr0 - n, cr1 := if f.vc then m.cr1 - n else m.cr1 } n
    else m.tell
  (s.logHdr (2 * p) x.type f).setLink k m

/-- The frames of a transmit queue sent in order as far as they can be; on a NATIVE link a channel that has to wait does
not hold the other back (R356). `held` names the channels that wait. -/
def State.sendQueue (k : Nat) (native : Bool) : List TxFrame → List Bool → State → State
  | [], _, s => s
  | x :: xs, held, s =>
    let ch := native && x.frame.vc
    if held.contains ch || !(s.link k).fits native x.frame then
      State.sendQueue k native xs (ch :: held) (s.setLink k { s.link k with waiting := (s.link k).waiting ++ [x] })
    else State.sendQueue k native xs held (s.transmit k x)

/-- What waits on a link sent as far as it can be. -/
def State.pump (s : State) (k : Nat) : State :=
  let p := k / 4097
  let l := s.link k
  if l.waiting.isEmpty || !s.portSends p then s
  else
    State.sendQueue k (s.fld .FAB_PORT_CFG_mode p == modeNative) l.waiting [] (s.setLink k { l with waiting := [] })

/-- R356: a frame put on a link: into its transmit queue, and out as soon as it can be sent. `step` is the FW_STAGE step
that waits for its acknowledgement. -/
def State.putOnLink (s : State) (p nbr type : Nat) (f : Frame) (step : Option (Nat × Nat) := none) : State :=
  let k := s.linkKey p nbr
  let l := s.link k
  (s.setLink k { l with waiting := l.waiting ++ [⟨type, f, step⟩] }).pump k

/-- A frame of this device sent towards `f.dst` with its route's port, `hops` at the limit (R353); none without a usable
route, counted in `no_route` (R352). A device without an ID sends nothing (R351). -/
def State.sendFrame (s : State) (type : Nat) (f : Frame) : Option State :=
  if s.fld .FAB_ID_dev_id 0 = 0 then none
  else
    match s.route f.dst.toNat with
    | none => none
    | some (p, n) =>
      some (s.putOnLink p n type { f with
        src := BitVec.ofNat 16 (s.fld .FAB_ID_dev_id 0), hops := BitVec.ofNat 4 (s.fld .FAB_CFG_hop_limit 0) })

/-- R314, R315: payload bytes sent towards a device charged to a tag, on the fabric die of the route's port. -/
def State.fabricBytes (s : State) (tag : Option Nat) (dst n : Nat) : State :=
  let s := s.meter tag .CFE_ACCT_fabric_bytes n
  match s.route dst with
  | some (p, _) => s.use tag (36 + p / 2) n
  | none => s

/-- A reply or notice sent: dropped and counted where it has no route (R352). -/
def State.sendOrDrop (s : State) (type : Nat) (f : Frame) : State :=
  match s.sendFrame type f with
  | some s' => s'
  | none => s.satFld .FAB_COUNT_no_route 0 1

/-- The first transaction number from `t` on that no outstanding request uses. -/
def freeTid (used : List Nat) : Nat → Nat → Nat
  | 0, t => t
  | n + 1, t => if used.contains (t % 65536) then freeTid used n (t + 1) else t % 65536

/-- R423: the transaction number that the next request takes: not one in use, nor one that TARGET_RESET or a timeout
freed within `dead_target_timeout_us`. -/
def State.takeTid (s : State) : Nat :=
  let held := (s.tidHold.filter (fun e => decide (s.now + 1 < e.2 + s.deadNs false))).map (·.1)
  freeTid (s.remote.map (·.tid) ++ held) (s.remote.length + held.length + 1) s.nextTid

/-- A remote request sent (R359, R423): its tag epoch is the requester unit's epoch and the entry's generation; the
payload is charged to the tag (R364). None where no route is usable. -/
def State.sendReq (s : State) (unit : Option Nat) (tag : Option Nat) (type : Nat) (f : Frame) (svc : RemFor)
    (tile : Bool := false) : Option State :=
  let tid := s.takeTid
  let ep := (match unit with | some u => s.fld .RAS_UNIT_epoch u | none => 0) + 16 * (mapGet 0 s.gens tid)
  match s.sendFrame type { f with tid := BitVec.ofNat 16 tid, tepoch := BitVec.ofNat 8 ep } with
  | none => none
  | some s1 =>
    let s2 := s1.fabricBytes tag f.dst.toNat f.data.length
    let lim :=
      if type = ftFeReq then s.fld .CFG_SYNC_TIMEOUTS_fe_wait_timeout_ms 0 * 1000000
      else s.fld .CFG_SYNC_TIMEOUTS_dead_target_timeout_us 0 * 1000
    let len := if type = ftWrReq then f.data.length else if type = ftRdReq then f.arg.toNat else 2 ^ f.size.toNat
    some { s2 with
      nextTid := (tid + 1) % 65536
      remote := s2.remote ++ [⟨tid, ep, f.dst.toNat, type, s.now, lim, f.addr.toNat, len, svc, tile, []⟩] }

/-- R362: whether a remote write or atomic of a cell to bytes of a peer has still to be acknowledged. -/
def State.remoteBusy (s : State) (mine : RemReq → Bool) (dev a n : Nat) : Bool :=
  s.remote.any (fun r => mine r && (r.type == ftWrReq || r.type == ftAtomReq) && r.dst == dev
    && decide (r.addr < a + n) && decide (a < r.addr + r.len))

/-- Whether a remote request is a cell's own. -/
def RemReq.ofCell (c : Nat) (r : RemReq) : Bool :=
  match r.svc with
  | .lane c' _ _ => c' == c
  | .flush c' _ _ => c' == c
  | _ => false

/-- A remote request settled; `gone` advances the entry's generation, so that a late reply is dropped (R423), and keeps
it from use. -/
def State.endReq (s : State) (tid : Nat) (gone : Bool) : State :=
  { s with
    remote := s.remote.filter (fun r => r.tid != tid)
    gens := if gone then mapSet 0 s.gens tid ((mapGet 0 s.gens tid + 1) % 16) else s.gens
    tidHold := if gone then mapSet 0 s.tidHold tid (s.now + 1) else s.tidHold }

/-- R360: FE_WITHDRAW for a full/empty operation waiting at a peer; its entry is freed. -/
def State.withdrawRemote (s : State) (r : RemReq) : State :=
  let f := { Frame.blank with dst := BitVec.ofNat 16 r.dst, tid := BitVec.ofNat 16 r.tid, tepoch := BitVec.ofNat 8 r.tepoch }
  (s.sendOrDrop ftFeWithdraw f).endReq r.tid true

end Sys2Proof.Machine
end

