-- ==== Sys2Proof/Machine/Mem.lean ====
section
/-!
DEFINITION. Device and host memory at their homes: locations and frames (R213 to R218, R226, R238 to R243, R250), heat
(R245), the shared caches (R190, R197, R198), reservations (R159 to R162), tile check entries (R204 to R207), reads and
writes.
-/

namespace Sys2Proof.Machine

/-! ### Homes -/

/-- R218: the home shared-cache die of a device or host physical address. -/
def homeOf (d : Nat) : Nat :=
  b2n (d.testBit 12 ^^ d.testBit 17 ^^ d.testBit 23 ^^ d.testBit 29 ^^ d.testBit 37)

/-- The address within its space, for the home of R218. -/
def Target.addr : Target → Nat
  | .dev d => d
  | .host h => h
  | .peer _ d => d

/-- A target moved on by `n` bytes. -/
def Target.plus (n : Nat) : Target → Target
  | .dev d => .dev (d + n)
  | .host h => .host (h + n)
  | .peer i d => .peer i (d + n)

/-- The key of a 128-byte line in the block L2 and the shared caches: device or host address (R190). -/
def Target.line : Target → Nat
  | .dev d => d / 128
  | .host h => 2 ^ 45 + h / 128
  | .peer i d => 2 ^ 46 * (i + 1) + d / 128

/-- The target of a line key that is no peer's. -/
def lineTarget (l : Nat) : Target := if l ≥ 2 ^ 45 then .host ((l - 2 ^ 45) * 128) else .dev (l * 128)

/-- The granule of a reservation (R159). -/
def Target.granule : Target → Target
  | .dev d => .dev (d / 64)
  | .host h => .host (h / 64)
  | .peer i d => .peer i (d / 64)

/-! ### Locations and frames -/

def State.loc (s : State) (dpn : Nat) : LocEnt := mapGet LocEnt.init s.loct dpn
def State.setLoc (s : State) (dpn : Nat) (e : LocEnt) : State := { s with loct := mapSet LocEnt.init s.loct dpn e }

/-- MEM_SITE_STATUS and FTP_STATUS `state` values. -/
def siteOnline : Nat := 2
def siteFailed : Nat := 3
def ftpOnline : Nat := 3
def ftpEvacuating : Nat := 4
def ftpOffline : Nat := 5
def ftpFailed : Nat := 6

/-- Whether a location serves accesses: an ONLINE site, an ONLINE or EVACUATING port. -/
def State.locUp (s : State) (l : Nat) : Bool :=
  if l < 12 then s.fld .MEM_SITE_STATUS_state l == siteOnline
  else s.fld .FTP_STATUS_state (l - 12) == ftpOnline || s.fld .FTP_STATUS_state (l - 12) == ftpEvacuating

/-- Whether a location takes new pages: in service and not being evacuated (R230, R426), a port's frames cleared
(R382). -/
def State.locTakes (s : State) (l : Nat) : Bool :=
  if l < 12 then s.locUp l && !(s.evac.any (fun u => match u with | .site x => x.val == l | .port _ => false))
  else s.fld .FTP_STATUS_state (l - 12) == ftpOnline && s.farClear.contains (l - 12)

/-- The mapped expanders of a port: (first frame, frames of capacity) within its window (R225). -/
def State.expanders (s : State) (p : Nat) : List (Nat × Nat) :=
  (List.range 8).filterMap (fun n =>
    if s.flag .FTP_EXP_present (8 * p + n) then
      some (s.fld .FTP_EXP_base_256m (8 * p + n) * 4096, s.fld .FTP_EXP_size_256m (8 * p + n) * 4096)
    else none)

/-- R226: the data frames of an expander of `c` frames: below its check shadow of C / 512 and sync shadow of C / 1024
bytes, the first rounded up to whole frames. -/
def expData (c : Nat) : Nat := c - ceilDiv c 512 - ceilDiv c 1024

/-- R215: the site addresses of data frame `f`, of the check entry of tile `t` of its page, and of sync slot `n`. -/
def siteFrame (f : Nat) : Nat := f * 65536
def siteCheck (f t : Nat) : Nat := 0xFF4000000 + 128 * f + 8 * t
def siteSlot (n : Nat) : Nat := 0xFFC000000 + 1024 * n

/-- R217: what a site address names: channel, die, bank group, bank, row, column, byte of the chunk. -/
structure SiteLoc where
  ch   : Nat
  die  : Nat
  bg   : Nat
  bank : Nat
  row  : Nat
  col  : Nat
  byte : Nat
deriving DecidableEq, Repr

/-- R217: `locate`. -/
def locate (A : Nat) : SiteLoc :=
  let a := A / 2 ^ 10 * 256 + A % 256
  { ch := (A / 2 ^ 8 ^^^ A / 2 ^ 16) % 4, die := bits a 32 2, bg := (a / 2 ^ 8 ^^^ a / 2 ^ 22) % 4
    bank := (a / 2 ^ 10 ^^^ a / 2 ^ 24) % 4, row := bits a 15 17, col := bits a 12 3, byte := a % 256 }

/-- The runs of data frames of a location: (first frame, count). R215, R216, R226, R238: a site that holds a copy of the
location table gives up its frames, and one with a part of the dump region those too. -/
def State.frameRuns (s : State) (l : Nat) : List (Nat × Nat) :=
  if l < 12 then
    let sl := mapGet (none, none) s.slices (l / 3)
    if s.flag .MEM_SITE_STATUS_dump_region l then [(0, 1020928)]
    else if sl.1 = some l ∨ sl.2 = some l then [(0, 1020928), (1029120, 1045504 - 1029120)]
    else [(0, 1045504)]
  else (s.expanders (l - 12)).map (fun e => (e.1, expData e.2))

/-- The number of data frames at a location that pages may use. -/
def State.frameCap (s : State) (l : Nat) : Nat := ((s.frameRuns l).map (·.2)).sum

/-- The frames in use at a location: by pages, by migration destinations, and released frames not yet cleared (R242). -/
def State.usedFrames (s : State) (l : Nat) : List Nat :=
  (s.loct.filterMap (fun e =>
    if e.2.loc = l ∧ (e.2.state = .resident ∨ e.2.state = .migrating) then some e.2.frame else none))
  ++ (s.migs.filterMap (fun m => if m.loc = l then some m.frame else none))
  ++ (s.unclean.filterMap (fun k => if k / 2 ^ 26 = l then some (k % 2 ^ 26) else none))

/-- R215, R251: the site address at which line `k` of a page in a frame lies: 0 to 511 data, 512 the check shadow, from
513 on the sync shadow of the frame's slot. -/
def siteLine (f slot k : Nat) : Nat :=
  if k < 512 then siteFrame f + 128 * k else if k = 512 then siteCheck f 0 else siteSlot slot + 128 * (k - 513)

/-- R242: a frame released: it is in use until it and, where a sync page had it, its sync slot are cleared. -/
def State.giveBack (s : State) (l f : Nat) (sync : Bool) : State :=
  { s with
    unclean := s.unclean ++ [l * 2 ^ 26 + f]
    unslot := if sync then s.unslot ++ [l * 2 ^ 26 + f] else s.unslot }

/-- The free frames of a location. -/
def State.freeFrames (s : State) (l : Nat) : Nat := s.frameCap l - (s.usedFrames l).length

/-- R226, R250: the number of sync slots at a location: 65,536 at a site, one per 1 MiB of an expander's capacity. -/
def State.syncSlots (s : State) (l frame : Nat) : Nat × Nat :=
  if l < 12 then (0, 65536)
  else
    match (s.expanders (l - 12)).find? (fun e => decide (e.1 ≤ frame) && decide (frame < e.1 + e.2)) with
    | some e => (e.1, e.2 / 16)
    | none => (0, 65536)

/-- The sync slot of a frame: its index within its site or expander modulo the slot count (R250). -/
def State.syncSlot (s : State) (l frame : Nat) : Nat :=
  let b := s.syncSlots l frame
  b.1 * 65536 + (frame - b.1) % (max b.2 1)

/-- Sync slots in use at a location: of pages, of migration destinations, and released ones not yet cleared (R242). -/
def State.usedSlots (s : State) (l : Nat) : List Nat :=
  (s.loct.filterMap (fun e =>
    if e.2.loc = l ∧ e.2.sync ∧ (e.2.state = .resident ∨ e.2.state = .migrating) then some (s.syncSlot l e.2.frame)
    else none))
  ++ (s.migs.filterMap (fun m => if m.loc = l ∧ (s.loc m.dpn).sync then some (s.syncSlot l m.frame) else none))
  ++ (s.unslot.filterMap (fun k => if k / 2 ^ 26 = l then some (s.syncSlot l (k % 2 ^ 26)) else none))

/-- How many numbers below `n` are `r` modulo `z`. -/
def modCount (n z r : Nat) : Nat := if r < z then (n + z - 1 - r) / z else 0

/-- The frames of a run whose sync slot is a given one. -/
def State.slotFrames (s : State) (l slot : Nat) (run : Nat × Nat) : Nat :=
  let b := s.syncSlots l run.1
  let z := max b.2 1
  if slot < b.1 * 65536 then 0
  else
    let r := slot - b.1 * 65536
    modCount (run.1 - b.1 + run.2) z r - modCount (run.1 - b.1) z r

/-- R250: the frames of a location that are free for a page: for a sync page, those whose sync slot is free too. -/
def State.freeFor (s : State) (l : Nat) (sync : Bool) : Nat :=
  if !sync then s.freeFrames l
  else
    let used := s.usedFrames l
    s.freeFrames l - (((s.usedSlots l).eraseDups).map (fun k =>
      ((s.frameRuns l).map (s.slotFrames l k)).sum - used.countP (fun f => s.syncSlot l f == k))).sum

/-- The lowest free frame of a run; for a sync page its slot must be free too (R250). -/
def State.lowestIn (s : State) (l : Nat) (sync : Bool) (used slots : List Nat) (run : Nat × Nat) : Option Nat :=
  let z := max (s.syncSlots l run.1).2 1
  ((List.range (min run.2 (used.length + (if sync then slots.length * (run.2 / z + 1) else 0) + 1))).map (run.1 + ·)).find?
    (fun f => !used.contains f && (!sync || !slots.contains (s.syncSlot l f)))

/-- The lowest free frame of a location (R250). -/
def State.lowestFrame (s : State) (l : Nat) (sync : Bool) : Option Nat :=
  (s.frameRuns l).findSome? (s.lowestIn l sync (s.usedFrames l) (s.usedSlots l))

/-- The location with the most frames free for a page, the lowest-numbered on a tie, among those that take pages. -/
def State.mostFree (s : State) (sync : Bool) (ls : List Nat) : Option Nat :=
  minBy (fun l => 2 ^ 40 - s.freeFor l sync) (ls.filter (fun l => s.locTakes l && decide (s.freeFor l sync > 0)))

/-- R250: a close destination for a page: a site of its slice MID, else any site. -/
def State.closeDest (s : State) (dpn : Nat) (sync : Bool) : Option Nat :=
  let k := dpn % 4
  match s.mostFree sync [3 * k, 3 * k + 1, 3 * k + 2] with
  | some l => some l
  | none => s.mostFree sync (List.range 12)

/-- R250: a far destination. -/
def State.farDest (s : State) (sync : Bool) : Option Nat := s.mostFree sync [12, 13, 14, 15]

/-! ### Capacity (R243) -/

/-- The close data frames in service: every data frame of the ONLINE sites but the dump region's (R216). -/
def State.closeFrames (s : State) : Nat :=
  ((List.range 12).map (fun i =>
    if s.locUp i then (if s.flag .MEM_SITE_STATUS_dump_region i then 1029120 else 1045504) else 0)).sum

/-- The frames that the location table and its mirror take. -/
def State.tableFrames (s : State) : Nat :=
  (s.slices.map (fun e => b2n e.2.1.isSome * 8192 + b2n e.2.2.isSome * 8192)).sum

/-- R243: 2 % of the close data frames in service, rounded up. -/
def State.reserve (s : State) : Nat := ceilDiv (s.closeFrames * 2) 100

/-- R243: allocatable close and far frames. -/
def State.allocClose (s : State) : Nat := s.closeFrames - s.reserve
def State.allocFar (s : State) : Nat :=
  ((List.range 4).map (fun p => if s.fld .FTP_STATUS_state p = ftpOnline then s.frameCap (12 + p) else 0)).sum

/-- Close frames in use at the sites in service, and far frames in use. -/
def State.usedClose (s : State) : Nat :=
  (((List.range 12).filter s.locUp).map (fun i => (s.usedFrames i).length)).sum
def State.usedFar (s : State) : Nat := ((List.range 4).map (fun p => (s.usedFrames (12 + p)).length)).sum

/-- R248, R249: headroom frames in use: by promotions into headroom until the demotions paired with them complete. -/
def State.headroomUsed (s : State) : Nat := s.migs.countP (fun m => m.room) + s.roomOwed + s.pairs.length

/-- Close frames outside the reserve that no page has and that are zeroed: a page that takes its frame has its
commitment among them; headroom in use is no part of them. -/
def State.closeRoom (s : State) : Nat := s.allocClose - (s.usedClose - s.headroomUsed)

/-- R248: close frames zeroed and uncommitted outside the reserve; each ZERO page has one committed (R240). -/
def State.freeClose (s : State) : Nat := s.closeRoom - s.loct.countP (fun e => e.2.state == .zero)
def State.freeFar (s : State) : Nat :=
  ((List.range 4).map (fun p => if s.locTakes (12 + p) then s.freeFrames (12 + p) else 0)).sum

/-- R249: whether a far frame is free that no ZERO page needs for its commitment. -/
def State.farSpare (s : State) : Bool :=
  decide (s.freeFar > s.loct.countP (fun e => e.2.state == .zero) - s.closeRoom)

/-- Headroom frames not in use (R243): the reserve without the location table, less those in use. -/
def State.headroomFree (s : State) : Nat := (s.reserve - s.tableFrames) - s.headroomUsed

/-- Committed frames: pages in ZERO, RESIDENT, MIGRATING or LOST. -/
def State.committed (s : State) : Nat := (s.loct.filter (fun e => e.2.state ≠ .unallocated)).length

/-! ### Placing a page -/

/-- R250: the location an unpinned page takes when it becomes RESIDENT: close memory while close frames outside the
reserve are free, else the far tier. -/
def State.placeFree (s : State) (dpn : Nat) (sync : Bool) : Option Nat :=
  if s.closeRoom > 0 then (match s.closeDest dpn sync with | some l => some l | none => s.farDest sync) else s.farDest sync

/-- R255: the location that a page's pin allows and that has room; no pin gives a page a reserve frame (R258). -/
def State.pinDest (s : State) (dpn pin want : Nat) (sync : Bool) : Option Nat :=
  match pin with
  | 1 => if s.closeRoom > 0 then s.closeDest dpn sync else none
  | 2 => s.farDest sync
  | 3 =>
    if s.locTakes want && decide (s.freeFor want sync > 0) && (decide (want ≥ 12) || decide (s.closeRoom > 0)) then some want
    else none
  | _ => none

/-- The location that a page pinned with value 3 is to have: the one its pin named. -/
def State.wanted (s : State) (dpn : Nat) (e : LocEnt) : Nat := mapGet e.loc s.want dpn

/-- R250, R255: the location a page takes when it becomes RESIDENT: what its pin allows, where that has room. -/
def State.placeFor (s : State) (dpn : Nat) (e : LocEnt) : Option Nat :=
  match s.pinDest dpn e.pin (s.wanted dpn e) e.sync with
  | some l => some l
  | none => s.placeFree dpn e.sync

/-- R247: the entry of a page made RESIDENT at a location: Summer with heat `warm_thr` in close memory, else Winter. -/
def State.residentAt (s : State) (e : LocEnt) (l f : Nat) : LocEnt :=
  { e with state := .resident, loc := l, frame := f, dwell := 0
           season := if l < 12 then .summer else .winter
           heat := if l < 12 then s.fld .PLE_SEASON_warm_thr 0 else 0 }

/-- R240: a ZERO page given a frame before its first write; none while no frame is free and clear. -/
def State.place (s : State) (dpn : Nat) : Option State :=
  let e := s.loc dpn
  match e.state with
  | .zero =>
    match s.placeFor dpn e with
    | none => none
    | some l =>
      match s.lowestFrame l e.sync with
      | none => none
      | some f => some (s.setLoc dpn (s.residentAt e l f))
  | .resident => some s
  | .migrating => some s
  | _ => none

/-- How the MID answers an access to a page (R240). -/
inductive PageAns where
  | ok
  | unalloc
  | lostSite
  | lostPort
deriving DecidableEq, Repr

/-- R240, R425, R229: the answer for a page, by its state and whether its location serves. -/
def State.pageAns (s : State) (dpn : Nat) : PageAns :=
  let e := s.loc dpn
  match e.state with
  | .unallocated => .unalloc
  | .zero => .ok
  | .lost => if e.loc < 12 then .lostSite else .lostPort
  | _ => if s.locUp e.loc then .ok else if e.loc < 12 then .lostSite else .lostPort

/-- The memory key of a device address, where the page has a frame. -/
def State.phys (s : State) (d : Nat) : Option Nat :=
  let e := s.loc (d / 65536)
  match e.state with
  | .resident => some (e.loc * 2 ^ 42 + e.frame * 65536 + d % 65536)
  | .migrating => some (e.loc * 2 ^ 42 + e.frame * 65536 + d % 65536)
  | _ => none

/-- The key of a page's frame in the check shadow and, by words, in the sync shadow. -/
def State.frameKey (s : State) (dpn : Nat) : Option Nat :=
  let e := s.loc dpn
  match e.state with
  | .resident => some (e.loc * 2 ^ 26 + e.frame)
  | .migrating => some (e.loc * 2 ^ 26 + e.frame)
  | _ => none

/-- A line of a migrating page made dirty (R251 step 3). -/
def State.migDirty (s : State) (dpn line : Nat) : State :=
  { s with migs := s.migs.map (fun m =>
      if m.dpn = dpn ∧ !m.dirty.contains line then { m with dirty := m.dirty ++ [line] } else m) }

/-! ### Heat, location cache, meters -/

/-- R238: a look-up in the slice MID's location cache: a miss is counted and brings the entry in. -/
def State.lookupLoc (s : State) (dpn : Nat) : State :=
  let k := dpn % 4
  let l := mapGet [] s.lcache k
  if l.contains dpn then s
  else { s.satFld .PLE_MID_lcache_miss k 1 with lcache := mapSet [] s.lcache k ((dpn :: l).take 262144) }

/-- R245: an access resolved at the slice MID: each 2^`sample_shift`-th adds 1 to the page's heat. -/
def State.heatTouch (s : State) (dpn : Nat) : State :=
  let k := dpn % 4
  let n := mapGet 0 s.sampled k + 1
  let s : State := { s.lookupLoc dpn with sampled := mapSet 0 s.sampled k (n % 2 ^ s.fld .PLE_CTL_sample_shift 0) }
  if n % 2 ^ s.fld .PLE_CTL_sample_shift 0 = 0 ∧ (s.loc dpn).state ≠ .unallocated then
    s.setLoc dpn { s.loc dpn with heat := min ((s.loc dpn).heat + 1) 255 }
  else s

/-- R314: bytes moved at a page's location charged to a tag. -/
def State.memBytes (s : State) (tag : Option Nat) (dpn n : Nat) : State :=
  let e := s.loc dpn
  if e.state = .resident ∨ e.state = .migrating then
    if e.loc < 12 then (s.meter tag .CFE_ACCT_close_bytes n).use tag (24 + e.loc) n
    else (s.meter tag .CFE_ACCT_far_bytes n).use tag (42 + (e.loc - 12) / 2) n
  else s

/-! ### The shared caches -/

/-- R197: one step of the replacement register. -/
def lfsrStep (x : Nat) : Nat :=
  (2 * x + b2n (x.testBit 15 ^^ x.testBit 13 ^^ x.testBit 12 ^^ x.testBit 10)) % 65536

/-- R198: the way a new line takes, of `ways` in a set, and the register after: the lowest invalid way, else the way the
register names. Fills and write-backs of these caches take no time in this model, so no way of theirs is busy. -/
def Cache.pick (c : Cache) (set ways : Nat) : Nat × Nat :=
  match firstBelow ways (fun w => (mapFind c.lines (set * ways + w)).isNone) with
  | some w => (w, c.lfsr)
  | none => let r := lfsrStep c.lfsr; (r % ways, r)

/-- The way of a set that holds a line. -/
def Cache.wayOf (c : Cache) (set ways line : Nat) : Option Nat :=
  firstBelow ways (fun w => match mapFind c.lines (set * ways + w) with | some l => l.addr == line | none => false)

def State.scd (s : State) (j : Nat) : Cache := mapGet Cache.init s.scds j
def State.setScd (s : State) (j : Nat) (c : Cache) : State := { s with scds := mapSet Cache.init s.scds j c }

/-- A dirty host line written back to host memory (R331): its bytes leave the shared cache. -/
def State.hostLineBack (s : State) (h : Nat) : State :=
  let a := h / 128 * 128
  { s with
    hostMem := (mapRange s.hostDirty a (a + 128)).foldl (fun m e => mapSet 0 m e.1 e.2) s.hostMem
    hostDirty := mapClear s.hostDirty a (a + 128) }

/-- The write-back of a shared-cache line to its memory or to the host: device data is in memory already, so only its
traffic counts. -/
def State.lineBack (s : State) (tag : Option Nat) (l : Nat) : State :=
  match lineTarget l with
  | .host h => s.hostLineBack h
  | .dev d => ((s.heatTouch (d / 65536)).memBytes tag (d / 65536) 128)
  | .peer _ _ => s

/-- R190, R198: an access of a line at its home shared-cache die, with fill, victim and dirty mark; 98,304 sets of 16
ways. A miss resolves the location (R245) and moves a line from memory (R314); a host line cached again ends the report
that the cache is invalid (R332). -/
def State.scdTouch (s : State) (tag : Option Nat) (t : Target) (write : Bool) : State :=
  match t with
  | .peer _ _ => s
  | _ =>
    let l := t.line
    let set := t.addr / 128 % 98304
    let j := homeOf t.addr
    let c := s.scd j
    let mark : List (Nat × Nat) := if write then [(0, 1)] else []
    match c.wayOf set 16 l with
    | some w =>
      if write then s.setScd j { c with lines := mapIns c.lines (set * 16 + w) ⟨l, [], mark, 0, 0⟩ } else s
    | none =>
      let p := c.pick set 16
      let key := set * 16 + p.1
      let s :=
        match mapFind c.lines key with
        | some v => if v.dirty.isEmpty then s else s.lineBack tag v.addr
        | none => s
      let s :=
        match t with
        | .dev d => (s.heatTouch (d / 65536)).memBytes tag (d / 65536) 128
        | _ => { s with hif := { s.hif with inval := false } }
      s.setScd j ⟨p.2, mapIns c.lines key ⟨l, [], mark, 0, 0⟩⟩

/-- The expander of a port whose frames hold a frame (R225). -/
def State.expOf (s : State) (p frame : Nat) : Option Nat :=
  firstBelow 8 (fun n => s.flag .FTP_EXP_present (8 * p + n)
    && decide (s.fld .FTP_EXP_base_256m (8 * p + n) * 4096 ≤ frame)
    && decide (frame < (s.fld .FTP_EXP_base_256m (8 * p + n) + s.fld .FTP_EXP_size_256m (8 * p + n)) * 4096))

/-- R228: the mark that makes the next access to a frame of a port uncorrectable. -/
def State.ftHit (s : State) (p frame : Nat) : Option Nat :=
  s.ftBad.find? (fun x => x == p || (match s.expOf p frame with | some e => x == 4 + 8 * p + e | none => false))

/-- R222, R223, R228: the memory line of a target that is read there, not in the shared cache, and is uncorrectable. -/
def State.badLine (s : State) (t : Target) : Option Nat :=
  if s.badLines.isEmpty && s.ftBad.isEmpty then none
  else
    match t with
    | .dev d =>
      if ((s.scd (homeOf d)).wayOf (d / 128 % 98304) 16 t.line).isSome then none
      else
        (s.phys d).bind (fun k =>
          let l := k / 2 ^ 42
          if l < 12 then (if s.badLines.contains (k / 128) then some k else none)
          else if (s.ftHit (l - 12) (k % 2 ^ 42 / 65536)).isSome then some k
          else none)
    | _ => none

/-- R222: a read of one line that is uncorrectable, counted and recorded; the next read is tried afresh. -/
def State.takeBad1 (s : State) (t : Target) : State × Bool :=
  match s.badLine t with
  | none => (s, false)
  | some k =>
    let l := k / 2 ^ 42
    if l < 12 then
      ((({ s with badLines := s.badLines.erase (k / 128) } : State).satFld .MEM_SITE_ERR_uncorrectable l 1).setFlds l
        [(.MEM_SITE_ERR_ADDR_addr, k % 2 ^ 42), (.MEM_SITE_ERR_ADDR_crc, 0), (.MEM_SITE_ERR_ADDR_patrol, 0),
          (.MEM_SITE_ERR_ADDR_valid, 1)], true)
    else
      match s.ftHit (l - 12) (k % 2 ^ 42 / 65536) with
      | some x => ({ s with ftBad := s.ftBad.erase x }, true)
      | none => (s, false)

/-- R222, R418: whether a read of `n` bytes at a target is uncorrectable, for the readers whose commands carry no report
of the memory: a line that a patrol found uncorrectable, or an access that an expander did not serve (log entry 53). -/
def State.takeBad (s : State) (t : Target) (n : Nat) : State × Bool :=
  let a := t.addr % 128
  (List.range ((a + n + 127) / 128)).foldl (fun (x : State × Bool) i =>
    let y := x.1.takeBad1 (if i = 0 then t else t.plus (128 * i - a))
    (y.1, x.2 || y.2)) (s, false)

/-- A line dropped from its shared cache, written back first if `back` and dirty. -/
def State.scdDrop (s : State) (t : Target) (back : Bool) (tag : Option Nat := none) : State :=
  let set := t.addr / 128 % 98304
  let j := homeOf t.addr
  match (s.scd j).wayOf set 16 t.line with
  | none => s
  | some w =>
    let dirty := match mapFind (s.scd j).lines (set * 16 + w) with | some l => !l.dirty.isEmpty | none => false
    let s := if back && dirty then s.lineBack tag t.line else s
    s.setScd j { s.scd j with lines := mapErase (s.scd j).lines (set * 16 + w) }

/-! ### Reservations (R159 to R162) -/

/-- A lane that acts: cell, slot, lane. -/
abbrev Who := Option (Nat × Nat × Nat)

/-- Whether a reservation is a lane's own. -/
def Resv.isOf (r : Resv) (w : Who) : Bool :=
  match w with
  | some (c, sl, ln) => r.cell == c && r.slot == sl && r.lane == ln
  | none => false

/-- R160: a write to bytes of a granule cancels every other lane's reservation on it. -/
def State.cancelResv (s : State) (t : Target) (n : Nat) (w : Who) : State :=
  let lo := t.addr / 64
  let hi := (t.addr + n - 1) / 64
  let space := match t with | .dev _ => 0 | .host _ => 1 | .peer i _ => 2 + i
  { s with resv := s.resv.filter (fun r =>
      let sp := match r.granule with | .dev _ => 0 | .host _ => 1 | .peer i _ => 2 + i
      r.isOf w || !(sp == space && decide (lo ≤ r.granule.addr) && decide (r.granule.addr ≤ hi))) }

/-- The reservations of a lane, of a group's lanes, of a cell, removed. -/
def State.dropResv (s : State) (p : Resv → Bool) : State := { s with resv := s.resv.filter (fun r => !p r) }

/-- R159, R162: a reservation set, replacing the lane's earlier one; a die with 8,192 entries evicts its oldest. -/
def State.reserve1 (s : State) (t : Target) (c sl ln : Nat) : State :=
  let s := s.dropResv (fun r => r.isOf (some (c, sl, ln)))
  let j := homeOf t.addr
  let mine := s.resv.filter (fun r => r.scd == j)
  let s :=
    if mine.length ≥ 8192 then
      (match mine with
        | o :: _ => { s with resv := s.resv.erase o }
        | [] => s)
    else s
  { s with resv := s.resv ++ [⟨j, c, sl, ln, t.granule⟩] }

/-! ### Tile check entries (R204 to R208) -/

/-- Check-entry states (R205). -/
def chkNone : Nat := 0
def chkValid : Nat := 1
def chkWriting : Nat := 2
def chkStale : Nat := 3
def chkBroken : Nat := 4

/-- R204: an entry from its fields. -/
def chkEntry (crc st epoch : Nat) : Nat := crc % 2 ^ 32 + 2 ^ 32 * (st % 256) + 2 ^ 40 * (epoch % 2 ^ 24)
def chkState (e : Nat) : Nat := bits e 32 8
def chkCrc (e : Nat) : Nat := e % 2 ^ 32

/-- R205: the check entry of a tile as read: sync pages, host memory and ZERO pages read NONE. -/
def State.chk (s : State) (t : Target) : Nat :=
  match t with
  | .dev d =>
    let dpn := d / 65536
    match s.frameKey dpn with
    | some k => if (s.loc dpn).sync then 0 else mapGet 0 s.check (16 * k + d % 65536 / 4096)
    | none => 0
  | _ => 0

/-- R238, R240: the location of a check entry that is read resolved at the slice MID. -/
def State.chkLook (s : State) (t : Target) : State :=
  match t with
  | .dev d => s.lookupLoc (d / 65536)
  | _ => s

/-- A check entry written; the page has its frame, and its location is resolved at the slice MID (R238, R240). -/
def State.setChk (s : State) (d e : Nat) : State :=
  let dpn := d / 65536
  match s.frameKey dpn with
  | some k =>
    if (s.loc dpn).sync then s
    else ({ s.lookupLoc dpn with check := mapSet 0 s.check (16 * k + d % 65536 / 4096) e }).migDirty dpn 512
  | none => s

/-- The open writes of a tile (R206). -/
def State.openCount (s : State) (d : Nat) : Nat :=
  match s.tiles.find? (fun t => t.tile == d / 4096) with
  | some t => t.count
  | none => 0

/-- R207: a non-tile write of the tile that holds `d`. -/
def State.chkNonTile (s : State) (d : Nat) : State :=
  let e := s.chk (.dev d)
  let st := chkState e
  if st = chkWriting ∨ st = chkBroken then s.setChk d (setBits e 32 8 chkBroken)
  else if st = chkNone ∨ st = chkValid ∨ st = chkStale then s.setChk d (setBits e 32 8 chkStale)
  else s

/-- R207: non-tile writes of every tile that `n` bytes from `d` touch. -/
def State.chkNonTiles (s : State) (d n : Nat) : State :=
  s.each ((List.range ((d + n - 1) / 4096 - d / 4096 + 1)).map (fun i => d / 4096 * 4096 + 4096 * i)) State.chkNonTile

/-- R206, R207: a TSTORE opens a tile; none while the die's table of 4,096 is full and the tile is not in it. -/
def State.chkOpen (s : State) (d rgn epoch : Nat) : Option State :=
  let tile := d / 4096
  if (s.loc (d / 65536)).sync then some s
  else
    match s.tiles.find? (fun t => t.tile == tile) with
    | some _ =>
      let s1 : State := { s with tiles := s.tiles.map (fun t =>
          if t.tile = tile then { t with count := t.count + 1, rgns := rgn :: t.rgns } else t) }
      some (s1.setChk d (setBits (s.chk (.dev d)) 32 8 chkBroken))
    | none =>
      if (s.tiles.filter (fun t => homeOf (t.tile * 4096) == homeOf d)).length ≥ 4096 then none
      else
        let s1 : State := { s with tiles := s.tiles ++ [⟨tile, 1, [rgn]⟩] }
        some (s1.setChk d (setBits (setBits (s.chk (.dev d)) 32 8 chkWriting) 40 24 epoch))
/-- One open write of a region taken off a tile's count. -/
def State.tileDown (s : State) (tile rgn : Nat) : State :=
  { s with tiles := s.tiles.filterMap (fun t =>
      if t.tile = tile then
        (if t.count ≤ 1 then none else some { t with count := t.count - 1, rgns := t.rgns.erase rgn })
      else some t) }

/-- R207: a TSTORE closes a tile with the CRC it computed. -/
def State.chkClose (s : State) (d rgn crc : Nat) : State :=
  if (s.loc (d / 65536)).sync then s
  else
    let e := s.chk (.dev d)
    let last := decide (s.openCount d ≤ 1)
    let s := s.tileDown (d / 4096) rgn
    if chkState e = chkWriting ∧ last then s.setChk d (setBits (setBits e 32 8 chkValid) 0 32 crc) else s

/-- R207: a TSTORE abandoned by a halt or region reset. -/
def State.chkAbandon (s : State) (d rgn : Nat) : State :=
  if (s.loc (d / 65536)).sync then s
  else (s.tileDown (d / 4096) rgn).setChk d (setBits (s.chk (.dev d)) 32 8 chkBroken)

/-- R207: a whole-tile FILL, or a whole-tile COPY with its source VALID (`crc` some), or not VALID (none). -/
def State.chkWhole (s : State) (d : Nat) (crc : Option Nat) : State :=
  let e := s.chk (.dev d)
  let st := chkState e
  if st = chkWriting ∨ (st = chkBroken ∧ s.openCount d > 0) then s.setChk d (setBits e 32 8 chkBroken)
  else
    match crc with
    | some c => s.setChk d (chkEntry c chkValid 0)
    | none => s.setChk d (setBits e 32 8 chkStale)

/-- The CRC-32C table step: eight bits of the reflected polynomial 0x82F63B78 (R204). -/
def crcBits : Nat → Nat → Nat
  | 0, c => c
  | n + 1, c => crcBits n (if c % 2 = 1 then (c / 2) ^^^ 0x82F63B78 else c / 2)

/-- The CRC register after a byte. -/
def crcByte (c : Nat) (b : Byte) : Nat := crcBits 8 (c ^^^ b.toNat)

/-- R204: CRC-32C. -/
def crc32c (l : List Byte) : Nat := (l.foldl crcByte 0xFFFFFFFF) ^^^ 0xFFFFFFFF

/-! ### Reads and writes at the home -/

/-- The bytes of device memory from an address, within one page; a page without a frame reads zero (R240). -/
def State.devBytes (s : State) (d n : Nat) : List Byte :=
  match s.phys d with
  | some k => bytesAt s.mem k n
  | none => List.replicate n 0

/-- The bytes of host memory as the shared caches and the host together hold them (R332). -/
def State.hostBytes (s : State) (h n : Nat) : List Byte :=
  let r := mapRange s.hostDirty h (h + n)
  let m := mapRange s.hostMem h (h + n)
  (List.range n).map (fun i => (mapFind r (h + i)).getD (mapGet 0 m (h + i)))

/-- The bytes at a target of this device or its host. -/
def State.targetBytes (s : State) (t : Target) (n : Nat) : List Byte :=
  match t with
  | .dev d => s.devBytes d n
  | .host h => s.hostBytes h n
  | .peer _ _ => List.replicate n 0

/-- The data lines of a page that `n` bytes from `d` touch made dirty in a migration (R251). -/
def State.migTouch (s : State) (d n : Nat) : State :=
  s.each (List.range ((d + n - 1) / 128 - d / 128 + 1)) (fun s i => s.migDirty (d / 65536) ((d / 128 + i) % 512))

/-- Bytes put into device memory, within one page that has its frame: memory, migration dirty bits, reservations. -/
def State.putDev (s : State) (d : Nat) (bs : List Byte) (w : Who) : State :=
  if bs.isEmpty then s
  else
    match s.phys d with
    | some k =>
      let bad := s.badLines.filter (fun x => !(decide (k / 128 ≤ x) && decide (x ≤ (k + bs.length - 1) / 128)))
      (({ s with mem := putBytes s.mem k bs, badLines := bad }).migTouch d bs.length).cancelResv (.dev d) bs.length w
    | none => s

/-- Bytes put into host lines that the shared caches then hold dirty (R331); dropped in mode 4 (R320). -/
def State.putHost (s : State) (h : Nat) (bs : List Byte) (w : Who) : State :=
  if bs.isEmpty || s.hif.pcie then s
  else
    ({ s with hostDirty := (List.range bs.length).foldl (fun m i => mapIns m (h + i) (bs.getD i 0)) s.hostDirty }).cancelResv
      (.host h) bs.length w

/-- R320: a write to host memory that mode 4 drops, counted where R304 counts a queue's. -/
def State.hostDrop (s : State) (q : Option Nat) (t : Target) : State :=
  match t, q with
  | .host _, some q => if s.hif.pcie then s.satFld .CFE_Q_IRQ_records_lost q 1 else s
  | _, _ => s

/-- Bytes given by WrCur: straight to host memory (R331); dropped in mode 4 (R320). -/
def State.wrCur (s : State) (h : Nat) (bs : List Byte) : State :=
  if s.hif.pcie then s
  else
  ({ s with hostMem := putBytes s.hostMem h bs
            hostDirty := mapClear s.hostDirty h (h + bs.length) }).cancelResv (.host h) bs.length none

/-- R207, R240: a non-tile write at the home; none while a ZERO page finds no clear frame. The page must answer. -/
def State.homeWrite (s : State) (tag : Option Nat) (t : Target) (bs : List Byte) (w : Who) : Option State :=
  match t with
  | .dev d =>
    match s.place (d / 65536) with
    | none => none
    | some s => some (((s.scdTouch tag t true).putDev d bs w).chkNonTiles d bs.length)
  | .host h => some ((s.scdTouch tag t true).putHost h bs w)
  | .peer _ _ => none

/-- A read at the home with its shared-cache traffic. -/
def State.homeTouch (s : State) (tag : Option Nat) (t : Target) : State := s.scdTouch tag t false

/-! ### Back-invalidation (R335) -/

/-- The filter's record of the line of a device address. -/
def State.filterOf (s : State) (t : Target) : Option FilterEnt :=
  match t with
  | .dev d => s.hif.filter.find? (fun f => f.line == d / 128)
  | _ => none

/-- R335: whether a device agent must wait for the host before a read (`write` false) or a write or home operation of a
line: BISnpData where the host holds it exclusive, BISnpInv where it holds it at all. -/
def State.biHeld (s : State) (t : Target) (write : Bool) : Bool :=
  match s.filterOf t with
  | some f => write || f.excl
  | none => false

/-- R335: the snoop sent for a held line, once. -/
def State.biSnoop (s : State) (t : Target) (write : Bool) : State :=
  match s.filterOf t with
  | some f =>
    if (write || f.excl) && !(s.hif.snoops.any (fun x => x.line == f.line && (x.excl || !write))) then
      { s with hif := { s.hif with snoops := s.hif.snoops ++ [⟨f.line, write⟩] } }
    else s
  | none => s

end Sys2Proof.Machine
end

