-- ==== Sys2Proof/Machine/Mmu.lean ====
section
/-!
DEFINITION. Virtual to device translation: the walk of R234 to R236 and the held translations of R237. MMUs 0 to 23 are
the regions', MMU 24 is the control die's.
-/

namespace Sys2Proof.Machine

/-- How a translation or an access fails: TRANSLATION_FAULT, PROTECTION_FAULT, FAR_TIER_UNAVAILABLE or
ECC_UNCORRECTABLE by the page read; `wait` when a line of a table is held by the host (R335). -/
inductive MFault where
  | translation
  | protection
  | farTier
  | ecc
  | wait (t : Target)
deriving DecidableEq, Repr

/-- The bytes that a leaf at a level maps: 64 KiB, 2 MiB, 1 GiB (R234, R235). -/
def pageBits (level : Nat) : Nat := match level with | 0 => 16 | 1 => 21 | _ => 30

/-- The index of a virtual address at a level (R234). -/
def vaIndex (va level : Nat) : Nat :=
  match level with
  | 0 => bits va 16 5
  | 1 => bits va 21 9
  | 2 => bits va 30 9
  | 3 => bits va 39 9
  | _ => bits va 48 9

/-- R235, R236: the leaf an entry stands for at a level, or why it stands for none. -/
def leafOf (e level : Nat) : Except MFault Leaf :=
  let t := bits e 4 2
  let al : Nat := match level with | 0 => 1 | 1 => 32 | _ => 16384
  if bits e 6 10 ≠ 0 ∨ t = 3 ∨ level > 2 then .error .translation
  else
    let w := e.testBit 2
    let x := e.testBit 3
    match t with
    | 0 => if bits e 44 20 ≠ 0 ∨ bits e 16 28 % al ≠ 0 then .error .translation else .ok ⟨w, x, 0, bits e 16 28, 0⟩
    | 1 => if bits e 52 12 ≠ 0 ∨ bits e 16 36 % al ≠ 0 then .error .translation else .ok ⟨w, x, 1, bits e 16 36, 0⟩
    | _ =>
      if bits e 60 4 ≠ 0 ∨ bits e 16 28 % al ≠ 0 then .error .translation
      else .ok ⟨w, x, 2, bits e 16 28, bits e 44 16⟩

/-- R235: the next table's device address that a non-leaf entry of a level holds. -/
def nextTable (e level : Nat) : Except MFault Nat :=
  if bits e 4 12 ≠ 0 ∨ bits e 52 12 ≠ 0 ∨ (level > 1 ∧ bits e 16 4 ≠ 0) then .error .translation
  else .ok (bits e 16 36 * 256)

/-- Reading a table entry through its home shared cache (R236), which resolves the location at the slice MID on a miss
(R240, R245), by MMU `m`; an uncorrectable read stops the walk (R418). -/
def State.readPte (s : State) (m d : Nat) : Except MFault Nat × State :=
  if d ≥ 2 ^ 44 then (.error .translation, s)
  else if s.biHeld (.dev d) false then (.error (.wait (.dev d)), s)
  else
    match s.pageAns (d / 65536) with
    | .ok =>
      let r := s.takeBad (.dev d) 8
      (if r.2 then .error .ecc else .ok (leNat (s.devBytes d 8)), (r.1.scdTouch none (.dev d) false).flits m 8)
    | .unalloc => (.error .translation, s)
    | .lostSite => (.error .ecc, s)
    | .lostPort => (.error .farTier, s)

/-- The bytes that an entry of a level maps, as a power of two (R234). -/
def levelBits (level : Nat) : Nat := match level with | 0 => 16 | 1 => 21 | 2 => 30 | 3 => 39 | _ => 48

/-- R237: a non-leaf entry of a level held in the walk cache of an MMU. -/
def State.walkKeep (s : State) (m asc va level table : Nat) : State :=
  { s with walks := mapSet [] s.walks m (⟨asc, level, va / 2 ^ levelBits level, table⟩ :: mapGet [] s.walks m) }

/-- R236: the walk from a table at a level down to a leaf, by MMU `m` for an ASC; the non-leaf entries it reads are
held. -/
def State.walkFrom (m asc va : Nat) : Nat → State → Nat → Except MFault (Nat × Leaf) × State
  | 0, s, table =>
    match s.readPte m (table + 8 * vaIndex va 0) with
    | (.error f, s) => (.error f, s)
    | (.ok e, s) =>
      if !e.testBit 0 ∨ !e.testBit 1 then (.error .translation, s)
      else match leafOf e 0 with | .ok l => (.ok (0, l), s) | .error f => (.error f, s)
  | n + 1, s, table =>
    match s.readPte m (table + 8 * vaIndex va (n + 1)) with
    | (.error f, s) => (.error f, s)
    | (.ok e, s) =>
      if !e.testBit 0 then (.error .translation, s)
      else if e.testBit 1 then
        match leafOf e (n + 1) with | .ok l => (.ok (n + 1, l), s) | .error f => (.error f, s)
      else
        match nextTable e (n + 1) with
        | .ok t => State.walkFrom m asc va n (s.walkKeep m asc va (n + 1) t) t
        | .error f => (.error f, s)

/-- R237: the lowest held non-leaf entry of an MMU on the way to an address. -/
def State.walkFind (s : State) (m asc va : Nat) : Option WalkEnt :=
  [1, 2, 3, 4].findSome? (fun lv =>
    (mapGet [] s.walks m).find? (fun w => w.asc == asc && w.level == lv && w.vpage == va / 2 ^ levelBits lv))

/-- R236, R237, R279: the walk of an ASC by an MMU, from the lowest held entry on; an ASC without a root faults every
translation. -/
def State.walk (s : State) (m asc va : Nat) : Except MFault (Nat × Leaf) × State :=
  let root := s.fld .CFE_ASC_ROOT_root asc
  if va ≥ 2 ^ 57 ∨ root = 0 then (.error .translation, s)
  else
    match s.walkFind m asc va with
    | some w => State.walkFrom m asc va (w.level - 1) s w.table
    | none => State.walkFrom m asc va 4 s root

def State.tlb (s : State) (m : Nat) : List TlbEnt := mapGet [] s.tlbs m

/-- The held translation of a virtual address (R237). -/
def State.tlbFind (s : State) (m asc va : Nat) : Option TlbEnt :=
  (s.tlb m).find? (fun t => t.asc == asc && t.vpage == va / 2 ^ pageBits t.level)

/-- R237: a translation by an MMU: a held one, else a walk whose leaf is held; 2,048 are held, the oldest leaves. -/
def State.translate (s : State) (m asc va : Nat) : Except MFault (Nat × Leaf) × State :=
  match (if va < 2 ^ 57 then s.tlbFind m asc va else none) with
  | some t => (.ok (t.level, t.leaf), s)
  | none =>
    match s.walk m asc va with
    | (.ok (lv, lf), s) =>
      let e : TlbEnt := ⟨asc, lv, va / 2 ^ pageBits lv, lf⟩
      (.ok (lv, lf), { s with tlbs := mapSet [] s.tlbs m ((e :: s.tlb m).take 2048) })
    | (.error (.wait t), s) => (.error (.wait t), s.biSnoop t false)
    | (.error f, s) => (.error f, s)

/-- Where a virtual address leads through a leaf (R235, R359). -/
def Leaf.at (l : Leaf) (level va : Nat) : Target :=
  let a := l.addr * 65536 + va % 2 ^ pageBits level
  match l.target with
  | 0 => .dev a
  | 1 => .host a
  | _ => .peer l.dev a

/-- What an access needs of its leaf (R235). -/
inductive Need where
  | read
  | write
  | exec
deriving DecidableEq, Repr

/-- A translation with the permission check of R235, R236. -/
def State.access (s : State) (m asc va : Nat) (n : Need) : Except MFault Target × State :=
  match s.translate m asc va with
  | (.ok (lv, lf), s) =>
    let ok := match n with | .read => true | .write => lf.w | .exec => lf.x
    if ok then (.ok (lf.at lv va), s) else (.error .protection, s)
  | (.error f, s) => (.error f, s)

/-- R463, R240: the answer of the page behind a target: a fault only the answer reveals. -/
def State.answerOf (s : State) (t : Target) : Option MFault :=
  match t with
  | .dev d =>
    match s.pageAns (d / 65536) with
    | .ok => none
    | .unalloc => some .translation
    | .lostSite => some .ecc
    | .lostPort => some .farTier
  | _ => none

/-- Whether an entry that maps 2^`b` bytes from virtual page `v` on lies in a range; a length of 0 means the whole ASC.
-/
def inRange (v b start len : Nat) : Bool :=
  len == 0 || (decide (v * 2 ^ b < start + len) && decide (start < (v + 1) * 2 ^ b))

/-- R237: the held translations and walk-cache entries of an ASC and a virtual range dropped from every MMU. -/
def State.tlbInval (s : State) (asc start len : Nat) : State :=
  { s with
    tlbs := s.tlbs.filterMap (fun e =>
      let l := e.2.filter (fun t => !(t.asc == asc && inRange t.vpage (pageBits t.level) start len))
      if l.isEmpty then none else some (e.1, l))
    walks := s.walks.filterMap (fun e =>
      let l := e.2.filter (fun t => !(t.asc == asc && inRange t.vpage (levelBits t.level) start len))
      if l.isEmpty then none else some (e.1, l)) }

/-- R424, R203: what a region's MMU holds dropped at its reset. -/
def State.tlbDrop (s : State) (m : Nat) : State := { s with tlbs := mapErase s.tlbs m, walks := mapErase s.walks m }

end Sys2Proof.Machine
end

