-- ==== Sys2Proof/Machine/Front.lean ====
section
/-!
DEFINITION. The front end's bookkeeping of packets and queues: fields of packets (R266), completion (R267, R302),
completion records (R300, R301), stops and fault captures (R286, R303, R307, R309 to R311).
-/

namespace Sys2Proof.Machine

/-! ### Packets -/

/-- A packet as one number of 512 bits. -/
def Pkt.num (p : Pkt) : Nat := p.words.foldr (fun w a => w.toNat + 2 ^ 64 * a) 0

/-- Bytes `[off, off + n)` of a packet. -/
def Pkt.b (p : Pkt) (off n : Nat) : Nat := bits p.num (8 * off) (8 * n)

/-- The header fields of R266. -/
def Pkt.opcode (p : Pkt) : Nat := p.b 0 1
def Pkt.bstart (p : Pkt) : Bool := p.num.testBit 8
def Pkt.cmpl (p : Pkt) : Bool := p.num.testBit 9
def Pkt.irq (p : Pkt) : Bool := p.num.testBit 10
def Pkt.step (p : Pkt) : Nat := p.b 2 2
def Pkt.wcount (p : Pkt) : Nat := bits p.num 62 2
def Pkt.wait (p : Pkt) (i : Nat) : Nat := bits p.num (32 + 10 * i) 10
def Pkt.waits (p : Pkt) : List Nat := (List.range p.wcount).map p.wait

/-- A FENCE_WAIT that waits on a fence. -/
def Pkt.waitsFence (f : Nat) (p : Pkt) : Bool :=
  p.st == .running && p.opcode == 0x05 && p.fault == 0 && p.b 8 2 == f

/-- R268: whether a packet continues its queue's command buffer, or begins one. -/
def Pkt.stepOk (p : Pkt) (x : Queue) : Bool :=
  if p.bstart then p.step == 0 else !x.needB && p.step == x.prev + 1

/-- A queue after a packet fetched: one whose step is right takes its place in the buffer; another leaves the buffer as
it was (DEDUCED, log entry 35). -/
def Queue.after (x : Queue) (p : Pkt) : Queue :=
  if p.stepOk x then { x with needB := false, prev := p.step, skips := if p.bstart then [] else x.skips }
  else { x with skips := p.seq :: x.skips }

def State.pkt (s : State) (q seq : Nat) : Option Pkt := s.pool.find? (fun p => p.q == q && p.seq == seq)
def State.modPkt (s : State) (q seq : Nat) (f : Pkt → Pkt) : State :=
  { s with pool := s.pool.map (fun p => if p.q = q ∧ p.seq = seq then f p else p) }

def State.queue (s : State) (q : Nat) : Queue := mapGet Queue.init s.queues q
def State.setQueue (s : State) (q : Nat) (x : Queue) : State := { s with queues := mapSet Queue.init s.queues q x }

/-- CFE_Q_STATUS `state` values. -/
def qDisabled : Nat := 0
def qActive : Nat := 1
def qStopped : Nat := 2
def qFaulted : Nat := 3
def qDraining : Nat := 4

def State.qState (s : State) (q : Nat) : Nat := s.fld .CFE_Q_STATUS_state q

/-- The fault codes the front end gives (R285, R308, R244, R370, R422, R188). -/
def fcBadOpcode : Nat := 0x1001
def fcReserved : Nat := 0x1002
def fcBadStep : Nat := 0x1003
def fcBadWait : Nat := 0x1004
def fcOverrun : Nat := 0x1005
def fcBadLaunch : Nat := 0x1006
def fcBadRange : Nat := 0x1007
def fcBadChain : Nat := 0x1008
def fcBadIndex : Nat := 0x1009
def fcKernelOpcode : Nat := 0x2001
def fcFenceOwner : Nat := 0x2002
def fcAscState : Nat := 0x3001
def fcQueueState : Nat := 0x3002
def fcDpnState : Nat := 0x3003
def fcRegisterState : Nat := 0x3004
def fcRegionState : Nat := 0x3005
def fcFwState : Nat := 0x3006
def fcDepFailed : Nat := 0x4001
def fcWaitTimeout : Nat := 0x4002
def fcFeWaitExpired : Nat := 0x4003
def fcNoCapacity : Nat := 0x6001
def fcPinNoRoom : Nat := 0x6002
def fcFetchFault : Nat := 0x6003
def fcStepTranslation : Nat := 0x6004
def fcStepProtection : Nat := 0x6005
def fcStepTileCheck : Nat := 0x6006
def fcStepUncorrectable : Nat := 0x6007
def fcStepPageLost : Nat := 0x6008
def fcBudget : Nat := 0x7001
def fcAscDestroyed : Nat := 0x7002
def fcQueueReset : Nat := 0x7003
def fcRemoteDenied : Nat := 0x8001
def fcRemoteUnreachable : Nat := 0x8002
def fcCollTimeout : Nat := 0x8003
def fcCollMismatch : Nat := 0x8004
def fcCollAborted : Nat := 0x8005
def fcRemoteTileCheck : Nat := 0x8006
def fcRemoteError : Nat := 0x8007
def fcStoreLost : Nat := 0x9001
def fcRegionReset : Nat := 0x9002
def fcRegionQuarantined : Nat := 0x9003
def fcRegionPoweredDown : Nat := 0x9004

/-- R308: the code a step's failed access gives. -/
def stepCode : MFault → Nat
  | .translation => fcStepTranslation
  | .protection => fcStepProtection
  | .farTier => fcStepPageLost
  | .ecc => fcStepPageLost
  | .wait _ => 0

/-! ### Completion -/

/-- `done_seq` moved over the completed sequence numbers that follow it (R267). -/
def doneUp : Nat → Nat → List Nat → Nat × List Nat
  | 0, d, l => (d, l)
  | n + 1, d, l => if l.contains (d + 1) then doneUp n (d + 1) (l.erase (d + 1)) else (d, l)

/-- R267: a sequence number completed. -/
def State.seqDone (s : State) (q seq : Nat) : State :=
  let x := s.queue q
  let l := seq :: x.ahead
  let r := doneUp (l.length + 1) (s.fld .CFE_Q_DONE_done_seq q) l
  (s.setQueue q { x with ahead := r.2 }).setFld .CFE_Q_DONE_done_seq q r.1

/-- R314: a LAUNCH packet that completes, with or without a fault, counted in its tag's `kernels`. -/
def State.countLaunch (s : State) (p : Pkt) : State :=
  if p.opcode = 0x01 then s.meter (some p.acct) .CFE_ACCT_kernels 1 else s

/-- R267, R301, R302: a packet completes with a code: it leaves the pool, steps that wait on it see its outcome, and
where a record is due it joins the packets owed one. `fstep` is the step whose own fault began the chain. -/
def State.finishPkt (s : State) (p : Pkt) (code fstep : Nat) (stale cap : Bool) : State :=
  let staleEv := stale && p.b 12 1 % 2 == 1
  let rec_ := p.cmpl || code != 0 || staleEv
  let d : DonePkt :=
    { q := p.q, seq := p.seq, ns := s.now, code := code, fstep := if code = 0 then 0xFFFFFFFF else fstep
      acct := p.acct, opcode := p.opcode, record := rec_, irq := (p.irq && (p.cmpl || code != 0)) || staleEv
      stopped := p.fault != 0, locked := s.fld .TIM_STATUS_state 0 == 2, cap := cap, stale := stale, drain := false }
  let s : State := { s with
    pool := s.pool.filter (fun x => !(x.q == p.q && x.seq == p.seq))
    done := if rec_ then s.done ++ [d] else s.done
    fails :=
      if code = 0 then s.fails
      else ⟨p.q, p.seq, fstep⟩ :: s.fails.filter (fun f => f.q != p.q || decide (f.seq + 4096 > p.seq)
        || s.pool.any (fun x => x.q == f.q && x.deps.contains f.seq)) }
  (s.countLaunch p).seqDone p.q p.seq

/-! ### Completion areas -/

/-- R320, R331: whether the host answers CXL.cache requests. D3hot does not stop CXL.cache and CXL.mem (R322). -/
def State.hostUp (s : State) : Bool := s.hif.linkUp && !s.hif.pcie

/-- Whether the host can act on the device. -/
def State.hostThere (s : State) : Bool := s.pwr.pwrgood && !s.pwr.perst && !s.pwr.regsOff && s.hif.linkUp

/-- The lines of a device range that the host may hold (R335). -/
def State.heldIn (s : State) (a n : Nat) : List Nat :=
  (s.hif.filter.filter (fun f => decide (f.line * 128 < a + n) && decide (a < f.line * 128 + 128))).map (·.line)

/-- How a write to a completion area goes: performed, dropped, or waiting for the host to give up a line or for a frame.
-/
inductive AreaAns where
  | sent (s : State)
  | dropped (s : State)
  | wait (s : State)

/-- R304, R331, R335: one write to a completion area. -/
def State.areaOut (s : State) (host : Bool) (a : Nat) (bs : List Byte) : AreaAns :=
  if host then (if s.hostUp then .sent (s.wrCur a bs) else .dropped s)
  else
    match s.pageAns (a / 65536) with
    | .ok =>
      match s.heldIn a bs.length with
      | [] => (match s.homeWrite none (.dev a) bs none with | some s => .sent s | none => .wait s)
      | ls => .wait (s.each ls (fun s l => s.biSnoop (.dev (128 * l)) true))
    | _ => .dropped s

/-- R306: whether a queue has a vector. -/
def State.hasVec (s : State) (q : Nat) : Bool := s.flag .CFE_Q_IRQ_vector_en q

/-- R306: a queue's vector raised. -/
def State.raiseQ (s : State) (q : Nat) : State :=
  if s.hasVec q then s.raiseVec (s.fld .CFE_Q_IRQ_vector q) else s

/-- The oldest of a queue's record writes replaced, or with none ended. -/
def State.setAck (s : State) (a : RecWrite) (b : Option RecWrite) : State :=
  { s with acks := match b with | some b => s.acks.replace a b | none => s.acks.erase a }

/-- R304: the next write of a queue's completion area sent once the one before it is acknowledged; a write that cannot be
performed is dropped and counted; after the last acknowledgement the vector is raised. -/
def State.areaPump : Nat → State → Nat → State
  | 0, s, _ => s
  | n + 1, s, q =>
    match s.acks.find? (fun a => a.q == q) with
    | none => s
    | some a =>
      if a.sent then s
      else
        match a.writes with
        | [] => State.areaPump n (let s := s.setAck a none; if a.irq then s.raiseQ q else s) q
        | w :: t =>
          match s.areaOut a.host (a.base + w.1) w.2 with
          | .sent s => s.setAck a (some { a with writes := t, sent := true })
          | .dropped s => State.areaPump n ((s.satFld .CFE_Q_IRQ_records_lost q 1).setAck a (some { a with writes := t })) q
          | .wait s => s

/-- R304 for one queue. From a fatal stop or an orderly power-down on no write is made (R431, R450). -/
def State.areaNext (s : State) (q : Nat) : State :=
  if s.alive then State.areaPump ((s.acks.filter (fun a => a.q == q)).foldl (fun n a => n + a.writes.length + 1) 0) s q else s

/-- R304 for every queue. -/
def State.areaAll (s : State) : State := s.each ((s.acks.map (·.q)).eraseDups) State.areaNext

/-- R304: writes to a queue's completion area asked for. -/
def State.areaPut (s : State) (q : Nat) (writes : List (Nat × List Byte)) (irq : Bool) : State :=
  if !s.alive then s
  else
    ({ s with acks := s.acks ++ [⟨q, irq, s.flag .CFE_Q_CMPL_cmpl_host q, s.fld .CFE_Q_CMPL_cmpl_base q, writes, false⟩]
      } : State).areaNext q

/-- One write to a queue's completion area, with no interrupt of its own. -/
def State.areaWrite (s : State) (q off : Nat) (bs : List Byte) : State := s.areaPut q [(off, bs)] false

/-- R304: the acknowledgement of the write of a queue's completion area that was sent. -/
def State.areaAcked (s : State) (q : Nat) : State :=
  match s.acks.find? (fun a => a.q == q) with
  | some a => (if a.sent then s.setAck a (some { a with sent := false }) else s).areaNext q
  | none => s

/-- R301: a completion record. -/
def recordBytes (seq ns status fault q acct fstep : Nat) : List Byte :=
  let l := natLe 8 seq ++ natLe 8 ns ++ natLe 2 status ++ natLe 2 fault ++ natLe 2 q ++ natLe 2 acct ++ natLe 4 fstep
  l ++ natLe 4 (crc32c l)

/-- R301: the status word. -/
def statusWord (failed stopped irq stopRec locked cap stale drain : Bool) (opcode : Nat) : Nat :=
  b2n failed + 2 * b2n stopped + 4 * b2n irq + 8 * b2n stopRec + 16 * b2n locked + 32 * b2n cap + 64 * b2n stale
    + 128 * b2n drain + 256 * opcode

/-- R300: CREATE's writing of the area: LAST, FAULT and the history hold a record with sequence number 0, all other
bytes are zero. -/
def State.areaInit (s : State) (q : Nat) : State :=
  let r := recordBytes 0 0 0 0 q 0 0xFFFFFFFF
  s.areaWrite q 0 (r ++ r ++ List.replicate (0x800 - 0x40) 0 ++ (List.replicate 64 r).flatten)

/-! ### Captures and stops -/

/-- R311: an engine entry. -/
def engineEntry (kind lo hi : Nat) : List Byte := natLe 2 kind ++ natLe 6 lo ++ natLe 8 hi

/-- R309, R310: a capture taken into the ring. -/
def State.capture (s : State) (q : Nat) (p : Option Pkt) (code : Nat) (budget : Bool) (epoch : Nat)
    (entries : List (List Byte)) : State × List Byte :=
  let bs :=
    natLe 8 ((p.map (·.seq)).getD 0) ++ natLe 8 ((p.map (·.addr)).getD 0) ++ natLe 2 code ++ natLe 2 q
      ++ natLe 1 (s.fld .CFE_Q_CFG_asc q)
      ++ natLe 1 (b2n ((p.map (·.ind)).getD false) + 2 * b2n (decide (entries.length > 9)) + 4 * b2n budget)
      ++ natLe 2 ((p.map (·.acct)).getD (s.fld .CFE_Q_CFG_acct q)) ++ natLe 8 s.now
      ++ natLe 64 ((p.map (·.num)).getD 0) ++ natLe 4 epoch ++ natLe 4 (min entries.length 9) ++ natLe 8 0
      ++ ((entries.take 9).flatten ++ List.replicate (144 - 16 * min entries.length 9) 0)
  let n := s.fld .CFE_CAPTURE_STATUS_next 0
  let s := s.setFld .CFE_CAPTURE_capture n (leNat bs)
  ((s.setFld .CFE_CAPTURE_STATUS_next 0 (n + 1)).satFld .CFE_CAPTURE_STATUS_count 0 1, bs)

/-- R286, R303, R307: a queue stops: FAULTED, the code, sequence number and step recorded, the ASC's fault record, the
capture and the stop record written, the vector raised once the record is acknowledged. -/
def State.stopQueue (s : State) (q : Nat) (p : Option Pkt) (code step : Nat) (epoch : Nat)
    (entries : List (List Byte)) : State :=
  let asc := s.fld .CFE_Q_CFG_asc q
  let seq := (p.map (·.seq)).getD 0
  let s := s.setFlds q [(.CFE_Q_STATUS_state, qFaulted), (.CFE_Q_STATUS_fault_code, code), (.CFE_Q_FAULT_SEQ_seq, seq),
    (.CFE_Q_FAULT_STEP_step, if p.isSome then step else 0xFFFF), (.CFE_Q_FAULT_STEP_none, b2n p.isNone),
    (.CFE_Q_STATUS_idle, 0)]
  let s :=
    if s.flag .CFE_ASC_FAULT_valid asc then s
    else s.setFlds asc [(.CFE_ASC_FAULT_first_code, code), (.CFE_ASC_FAULT_first_queue, q), (.CFE_ASC_FAULT_valid, 1)]
  let s := s.satFld .CFE_ASC_FAULT_count asc 1
  let r := s.capture q p code false epoch entries
  let s := r.1
  let st := statusWord true true (s.hasVec q) true (s.fld .TIM_STATUS_state 0 == 2) true false false
    ((p.map (·.opcode)).getD 0)
  let rec_ := recordBytes seq s.now st code q ((p.map (·.acct)).getD (s.fld .CFE_Q_CFG_acct q))
    (if p.isSome then step else 0xFFFFFFFF)
  s.areaPut q [(0x100, r.2), (0x20, rec_)] true

/-- R307: whether a code stops its queue. -/
def State.stops (s : State) (code : Nat) : Bool :=
  if code = fcDepFailed ∨ code = fcQueueReset ∨ code = fcAscDestroyed ∨ code = 0 then false
  else if code = fcStoreLost then s.flag .CFG_QUEUE_FAULTS_store_lost_stops 0
  else true

/-- The key of a word's full/empty bit. -/
def State.feKey (s : State) (d : Nat) : Option Nat := (s.frameKey (d / 65536)).map (fun k => 8192 * k + d % 65536 / 8)

/-- Whether a word is full (R164: empty unless set). -/
def State.isFull (s : State) (d : Nat) : Bool :=
  match s.feKey d with
  | some k => mapGet 0 s.full k == 1
  | none => false

/-- R311: the engine entry of an FE_WAIT. -/
def State.feWaitEntry (s : State) (p : Pkt) : List Byte :=
  let full := match (s.access 24 (s.fld .CFE_Q_CFG_asc p.q) (p.b 8 8) .read).1 with | .ok (.dev d) => s.isFull d | _ => false
  engineEntry 5 (b2n full) (p.b 8 8)

/-- R311: the engine entries of a packet's failure: an FE_WAIT always has its own. -/
def State.entriesOf (s : State) (p : Pkt) (l : List (List Byte)) : List (List Byte) :=
  if p.opcode = 0x06 ∧ l.isEmpty then [s.feWaitEntry p] else l

/-- A packet fails with its own fault (R286, R307): it stops its queue and stays pooled until RESUME or RESET; in a
queue that has stopped already, and for a code that stops none, it completes failed; the expiry of its budget has taken
a capture (R301, R309). -/
def State.failPkt (s : State) (p : Pkt) (code epoch : Nat) (entries : List (List Byte)) : State :=
  let st := s.qState p.q
  if s.stops code && (st == qActive || st == qStopped) then
    (s.modPkt p.q p.seq (fun x => { x with st := .running, fault := code })).stopQueue p.q (some p) code p.step epoch
      (s.entriesOf p entries)
  else s.finishPkt p code p.step false (code == fcBudget)

/-- A packet ends with a code, 0 for success. -/
def State.endPkt (s : State) (p : Pkt) (code : Nat) : State :=
  if code = 0 then s.finishPkt p 0 0 false false else s.failPkt p code 0 []

/-- The code with which a translated and answered access fails a step, or none. -/
def State.stepAnswer (s : State) (t : Target) : Option Nat := (s.answerOf t).map stepCode

end Sys2Proof.Machine
end

