-- ==== Sys2Proof/Machine/Fe.lean ====
section
/-!
DEFINITION. Full/empty operations at the die that holds the word (R163 to R168, R240, R361), and the delivery of their
replies to lanes, packets and peers.
-/

namespace Sys2Proof.Machine

/-- F2 operations of the full/empty class (R52), and FE_WAIT in its two modes (R275). -/
def feTakeOp : Nat := 0x20
def fePeekOp : Nat := 0x21
def fePutOp : Nat := 0x22
def feUpdateOp : Nat := 0x23
def feClearOp : Nat := 0x24
def feWaitPeek : Nat := 0x30
def feWaitTake : Nat := 0x31

/-- R163: whether an operation writes the word or changes its bit (R235). -/
def feWrites (op : Nat) : Bool := !(op == fePeekOp || op == feWaitPeek)

/-- R163: whether an operation returns the word. -/
def feReturns (op : Nat) : Bool := op == feTakeOp || op == fePeekOp || op == feWaitPeek || op == feWaitTake

/-- R163: whether an operation proceeds on a word by its bit. -/
def feCan (op : Nat) (full : Bool) : Bool :=
  if op = feClearOp then true else if op = fePutOp then !full else full

/-- R240, R167: the die that holds the word of a device address: MID 0 to 3, FTA 4, FTB 5. -/
def State.feDie (s : State) (d : Nat) : Nat :=
  let l := (s.loc (d / 65536)).loc
  if l < 12 then l / 3 else 4 + (l - 12) / 2

/-- R167: waiting operations a die holds. -/
def feCap (die : Nat) : Nat := if die < 4 then 16384 else 4096

/-- R227: a full/empty operation at FTA or FTB goes through the die's write-back cache of 2,048 sync-shadow lines, each
of 1,024 words: the line is brought to the front, and the oldest of 2,049 leaves. Which one leaves is the model's
choice; log entry 46. -/
def State.feLine (s : State) (d : Nat) (write : Bool) : State :=
  let die := s.feDie d
  match s.feKey d with
  | some k =>
    if die < 4 then s
    else
      let l := mapGet [] s.feLines die
      let dirty := write || (match l.find? (fun e => e.1 == k / 1024) with | some e => e.2 | none => false)
      { s with feLines := mapSet [] s.feLines die (((k / 1024, dirty) :: l.filter (fun e => e.1 != k / 1024)).take 2048) }
  | none => s

/-- The sync-shadow lines of a frame dropped from the caches of the far-tier dies. -/
def State.feForget (s : State) (frame : Nat) : State :=
  { s with feLines := s.feLines.filterMap (fun e =>
      let l := e.2.filter (fun x => x.1 / 8 != frame)
      if l.isEmpty then none else some (e.1, l)) }

/-- R163: a word's bit set; the sync-shadow line of a migrating page becomes dirty (R251). -/
def State.setFull (s : State) (d : Nat) (v : Bool) : State :=
  match s.feKey d with
  | some k =>
    ({ s with full := mapSet 0 s.full k (b2n v) }).migDirty (d / 65536) (513 + d % 65536 / 8192)
  | none => s

/-- Who acts, for the reservations a full/empty write cancels (R160). -/
def FeSrc.who : FeSrc → Who
  | .cell c sl _ ln => some (c, sl, ln)
  | _ => none

/-- R163: the effect of an operation that proceeds: the state and the word it returns. -/
def State.feApply (s : State) (d op data : Nat) (w : Who) : State × Nat :=
  let v := leNat (s.devBytes d 8)
  let s := if op = fePutOp ∨ op = feUpdateOp then s.putDev d (natLe 8 data) w else s
  let s :=
    if op = fePutOp then s.setFull d true
    else if op = feTakeOp ∨ op = feWaitTake ∨ op = feClearOp then s.setFull d false
    else s
  (s, v)

/-- The state of one lane of a cell's request set. -/
def State.setLane (s : State) (c id lane : Nat) (st : LaneSt) : State :=
  s.modCell c (fun x => { x with reqs := x.reqs.map (fun r =>
    if r.id = id then { r with lanes := r.lanes.map (fun l => if l.lane = lane then { l with st := st } else l) }
    else r) })

/-- Where FE_WAIT writes the word: its `dst` through the queue's ASC (R275), none for 0; the state holds what the
translation read and keeps (R236, R237). -/
def State.feDst (s : State) (p : Pkt) : Option (Except MFault Target) × State :=
  let dst := p.b 24 8
  if dst = 0 then (none, s)
  else
    let r := s.access 24 (s.fld .CFE_Q_CFG_asc p.q) dst .write
    (some r.1, r.2)

/-- Whether a packet's FE_WAIT can be completed now: no line its result needs is held by the host (R335). -/
def State.feDstReady (s : State) (p : Pkt) : Bool :=
  match (s.feDst p).1 with
  | some (.error (.wait _)) => false
  | some (.ok t) =>
    !s.biHeld t true && (match t with | .dev d => (s.answerOf t).isSome || (s.place (d / 65536)).isSome | _ => true)
  | _ => true

/-- The snoop that an FE_WAIT's `dst` waits for (R335). -/
def State.feDstSnoop (s : State) (p : Pkt) : State :=
  match s.feDst p with
  | (some (.error (.wait t)), s) => s.biSnoop t false
  | (some (.ok t), s) => s.biSnoop t true
  | (_, s) => s

/-- R275: FE_WAIT performed: the word goes to `dst` and the step ends. -/
def State.feWaitDone (s : State) (p : Pkt) (v : Nat) : State :=
  match s.feDst p with
  | (none, s) => s.endPkt p 0
  | (some (.error f), s) => s.failPkt p (stepCode f) 0 [engineEntry 5 1 (p.b 8 8)]
  | (some (.ok t), s) =>
    match s.stepAnswer t with
    | some code => s.failPkt p code 0 [engineEntry 5 1 (p.b 8 8)]
    | none =>
      match t with
      | .host h => ((s.wrCur h (natLe 8 v)).hostDrop (some p.q) (.host h)).endPkt p 0
      | .peer i d =>
        let f := { Frame.blank with dst := BitVec.ofNat 16 i, addr := BitVec.ofNat 64 d, data := natLe 8 v }
        (match s.sendReq none (some p.acct) ftWrReq f (.piece p.q p.seq 0) with
          | some s' => s'.modPkt p.q p.seq (fun x => { x with pos := 1 })
          | none => s.failPkt p fcRemoteUnreachable 0 [engineEntry 5 1 (p.b 8 8)])
      | t =>
        match s.homeWrite (some p.acct) t (natLe 8 v) none with
        | some s' => s'.endPkt p 0
        | none => s.endPkt p 0

/-- The reply of a full/empty operation delivered to whoever waits. -/
def State.feDeliver (s : State) (src : FeSrc) (op v : Nat) : State :=
  match src with
  | .cell c _ id ln => s.setLane c id ln (.done v)
  | .packet q seq =>
    (match s.pkt q seq with
      | some p => s.feWaitDone p v
      | none => s)
  | .peer dev tid _ ep =>
    s.sendOrDrop ftFeRsp { Frame.blank with
      dst := BitVec.ofNat 16 dev, tid := BitVec.ofNat 16 tid, tepoch := BitVec.ofNat 8 ep, vc := true
      data := if feReturns op then natLe 8 v else [] }

/-- Whether a waiting operation can proceed now. -/
def State.feReady (s : State) (w : FeWaiter) : Bool :=
  feCan w.op (s.isFull w.word) &&
    (match w.src with
      | .packet q seq => (match s.pkt q seq with | some p => s.feDstReady p | none => true)
      | _ => true)

/-- R165: the waiters of a word served from the oldest, over and over until none can proceed. -/
def State.feServe : Nat → State → Nat → State
  | 0, s, _ => s
  | n + 1, s, d =>
    match s.waiters.find? (fun w => w.word == d && s.feReady w) with
    | none => s
    | some w =>
      let r := s.feApply d w.op w.data w.src.who
      let s : State := { r.1 with waiters := r.1.waiters.erase w }
      State.feServe n (s.feDeliver w.src w.op r.2) d

/-- R165 for one word. -/
def State.feServeWord (s : State) (d : Nat) : State := State.feServe (s.waiters.length + 1) s d

/-- R165 for every word with a waiter. -/
def State.feServeAll (s : State) : State := s.each ((s.waiters.map (·.word)).eraseDups) State.feServeWord

/-- What an operation meets on its arrival at the holding die. -/
inductive FeAns where
  | fault (f : MFault)
  | notSync
  | served
  | waits
  | returned
deriving DecidableEq, Repr

/-- R165, R167: an operation arrives at the holding die: it is served if it can proceed, else it waits, or is returned by
a full table. `since` is when it was first refused (R168). -/
def State.feArrive (s : State) (d op data : Nat) (src : FeSrc) (since asc : Nat) : State × FeAns :=
  let t := Target.dev d
  match s.answerOf t with
  | some f => (s, .fault f)
  | none =>
    if !(s.loc (d / 65536)).sync then (s, .notSync)
    else
      let s := (s.heatTouch (d / 65536)).feLine d (feWrites op && op != feUpdateOp)
      let die := s.feDie d
      let w : FeWaiter := ⟨die, d, op, src, data, since, asc⟩
      if s.feReady w then
        let r := s.feApply d op data src.who
        ((r.1.feDeliver src op r.2).feServeWord d, .served)
      else if (s.waiters.filter (fun x => x.die == die)).length ≥ feCap die then
        let s := if die < 4 then s.satFld .MEM_MID_FE_returns die 1 else s.satFld .FTP_DIE_FE_returns (2 * (die - 4)) 1
        (s, .returned)
      else ({ s with waiters := s.waiters ++ [w] }, .waits)

/-- Waiters withdrawn (R68, R168, R241, R312). -/
def State.feWithdraw (s : State) (p : FeWaiter → Bool) : State := { s with waiters := s.waiters.filter (fun w => !p w) }

/-- The waiters of a cell. -/
def FeWaiter.ofCell (c : Nat) (w : FeWaiter) : Bool :=
  match w.src with
  | .cell c' _ _ _ => c' == c
  | _ => false

end Sys2Proof.Machine
end

