-- ==== Sys2Proof/Machine/CellMem.lean ====
section
/-!
DEFINITION. The memory side of a cell and its block: L1 (R150, R190), block L2 (R149, R156, R172), the combining buffer
(R169, R170), lost stores (R186, R187).
-/

namespace Sys2Proof.Machine

/-! ### Lost stores -/

/-- R187: one lost unit: counted in each cell that wrote its bytes and for each group charged, whose lanes lose their
reservations; the kernel is marked (R188). -/
def State.lostUnit (s : State) (cells : List Nat) (groups : List (Nat × Nat)) : State :=
  let s := s.each cells (fun s c =>
    let s := s.satFld .CEL_STORE_LOST_count c 1
    s.modKernel (s.block (blockOf c)).kern (fun x => { x with lost := true }))
  s.each groups (fun s p =>
    (s.dropResv (fun r => r.cell == p.1 && r.slot == p.2)).modCell p.1 (fun x =>
      { x with groups := x.groups.map (fun e => if e.1 = p.2 then (e.1, { e.2 with storeLost := e.2.storeLost + 1 }) else e) }))

/-- The occupied slots of a cell, as charged groups. -/
def State.groupsOf (s : State) (c : Nat) : List (Nat × Nat) := (s.cell c).groups.map (fun e => (c, e.1))

/-! ### Lines -/

/-- A line's nonzero bytes by offset. -/
def lineData (bs : List Byte) : NMap Byte :=
  (List.range bs.length).filterMap (fun i => let b := bs.getD i 0; if b = 0 then none else some (i, b))

/-- The bytes `[off, off + n)` of a line. -/
def CLine.bytes (l : CLine) (off n : Nat) : List Byte := bytesAt l.data off n

/-- Runs of consecutive offsets with their bytes. -/
def runsOf : List (Nat × Byte) → List (Nat × List Byte)
  | [] => []
  | (o, b) :: t =>
    match runsOf t with
    | (o', bs) :: r => if o + 1 = o' then (o, b :: bs) :: r else (o, [b]) :: (o', bs) :: r
    | [] => [(o, [b])]

/-- The number of a writing lane in a block: 1 + 512 × cell + 32 × slot + lane. -/
def writerNo (c slot lane : Nat) : Nat := 1 + 512 * (c % 9) + 32 * slot + lane

/-- The lane of a block that a writer number stands for; 0 stands for none or several. -/
def writerOf (b n : Nat) : Who :=
  if n = 0 then none else some (9 * b + (n - 1) / 512, (n - 1) % 512 / 32, (n - 1) % 32)

/-- R149, R154, R160: the mark of a dirty byte, 0 if it was clean, once a cell writes it as a writer number: every cell
that wrote it since its last write-back, and the lane while it is one. -/
def dirtyMark (old c w : Nat) : Nat :=
  if old = 0 then 2 ^ (c % 9) + 512 * w
  else (old % 512 ||| 2 ^ (c % 9)) + 512 * (if old / 512 = w then w else 0)

/-- Runs of consecutive offsets that one writer wrote, with their bytes and the writer's key. -/
def runsBy : List (Nat × Byte × Nat) → List (Nat × List Byte × Nat)
  | [] => []
  | (o, b, k) :: t =>
    match runsBy t with
    | (o', bs, k') :: r => if o + 1 = o' ∧ k = k' then (o, b :: bs, k) :: r else (o, [b], k) :: (o', bs, k') :: r
    | [] => [(o, [b], k)]

/-- R198: a way for a new line, avoiding busy ways: the register is advanced up to 16 times more. The way, if one was
found, and the register after. -/
def pickLoop (ways : Nat) (busy : Nat → Bool) : Nat → Nat → Option Nat × Nat
  | 0, r => (none, r)
  | n + 1, r =>
    let r := lfsrStep r
    if busy (r % ways) then pickLoop ways busy n r else (some (r % ways), r)

/-- R198: the allocation of a line; one that `waits` already takes the first way that is free. -/
def Cache.pickFree (c : Cache) (set ways : Nat) (waits : Bool) (busy : Nat → Bool) : Option Nat × Nat :=
  match firstBelow ways (fun w => (mapFind c.lines (set * ways + w)).isNone) with
  | some w => (some w, c.lfsr)
  | none =>
    if waits then (firstBelow ways (fun w => !busy w), c.lfsr) else pickLoop ways busy 17 c.lfsr

/-! ### Block L2 (1,024 sets of 8 ways) -/

/-- A number for a byte of this device or its host: lines as `Target.line` counts them. -/
def Target.key (t : Target) : Nat := 128 * t.line + t.addr % 128

/-- The byte of a number. -/
def keyTarget (k : Nat) : Target := (lineTarget (k / 128)).plus (k % 128)

/-- Bytes that a lost store still brought to its target. -/
def State.landed (s : State) (t : Target) (bs : List Byte) : State :=
  match t with
  | .dev d => if (s.phys d).isSome then (s.putDev d bs none).chkNonTiles d bs.length else s
  | .host h => s.wrCur h bs
  | .peer _ _ => s

/-- R429: bytes, by number, of lost stores to this device or its host: each aligned 8-byte word of them keeps its earlier
value or holds the stored one, openly (log entry 2). -/
def State.mayLand (s : State) (m : NMap Byte) : State :=
  let ws := (m.map (fun e => e.1 / 8)).eraseDups
  let open' := fun i => s.freeAt i % 2 == 1
  (s.each ws.zipIdx (fun s e =>
    if open' e.2 then
      s.each (runsOf (mapRange m (8 * e.1) (8 * e.1 + 8))) (fun s r => s.landed (keyTarget r.1) r.2)
    else s)).drew ws.length

/-- The dirty bytes of a line by number. -/
def CLine.lostBytes (l : CLine) : NMap Byte :=
  l.dirty.map (fun e => (128 * l.addr + e.1, mapGet 0 l.data e.1))

/-- Consecutive bytes from a target by number; none of them is a peer's. -/
def Target.numbered (t : Target) (bs : List Byte) : NMap Byte :=
  match t with
  | .peer _ _ => []
  | _ => bs.zipIdx.map (fun e => (t.key + e.2, e.1))

/-- The bytes of a combining entry by number; none of them is a peer's. -/
def CombEnt.lostBytes (e : CombEnt) : NMap Byte :=
  match e.tgt with
  | .peer _ _ => []
  | t => e.bytes.map (fun x => (t.key + x.1, x.2))

/-- The queue of the kernel that a block runs. -/
def State.blockQueue (s : State) (b : Nat) : Option Nat := (s.kernel? (s.block b).kern).map (·.q)

/-- The queue of the kernel that a cell's block runs. -/
def State.cellQueue (s : State) (c : Nat) : Option Nat := s.blockQueue (blockOf c)

/-- How the write-back of a unit ends. -/
inductive WbAns where
  | done (s : State)
  | wait (s : State)

/-- The dirty runs of a line written to its home; the unit is lost where the page does not answer (R240, R187) or the
shared cache's fill for a part of the line is uncorrectable (R222). It waits while the host holds the line (R335). -/
def State.lineOut (s : State) (b : Nat) (tag : Option Nat) (l : CLine) : WbAns :=
  let t := lineTarget l.addr
  if l.dirty.isEmpty then .done s
  else if s.biHeld t true then .wait (s.biSnoop t true)
  else if (s.answerOf t).isSome then
    let m := l.dirty.foldl (fun a e => a ||| e.2) 0
    let cs := ((List.range 9).filter (fun i => m.testBit i)).map (fun i => 9 * b + i)
    .done ((s.mayLand l.lostBytes).lostUnit cs (cs.flatMap s.groupsOf))
  else
    let x := if l.dirty.length < 128 then s.takeBad t 128 else (s, false)
    let s := x.1
    if x.2 then
      let m := l.dirty.foldl (fun a e => a ||| e.2) 0
      let cs := ((List.range 9).filter (fun i => m.testBit i)).map (fun i => 9 * b + i)
      .done (s.lostUnit cs (cs.flatMap s.groupsOf))
    else
    let runs := runsBy (l.dirty.map (fun e => (e.1, mapGet 0 l.data e.1, e.2)))
    match runs.foldl (fun (a : Option State) r =>
        a.bind (fun s => s.homeWrite tag (t.plus r.1) r.2.1 (writerOf b (r.2.2 / 512)))) (some s) with
    | some s' => .done ((s'.hostDrop (s.blockQueue b) t).flits (b / 12) l.dirty.length)
    | none => .wait s

/-- The key and content of a line in a block L2. -/
def State.l2Find (s : State) (b : Nat) (t : Target) : Option (Nat × CLine) :=
  let set := t.addr / 128 % 1024
  let c := (s.block b).l2
  match c.wayOf set 8 t.line with
  | some w => (mapFind c.lines (set * 8 + w)).map (fun l => (set * 8 + w, l))
  | none => none

/-- R156: whether a line is present in the block L2 and not stale for a cell. -/
def State.l2Fresh (s : State) (c : Nat) (t : Target) : Bool :=
  match s.l2Find (blockOf c) t with
  | some (_, l) => !l.stale.testBit (c % 9)
  | none => false

/-- A line of a block L2 replaced or, with none, invalidated. -/
def State.l2Put (s : State) (b key : Nat) (l : Option CLine) : State :=
  s.modBlock b (fun x => { x with l2 := { x.l2 with lines :=
    (match l with | some l => mapIns x.l2.lines key l | none => mapErase x.l2.lines key) } })

/-- The whole line of a target read at its home. -/
def State.homeLine (s : State) (t : Target) : List Byte :=
  s.targetBytes (lineTarget t.line) 128

/-- A fill of the block L2 from the home: its traffic and its miss counted (R35). -/
def State.l2Miss (s : State) (c : Nat) (t : Target) : State :=
  ((s.homeTouch (s.cellAcct c) t).cellPmc c 0x05 1).flits (regionOf c) 128

/-- R156: a line present in the block L2 that is stale for a cell fetched again: the bytes that cells hold dirty are
kept, the cell's mark goes. -/
def State.l2Refresh (s : State) (c : Nat) (t : Target) : WbAns :=
  match s.l2Find (blockOf c) t with
  | none => .done s
  | some (key, l) =>
    if !l.stale.testBit (c % 9) then .done s
    else if s.biHeld t false then .wait (s.biSnoop t false)
    else
      let data := l.dirty.foldl (fun d e => mapSet 0 d e.1 (mapGet 0 l.data e.1)) (lineData (s.homeLine t))
      .done ((s.l2Miss c t).l2Put (blockOf c) key (some { l with data := data, stale := l.stale - 2 ^ (c % 9) }))

/-- R198, R335: whether the write-back of a way of a block L2 cannot go on because the host holds its line. -/
def State.l2Busy (s : State) (b set w : Nat) : Bool :=
  match mapFind (s.block b).l2.lines (set * 8 + w) with
  | some v => !v.dirty.isEmpty && s.biHeld (lineTarget v.addr) true
  | none => false

/-- The snoops for the lines of a set whose write-back waits (R335). -/
def State.l2Snoops (s : State) (b set : Nat) : State :=
  s.each (List.range 8) (fun s w =>
    match mapFind (s.block b).l2.lines (set * 8 + w) with
    | some v => if s.l2Busy b set w then s.biSnoop (lineTarget v.addr) true else s
    | none => s)

/-- R198: a way for a new line of a block L2 with its victim written back: the state and the way, or the allocation
waits, its advances of the register kept. -/
def State.l2Way (s : State) (b : Nat) (tag : Option Nat) (t : Target) : State × Option Nat :=
  let set := t.addr / 128 % 1024
  let x := s.block b
  let p := x.l2.pickFree set 8 (x.alloc.contains t.line) (s.l2Busy b set)
  let s := s.modBlock b (fun x => { x with l2 := { x.l2 with lfsr := p.2 } })
  let hold := fun (s : State) => s.modBlock b (fun x => { x with alloc := t.line :: x.alloc.filter (· != t.line) })
  match p.1 with
  | none => (hold (s.l2Snoops b set), none)
  | some w =>
    match mapFind x.l2.lines (set * 8 + w) with
    | none => (s, some w)
    | some v =>
      match s.lineOut b tag v with
      | .wait s => (hold s, none)
      | .done s => (s, some w)

/-- R156, R190, R198: the line of a target made present and fresh for a cell: a miss or a stale line is fetched from the
home; it waits while the host holds the line or no way is free. -/
def State.l2Ensure (s : State) (c : Nat) (t : Target) : WbAns :=
  let b := blockOf c
  match s.l2Find b t with
  | some _ => s.l2Refresh c t
  | none =>
    if s.biHeld t false then .wait (s.biSnoop t false)
    else
      match s.l2Way b (s.cellAcct c) t with
      | (s, none) => .wait s
      | (s, some w) =>
        let s := (s.l2Miss c t).modBlock b (fun x => { x with alloc := x.alloc.filter (· != t.line) })
        .done (s.l2Put b (t.addr / 128 % 1024 * 8 + w) (some ⟨t.line, lineData (s.homeLine t), [], 0, 0⟩))

/-- A write into a line present in a block L2: the bytes, their writer (R149) by cell and writer number, and whether they
become dirty. -/
def State.l2Poke (s : State) (c w : Nat) (t : Target) (bs : List Byte) (dirty : Bool) : State :=
  match s.l2Find (blockOf c) t with
  | none => s
  | some (key, l) =>
    let off := t.addr % 128
    let l' := { l with
      data := putBytes l.data off bs
      dirty := (List.range bs.length).foldl (fun d i =>
        if dirty then mapIns d (off + i) (dirtyMark (mapGet 0 d (off + i)) c w) else mapErase d (off + i)) l.dirty
      time := if l.dirty.isEmpty then s.now else l.time }
    s.l2Put (blockOf c) key (some l')

/-- R157: the line of a target written back and invalidated in the block L2. -/
def State.l2Evict (s : State) (c : Nat) (t : Target) : WbAns :=
  match s.l2Find (blockOf c) t with
  | none => .done s
  | some (key, l) =>
    match s.lineOut (blockOf c) (s.cellAcct c) l with
    | .wait s => .wait s
    | .done s => .done (s.l2Put (blockOf c) key none)

/-- Lines of a block L2, from `keys`, whose dirty bytes `cells` wrote (mask), written back; whether all went. -/
def State.l2Clean (s : State) (b mask : Nat) : List (Nat × CLine) → State × Bool
  | [] => (s, true)
  | (key, l) :: t =>
    let mine := l.dirty.filter (fun e => e.2 &&& mask != 0)
    if mine.isEmpty then s.l2Clean b mask t
    else
      match s.lineOut b ((s.kernel? (s.block b).kern).map (·.acct)) { l with dirty := mine } with
      | .wait s => ((s.l2Clean b mask t).1, false)
      | .done s =>
        (s.l2Put b key (some { l with dirty := l.dirty.filter (fun e => e.2 &&& mask == 0) })).l2Clean b mask t

/-- R154: every dirty byte that a cell wrote into the block L2 written back. -/
def State.l2CleanCell (s : State) (c : Nat) : State × Bool :=
  s.l2Clean (blockOf c) (2 ^ (c % 9)) (s.block (blockOf c)).l2.lines

/-- R154: every line of the block L2 marked stale for a cell. -/
def State.l2Stale (s : State) (c : Nat) : State :=
  let mark := fun (e : Nat × CLine) => (e.1, { e.2 with stale := e.2.stale ||| 2 ^ (c % 9) })
  s.modBlock (blockOf c) (fun x => { x with l2 := { x.l2 with lines := x.l2.lines.map mark } })

/-! ### L1 (128 sets of 4 ways, by virtual address) -/

/-- The L1 line of a virtual address invalidated. -/
def State.l1Drop (s : State) (c va : Nat) : State :=
  s.modCell c (fun x => { x with l1 := { x.l1 with lines := x.l1.lines.filter (fun e => e.2.addr != va / 128) } })

/-- Every L1 line of a cell invalidated (R150, R154, L1INV); the register keeps its value. -/
def State.l1Inval (s : State) (c : Nat) : State := s.modCell c (fun x => { x with l1 := { x.l1 with lines := [] } })

/-- The instruction cache invalidated (R150, ICINV). -/
def State.icInval (s : State) (c : Nat) : State := s.modCell c (fun x => { x with ic := { x.ic with lines := [] } })

/-- The L1 line that holds a virtual address. -/
def Cell.l1Find (x : Cell) (va : Nat) : Option (Nat × CLine) :=
  x.l1.lines.find? (fun e => e.2.addr == va / 128)

/-- Whether a lane's access of a line goes to memory: no cache on its way holds the line fresh (R156). -/
def State.goesOut (s : State) (c : Nat) (l : LaneOp) : Bool :=
  ((s.cell c).l1Find l.va).isNone && !s.l2Fresh c l.tgt
    && ((s.scd (homeOf l.tgt.addr)).wayOf (l.tgt.addr / 128 % 98304) 16 l.tgt.line).isNone

/-- A line brought into the L1 (R198). -/
def State.l1Fill (s : State) (c va : Nat) (bs : List Byte) : State :=
  s.modCell c (fun x =>
    let set := va / 128 % 128
    let p := x.l1.pick set 4
    { x with l1 := ⟨p.2, mapIns x.l1.lines (set * 4 + p.1) ⟨va / 128, lineData bs, [], 0, 0⟩⟩ })

/-- How a load ends. -/
inductive LoadAns where
  | done (bs : List Byte) (s : State)
  | wait (s : State)

/-- R150, R190: a load through the L1 and the block L2: the bytes and the state; it waits while a line does. -/
def State.l1Load (s : State) (c va : Nat) (t : Target) (n : Nat) (alloc : Bool) : LoadAns :=
  match (s.cell c).l1Find va with
  | some (_, l) => .done (l.bytes (va % 128) n) s
  | none =>
    match s.l2Ensure c t with
    | .wait s => .wait s
    | .done s =>
      match s.l2Find (blockOf c) t with
      | none => .wait s
      | some (_, l) => .done (l.bytes (t.addr % 128) n) (if alloc then s.l1Fill c va (l.bytes 0 128) else s)

/-- R149, R150: a store: an L1 line it hits is updated, and the block L2 takes the bytes dirty; it waits while a line
does. `w` numbers the writing lane. -/
def State.l1Store (s : State) (c w va : Nat) (t : Target) (bs : List Byte) : WbAns :=
  match s.l2Ensure c t with
  | .wait s => .wait s
  | .done s =>
    let put := fun (e : Nat × CLine) =>
      if e.2.addr = va / 128 then (e.1, { e.2 with data := putBytes e.2.data (va % 128) bs }) else e
    let s := s.modCell c (fun x => { x with l1 := { x.l1 with lines := x.l1.lines.map put } })
    .done (s.l2Poke c w t bs true)

/-! ### The combining buffer -/

/-- The groups with bytes in an entry (R187). -/
def CombEnt.groups (e : CombEnt) (c : Nat) : List (Nat × Nat) :=
  let m := e.slots.foldl (fun a x => a ||| x.2) 0
  ((List.range 16).filter (fun i => m.testBit i)).map (fun i => (c, i))

/-- The slots with bytes in a run of an entry, as a mask. -/
def CombEnt.slotsIn (e : CombEnt) (off n : Nat) : Nat :=
  e.slots.foldl (fun a x => if off ≤ x.1 ∧ x.1 < off + n then a ||| x.2 % 65536 else a) 0

/-- The writer number of a byte of an entry: 0 where several lanes wrote it. -/
def combWriter (c k : Nat) : Nat := if k / 65536 = 0 then 0 else writerNo c (k % 65536).log2 (k / 65536 - 1)

/-- R160: the writer of each byte of an entry, and of the dirty byte of the block L2 that it replaces; 0 where they
differ. -/
def State.combWho (s : State) (c : Nat) (e : CombEnt) (o : Nat) : Nat :=
  let w := combWriter c (mapGet 0 e.slots o)
  let k := match s.l2Find (blockOf c) e.tgt with | some (_, l) => mapGet 0 l.dirty o | none => 0
  if k = 0 ∨ k / 512 = w then w else 0

/-- R170, R359: an entry flushes: through the block L2 without allocating, to the home, and the L1 line goes. Lost where
the target does not answer; none while it waits on the host. -/
def State.combFlush (s : State) (c : Nat) (e : CombEnt) : Option State :=
  let drop := fun (s : State) => (s.modCell c (fun x => { x with comb := x.comb.filter (fun y => y.va != e.va) })).l1Drop c e.va
  match e.tgt with
  | .peer i d =>
    if s.remoteBusy (RemReq.ofCell c) i d 128 then none
    else
      let s := drop s
      if (s.route i).isNone || s.fld .FAB_ID_dev_id 0 == 0 then some (s.lostUnit [c] (e.groups c))
      else
        some (s.each (runsOf e.bytes) (fun s r =>
          match s.sendReq (some (unitRgn (regionOf c))) (s.cellAcct c) ftWrReq
              { Frame.blank with dst := BitVec.ofNat 16 i, addr := BitVec.ofNat 64 (d + r.1), data := r.2 }
              (.flush c e.va (e.slotsIn r.1 r.2.length)) with
          | some s => s.flits (regionOf c) r.2.length
          | none => s))
  | t =>
    if (s.answerOf t).isSome then some (((drop s).mayLand e.lostBytes).lostUnit [c] (e.groups c))
    else if s.biHeld t true then none
    else
      let x := if e.bytes.length < 128 then s.takeBad t 128 else (s, false)
      let s := x.1
      if x.2 then some ((drop s).lostUnit [c] (e.groups c))
      else
      let s1 := drop s
      let runs := runsBy (e.bytes.map (fun x => (x.1, x.2, s.combWho c e x.1)))
      runs.foldl (fun (a : Option State) r => a.bind (fun s =>
        ((s.l2Poke c 0 (t.plus r.1) r.2.1 false).homeWrite (s.cellAcct c) (t.plus r.1) r.2.1
          (writerOf (blockOf c) r.2.2)).map (fun s => (s.hostDrop (s.cellQueue c) t).flits (regionOf c) r.2.1.length)))
        (some s1)

/-- Every entry of a cell's buffer flushed; whether all went. -/
def State.combFlushAll (s : State) (c : Nat) : State × Bool :=
  (s.cell c).comb.foldl (fun (a : State × Bool) e =>
    match a.1.combFlush c e with
    | some s => (s, a.2)
    | none => (a.1.biSnoop e.tgt true, false)) (s, true)

/-- R169, R170: bytes stored into the combining buffer by a slot: merged into the entry of their block, or a new entry,
before which the oldest of 32 flushes (none while that waits); a full block flushes at once. -/
def State.combStore (s : State) (c slot lane va : Nat) (t : Target) (bs : List Byte) : Option State :=
  let blk := va / 128 * 128
  let s := s.l1Drop c va
  let room : Option State :=
    if (s.cell c).comb.any (fun e => e.va == blk) || decide ((s.cell c).comb.length < 32) then some s
    else
      match (s.cell c).comb with
      | e :: _ => s.combFlush c e
      | [] => some s
  room.map fun s =>
  let s :=
    if (s.cell c).comb.any (fun e => e.va == blk) then s
    else
      let base : Target := match t with
        | .dev d => .dev (d - va % 128)
        | .host h => .host (h - va % 128)
        | .peer i d => .peer i (d - va % 128)
      s.modCell c (fun x => { x with comb := x.comb ++ [⟨blk, base, [], [], s.now, s.now⟩] })
  let mark := fun (old : Nat) =>
    (old % 65536 ||| 2 ^ slot) +
      65536 * (if old = 0 ∨ old = 2 ^ slot + 65536 * (lane + 1) then lane + 1 else 0)
  let put := fun (e : CombEnt) =>
    if e.va = blk then
      { e with
        last := s.now
        bytes := (List.range bs.length).foldl (fun m i => mapIns m (va % 128 + i) (bs.getD i 0)) e.bytes
        slots := (List.range bs.length).foldl (fun m i =>
          mapIns m (va % 128 + i) (mark (mapGet 0 m (va % 128 + i)))) e.slots }
    else e
  let s := s.modCell c (fun x => { x with comb := x.comb.map put })
  match (s.cell c).comb.find? (fun e => e.va == blk) with
  | some e => if e.bytes.length ≥ 128 then (s.combFlush c e).getD s else s
  | none => s

end Sys2Proof.Machine
end

