-- ==== Sys2Proof/Machine/Halt.lean ====
section
/-!
DEFINITION. Cell halts: the reasons (R70), the halt record (R68, R69), what becomes of buffered stores and of operations
under way (R68, R174, R183, R208).
-/

namespace Sys2Proof.Machine

/-- Halt reasons (R70). -/
def hrIllegal : Nat := 0x01
def hrPrivileged : Nat := 0x02
def hrMisaligned : Nat := 0x03
def hrRegRange : Nat := 0x04
def hrReconv : Nat := 0x05
def hrBarDiverged : Nat := 0x06
def hrBreakpoint : Nat := 0x07
def hrTranslation : Nat := 0x10
def hrProtection : Nat := 0x11
def hrFarTier : Nat := 0x12
def hrTileBad : Nat := 0x20
def hrTileDiverged : Nat := 0x21
def hrScratchRange : Nat := 0x22
def hrQueueProtocol : Nat := 0x23
def hrFormat : Nat := 0x24
def hrTileCheck : Nat := 0x30
def hrAbft : Nat := 0x31
def hrEcc : Nat := 0x32
def hrFeTimeout : Nat := 0x40
def hrStoreLost : Nat := 0x42
def hrWatchdog : Nat := 0x50
def hrAborted : Nat := 0x51

/-- R70: the halt reason of a failed access. -/
def MFault.halt : MFault → Nat
  | .translation => hrTranslation
  | .protection => hrProtection
  | .farTier => hrFarTier
  | .ecc => hrEcc
  | .wait _ => 0

/-- R360: the halt reason of a reply status other than OK. -/
def statusHalt (st : Nat) : Nat :=
  match st with
  | 1 => hrProtection
  | 6 => hrProtection
  | 3 => hrEcc
  | 5 => hrEcc
  | _ => hrTranslation

/-- What a halt records (R68). `source` is 0 group, 1 access stream, 2 execute stream, 3 cell or front end; `after` is
the identity of the causing instruction's request, or the next one where it left none. -/
structure HaltArg where
  reason : Nat
  source : Nat
  group  : Nat
  mask   : Mask
  pc     : Nat
  addr   : Option Nat
  more   : Bool
  after  : Nat

/-- Every line that `n` bytes at a target touch accessed at its home. -/
def State.touchLines (s : State) (tag : Option Nat) (t : Target) (n : Nat) (write : Bool) : State :=
  if n = 0 then s
  else
    s.each (List.range ((t.addr % 128 + n + 127) / 128)) (fun s i =>
      s.scdTouch tag (if i = 0 then t else t.plus (128 * i - t.addr % 128)) write)

/-- Bytes of one tile put at their home, as a tile write (R172, R207). -/
def State.tilePut (s : State) (tag : Option Nat) (t : Target) (bs : List Byte) : State :=
  match t with
  | .dev d => (s.touchLines tag t bs.length true).putDev d bs none
  | .host h => (s.touchLines tag t bs.length true).putHost h bs none
  | .peer _ _ => s

/-- R93, R172: one line of a tile written: dirty bytes of the block L2 leave for the home first and the line is
invalidated there and in the cell's L1; a line that the host holds is not reached. -/
def State.tileLinePut (s : State) (c va : Nat) (t : Target) (bs : List Byte) : State :=
  match (s.l1Drop c va).l2Evict c t with
  | .wait s => s
  | .done s => if s.biHeld t true then s.biSnoop t true else (s.tilePut (s.cellAcct c) t bs).flits (regionOf c) bs.length

/-- R174, R208: a TSTORE in progress abandoned: of each tile not yet closed an open number of its first lines is written
(log entry 2), and its check entry is BROKEN. -/
def State.abandonStore (s : State) (c : Nat) (p : InProg) (partly : Bool) : State :=
  s.each (p.tiles.zip p.bytes) (fun s tb =>
    let t := tb.1.2
    let n := if partly then s.freeAt 0 % 33 else 0
    let s := if partly then
        (s.each (List.range n) (fun s i => s.tileLinePut c (tb.1.1 + 128 * i) (t.plus (128 * i)) ((tb.2.drop (128 * i)).take 128))).drew 1
      else s
    match t with
    | .dev d => s.chkAbandon d (regionOf c)
    | _ => s)

/-- R68: a stream stops; its macro-ops in progress stop. -/
def State.stopStream (s : State) (c : Nat) (x : StreamSt) (partly : Bool) : State :=
  s.each (x.prog.filter (fun p => p.sw.op == 0x11)) (fun s p => s.abandonStore c p partly)

/-- R68, R360: the full/empty operations of a cell withdrawn, here and at peers. -/
def State.withdrawCell (s : State) (c : Nat) : State :=
  let s := s.feWithdraw (FeWaiter.ofCell c)
  s.each (s.remote.filter (fun r => r.type == ftFeReq && (match r.svc with | .lane c' _ _ => c' == c | _ => false)))
    State.withdrawRemote

/-- R68, R183: the requests left after a halt: full/empty operations that do not wait yet complete, those that wait are
withdrawn; of a halt caused by a group's instruction that group's younger stores are discarded, but for lanes already
sent to a peer. -/
def dropYounger (h : HaltArg) (l : List Req) : List Req :=
  l.filterMap (fun r =>
    let left := fun (p : LaneSt → Bool) =>
      let k := r.lanes.filter (fun x => p x.st)
      if k.isEmpty then none else some { r with lanes := k }
    let young := h.source = 0 ∧ r.slot = h.group ∧ r.id > h.after
    let away := fun (x : LaneSt) => match x with | .sent _ => true | _ => false
    match r.kind with
    | .fe _ _ => left (fun x => x == .todo)
    | .store _ => if young then left away else some r
    | .storeNt _ => if young then left away else some r
    | _ => some r)

/-- R68, R69, R160, R183: a running cell halts. A cell that has halted keeps its record. -/
def State.haltCell (s : State) (c : Nat) (h : HaltArg) : State :=
  let x := s.cell c
  if x.state ≠ .running then s
  else
    let s := s.stopStream c x.sa true
    let s := s.withdrawCell c
    let s := s.dropResv (fun r => r.cell == c)
    let s := s.modCell c (fun x => { x with
      state := .halted
      reported := false
      halt := ⟨h.reason, h.group, h.source, h.more, true, h.mask, h.pc % 2 ^ 57, (h.addr.getD 0) % 2 ^ 57, h.addr.isSome, s.now⟩
      reqs := dropYounger h x.reqs
      sa := { x.sa with prog := [] }
      sx := { x.sx with prog := [] }
      arr := { x.arr with retry := false } })
    (s.combFlushAll c).1

/-- A halt caused by a group's instruction before anything left the cell. -/
def State.haltGroup (s : State) (c slot : Nat) (reason : Nat) (addr : Option Nat) : State :=
  match s.group c slot with
  | some g => s.haltCell c ⟨reason, 0, slot, g.active, g.pc.toNat, addr, false, (s.cell c).nextReq⟩
  | none => s

/-- A halt whose source is the cell or the front end. -/
def State.haltOwn (s : State) (c : Nat) (reason slot : Nat) (addr : Option Nat) : State :=
  s.haltCell c ⟨reason, 3, slot, 0, 0, addr, false, 0⟩

end Sys2Proof.Machine
end

