-- ==== Sys2Proof/Machine/Operands.lean ====
section
/-!
DEFINITION. A group's registers and predicates (R46 to R48), reconvergence (R60), what an instruction waits for (R58),
and the issue of one instruction.
-/

namespace Sys2Proof.Machine

/-! ### Registers -/

/-- Thread register `r` of a lane (R46). -/
def Group.v1 (g : Group) (r lane : Nat) : Nat := (mapGet 0 g.v (32 * r + lane)).toNat

/-- An operand of `n` registers of a lane, the low half first (R46). -/
def Group.rd (g : Group) : Nat → Nat → Nat → Nat
  | 0, _, _ => 0
  | n + 1, r, lane => g.v1 r lane + 2 ^ 32 * g.rd n (r + 1) lane

/-- A value written to `n` registers of a lane. -/
def Group.wr (g : Group) : Nat → Nat → Nat → Nat → Group
  | 0, _, _, _ => g
  | n + 1, r, lane, x =>
    ({ g with v := mapSet 0 g.v (32 * r + lane) (BitVec.ofNat 32 x) }).wr n (r + 1) lane (x / 2 ^ 32)

/-- Values written to an operand of `n` registers in the lanes of a list. -/
def Group.wrs (g : Group) (n r : Nat) (l : List (Nat × Nat)) : Group := l.foldl (fun g e => g.wr n r e.1 e.2) g

/-- Predicate `i` of every lane. -/
def Group.pr (g : Group) (i : Nat) : Mask := mapGet 0 g.p i

/-- A predicate written in the lanes of `m`. -/
def Group.setP (g : Group) (i : Nat) (m x : Mask) : Group :=
  { g with p := mapSet 0 g.p i ((g.pr i &&& ~~~m) ||| (x &&& m)) }

/-- Uniform register `i` (R47). -/
def Group.ur (g : Group) (i : Nat) : Nat := (mapGet 0 g.u i).toNat

/-- A uniform register written. -/
def Group.setU (g : Group) (i x : Nat) : Group := { g with u := mapSet 0 g.u i (BitVec.ofNat 64 x) }

/-- The next instruction's address. -/
def Group.adv (g : Group) : Group := { g with pc := g.pc + 8 }

/-! ### Guards -/

/-- The lanes in which a guard holds (R48). -/
def Group.guardMask (g : Group) (x : Guard) : Mask :=
  if x.ge then (if x.gn then ~~~(g.pr x.gp.val) else g.pr x.gp.val) else 0xFFFFFFFF

/-- The acting lanes of a guarded instruction (R48). -/
def Group.acting (g : Group) (x : Guard) : Mask := g.active &&& g.guardMask x

/-- R48, R51: with `ge` 0, `gp` and `gn` must be zero. -/
def guardOk (x : Guard) : Bool := x.ge || (!x.gn && x.gp.val == 0)

/-- The guard predicate among the predicates an instruction uses. -/
def guardPreds (g : Guard) : List Nat := if g.ge then [g.gp.val] else []

/-! ### Reconvergence -/

/-- R60: the reconvergence check. -/
def reconvLoop : Nat → Group → Group
  | 0, g => g
  | n + 1, g =>
    match g.stack with
    | [] => g
    | top :: rest =>
      if g.pc = top.rpc ∨ g.active = 0 then
        if top.otherMask &&& ~~~g.exited ≠ 0 then
          reconvLoop n { g with
            pc := top.otherPc, active := top.otherMask &&& ~~~g.exited, stack := { top with otherMask := 0 } :: rest }
        else reconvLoop n { g with pc := top.rpc, active := top.join &&& ~~~g.exited, stack := rest }
      else g

/-- R60: the check before every issue. Each entry is visited at most twice. -/
def Group.reconv (g : Group) : Group := reconvLoop (2 * g.stack.length + 1) g

/-! ### What an instruction waits for (R58) -/

/-- The registers an instruction reads or writes: thread registers, predicates, uniform registers. -/
structure Uses where
  v : List Nat
  p : List Nat
  u : List Nat

/-- `n` registers from `r` on. -/
def regRun (r n : Nat) : List Nat := (List.range n).map (r + ·)

/-- Registers of an access of a size code: one, a pair, four. -/
def sizeRegs (size : Nat) : Nat := match size with | 3 => 2 | 4 => 4 | _ => 1

/-- The destinations that an outstanding request will write. -/
def ReqKind.dests : ReqKind → Uses
  | .load vd size _ _ => ⟨regRun vd (sizeRegs size), [], []⟩
  | .ldres vd size => ⟨regRun vd (sizeRegs size), [], []⟩
  | .stcond pd _ => ⟨[], [pd], []⟩
  | .atom _ vd size _ => ⟨regRun vd (sizeRegs size), [], []⟩
  | .fe op vd => ⟨if feReturns op then regRun vd 2 else [], [], []⟩
  | .uload ud => ⟨[], [], [ud]⟩
  | _ => ⟨[], [], []⟩

/-- Whether two lists share a number. -/
def meets (a b : List Nat) : Bool := a.any (fun x => b.contains x)

/-- R58: whether a register of the instruction awaits a result. -/
def Cell.awaits (x : Cell) (slot : Nat) (us : Uses) : Bool :=
  x.reqs.any (fun r => r.slot == slot &&
    (let d := r.kind.dests; meets d.v us.v || meets d.p us.p || meets d.u us.u))

/-- R166: whether a full/empty operation of the group is outstanding. -/
def Cell.feOut (x : Cell) (slot : Nat) : Bool :=
  x.reqs.any (fun r => r.slot == slot && (match r.kind with | .fe _ _ => true | _ => false))

/-- R58: entries of the memory request queue in use: instructions not yet accepted by their port in every lane. -/
def Cell.memQueue (x : Cell) : Nat :=
  (x.reqs.filter (fun r => !r.acc && r.lanes.any (fun l => l.st == .todo))).length

/-! ### Readiness and choice -/

/-- The wait code of R73 that keeps a fetched instruction from issuing, 0 for none: a register, the memory request queue
or the iterative unit, a full append buffer. -/
def Cell.stallOf (x : Cell) (now slot : Nat) (n : Fetched) : Nat :=
  if x.awaits slot ⟨n.v, n.p, n.u⟩ then 2
  else if n.mem && decide (x.memQueue ≥ 32) then 3
  else if n.iter != 0 && decide (now < x.iter) then 3
  else
    match n.app with
    | some .access => if x.sa.buf.length ≥ 8 then 6 else 0
    | some .execute => if x.sx.buf.length ≥ 8 then 6 else 0
    | none => 0

/-- R58: whether a slot's group is ready with the instruction it has fetched. -/
def Cell.ready (x : Cell) (now slot : Nat) : Bool :=
  match mapFind x.groups slot with
  | some g =>
    (match g.next with
      | some n => !g.ended && g.wait == .none && !x.feOut slot && x.stallOf now slot n == 0
      | none => false)
  | none => false

/-- R58: the slot that issues next among those a test accepts, in round-robin order after the last. -/
def Cell.choose (x : Cell) (p : Nat → Bool) : Option Nat :=
  ((List.range 16).map (fun k => (x.last + 1 + k) % 16)).find? p

/-- R58: whether a slot whose instruction is at hand is the one that issues. A group is known to have its next
instruction fetched and decoded from the first command that brings it. Log entry 44. -/
def Cell.chosen (x : Cell) (now slot : Nat) : Bool :=
  x.choose (fun k => k == slot || x.ready now k) == some slot

/-- R57: when the iterative unit is free after an instruction that occupies it for `n` tokens, at the region's measured
token rate. DESIGN CHOICE, log entry 44. -/
def State.iterUntil (s : State) (c n : Nat) : Nat :=
  if n = 0 then (s.cell c).iter
  else s.now + ceilDiv (n * 1000) (max (s.fld .REG_SPEED_token_rate_mtps (regionOf c)) 1)

/-! ### Issue -/

/-- The first of several reasons. -/
def firstBad : List (Option Nat) → Option Nat
  | [] => none
  | some r :: _ => some r
  | none :: t => firstBad t

/-- A reason if a condition holds. -/
def badIf (b : Bool) (r : Nat) : Option Nat := if b then some r else none

/-- What an instruction is to the issue stage: its guard, the reason it halts for whatever its lanes (R464), its
registers, whether it takes a memory request entry, its occupancy of the iterative unit (R57), the stream whose full
append buffer holds it (R64); `pre` answers the state in which it waits on a translation, if it does. -/
structure IssueArg where
  guard : Guard
  bad   : Option Nat
  uses  : Uses
  mem   : Bool := false
  iter  : Nat := 0
  app   : Group → Option Stream := fun _ => none
  pre   : State → Nat → Nat → Group → Mask → Option State := fun _ _ _ _ _ => none

/-- R57: the tokens for which the instruction occupies the iterative unit; one that only halts its cell occupies
nothing. -/
def IssueArg.tokens (a : IssueArg) : Nat := if a.bad.isNone then a.iter else 0

/-- The instruction as fetched. -/
def IssueArg.fetched (a : IssueArg) (g : Group) : Fetched :=
  ⟨a.uses.v, a.uses.p, a.uses.u, a.mem, a.tokens, if a.bad.isNone then a.app g else none⟩

/-- The bookkeeping of an issue (R35, R57, R58, R71). -/
def State.issued (s : State) (c slot : Nat) (g : Group) (iter : Nat := 0) : State :=
  (s.modCell c (fun x => { x with
    groups := mapIns x.groups slot g, last := slot, progress := s.wdUntil, iter := s.iterUntil c iter })).cellPmc c 0x01 1

/-- R58, R60, R464: a group's instruction issues if its group is ready and its turn has come; else it is kept as fetched.
`act` gets the cell, the slot, the group after the reconvergence check and the acting lanes. -/
def State.issue (s : State) (t : GTgt) (a : IssueArg) (act : State → Nat → Nat → Group → Mask → State) : State :=
  let c := cellNo t.cell
  let slot := t.slot.val
  let x := s.cell c
  match s.group c slot with
  | none => s
  | some g0 =>
    if !s.alive || x.state != .running || g0.ended || g0.wait != .none || x.feOut slot then s
    else
      let g := { g0.reconv with next := none }
      let n := a.fetched g
      if x.stallOf s.now slot n ≠ 0 ∨ x.chosen s.now slot = false then s.setGroup c slot { g0 with next := some n }
      else
        match (if a.bad.isNone then a.pre s c slot g (g.acting a.guard) else none) with
        | some s' => s'.setGroup c slot { g0 with next := none }
        | none =>
          let s := s.issued c slot g a.tokens
          match a.bad with
          | some r => s.haltGroup c slot r none
          | none => act s c slot g (g.acting a.guard)

end Sys2Proof.Machine
end

