-- ==== Sys2Proof/Machine/Alu.lean ====
section
/-!
DEFINITION. The operations of the formats F0 and F1 (R50 to R55, R57): one description of each operation, one execution.
-/

namespace Sys2Proof.Machine

/-- One F0/F1 operation: which sources it reads, its forms, the bits of `mod` and `sub` it uses in F0, the registers of
its destination and sources by `mod` and `sub`, its result in one lane from `mod`, `sub`, the sources and a candidate
for a value the spec leaves open, whether R314 counts it twice, whether it uses the candidate, its occupancy of the
iterative unit by `mod` (R57). -/
structure AluSpec where
  useA : Bool := true
  useB : Bool := true
  useC : Bool := false
  f0   : Bool := true
  f1   : Bool := true
  modM : Nat := 3
  subM : Nat := 0
  wd   : Nat → Nat → Nat := fun _ _ => 1
  ws   : Nat → Nat → Nat := fun _ _ => 1
  bad  : Nat → Nat → Bool := fun _ _ => false
  f    : Nat → Nat → Nat → Nat → Nat → Nat → Nat
  two  : Bool := false
  free : Bool := false
  immW : Bool := false
  iter : Nat → Nat := fun _ => 0

/-- The operand fields of a form in one shape: vd, va, vb, vc, mod, sub, imm. -/
structure AluOps where
  vd  : Nat
  va  : Nat
  vb  : Nat
  vc  : Nat
  mod : Nat
  sub : Nat
  imm : Option Nat

/-- R50: three-source operations in F1 use vd as their third source. -/
def aluOps : AluForm → AluOps
  | .f0 vd va vb vc mod sub _ => ⟨vd.toNat, va.toNat, vb.toNat, vc.toNat, mod.toNat, sub.toNat, none⟩
  | .f1 vd va mod imm => ⟨vd.toNat, va.toNat, 0, vd.toNat, mod.toNat, 0, some imm.toNat⟩

/-- R51: the form is legal for the operation: no reserved or unused field is nonzero. -/
def AluSpec.legal (p : AluSpec) (f : AluForm) : Bool :=
  let o := aluOps f
  !(p.bad o.mod o.sub) && (p.useA || o.va == 0) &&
  (match f with
    | .f0 _ _ _ _ _ _ rsv =>
      p.f0 && rsv == 0 && (p.useB || o.vb == 0) && (p.useC || o.vc == 0) && o.mod &&& p.modM == o.mod
        && o.sub &&& p.subM == o.sub
    | .f1 _ _ _ imm => p.f1 && o.mod &&& p.modM == o.mod && (p.useB || imm == 0))

/-- A register number that does not start an operand of `n` registers (R46). -/
def misReg (n r : Nat) : Bool := r % n != 0

/-- R46: an odd register names a pair. -/
def AluSpec.range (p : AluSpec) (f : AluForm) : Bool :=
  let o := aluOps f
  let w := p.ws o.mod o.sub
  misReg (p.wd o.mod o.sub) o.vd || (p.useA && misReg w o.va) || (p.useB && o.imm.isNone && misReg w o.vb)
    || (p.useC && misReg w o.vc)

/-- The registers an operation reads and writes. -/
def AluSpec.uses (p : AluSpec) (g : Guard) (f : AluForm) : Uses :=
  let o := aluOps f
  let w := p.ws o.mod o.sub
  ⟨regRun o.vd (p.wd o.mod o.sub) ++ (if p.useA then regRun o.va w else []) ++
      (if p.useB && o.imm.isNone then regRun o.vb w else []) ++ (if p.useC then regRun o.vc w else []),
    guardPreds g, []⟩

/-- R50: `imm32` as a source: extended for the 64-bit integer types. -/
def immSrc (wide : Bool) (mod imm : Nat) : Nat := if wide && mod % 4 == 3 then lowBits 64 (sgn 32 imm) else imm

/-- The result of an operation in one lane. -/
def AluSpec.lane (p : AluSpec) (o : AluOps) (g : Group) (cand lane : Nat) : Nat :=
  let w := p.ws o.mod o.sub
  let a := if p.useA then g.rd w o.va lane else 0
  let b := match o.imm with
    | some i => immSrc p.immW o.mod i
    | none => if p.useB then g.rd w o.vb lane else 0
  let c := if p.useC then g.rd w o.vc lane else 0
  p.f o.mod o.sub a b c cand

/-- R464: what every F0/F1 instruction is checked for whatever its lanes. Of an illegal instruction that also names a bad
register the first is reported, `more` clear: DESIGN CHOICE, log entry 45. -/
def aluArg (g : Guard) (legal range : Bool) (us : Uses) (iter : Nat := 0) : IssueArg :=
  { guard := g, bad := firstBad [badIf (!(guardOk g && legal)) hrIllegal, badIf range hrRegRange], uses := us, iter := iter }

/-- R314: the vector operations of one instruction metered. -/
def State.vecOps (s : State) (c : Nat) (m : Mask) (two : Bool) : State :=
  s.meter (s.cellAcct c) .CFE_ACCT_vector_ops ((lanesOf m).length * (if two then 2 else 1))

/-- R52 to R55: an operation executed in its acting lanes. -/
def State.alu (s : State) (t : GTgt) (i : AluI) (p : AluSpec) : State :=
  s.issue t (aluArg i.g (p.legal i.f) (p.range i.f) (p.uses i.g i.f) (p.iter (aluOps i.f).mod)) (fun s c slot g m =>
    let o := aluOps i.f
    let r := (lanesOf m).map (fun l => (l, p.lane o g (s.freeAt l) l))
    let s := (s.setGroup c slot (g.wrs (p.wd o.mod o.sub) o.vd r).adv).vecOps c m p.two
    if p.free then s.drew 32 else s)

/-! ### Integer (R52, R53) -/

/-- The registers of an integer operand by type (R54). -/
def intW (mod _sub : Nat) : Nat := if mod % 4 ≥ 2 then 2 else 1

/-- The bits of an integer type. -/
def intBits (mod : Nat) : Nat := if mod % 4 ≥ 2 then 64 else 32

/-- Whether an integer type is signed. -/
def intSigned (mod : Nat) : Bool := mod % 2 == 1

/-- An integer operation on values, its result wrapped to the type. -/
def intOp (mod : Nat) (v : Int) : Nat := lowBits (intBits mod) v

/-- A two-source integer operation. -/
def intSpec (f : Nat → Nat → Nat → Nat) : AluSpec :=
  { wd := intW, ws := intW, immW := true, f := fun mod _ a b _ _ => f mod a b }

/-- A one-source integer operation. -/
def intSpec1 (f : Nat → Nat → Nat) : AluSpec :=
  { useB := false, wd := intW, ws := intW, f := fun mod _ a _ _ _ => f mod a }

def specIadd : AluSpec := intSpec (fun mod a b => intOp mod (intVal mod a + intVal mod b))
def specIsub : AluSpec := intSpec (fun mod a b => intOp mod (intVal mod a - intVal mod b))
/-- R57: the iterative unit's occupancy of a multiplication of 64-bit type. -/
def mulIter (mod : Nat) : Nat := if mod % 4 ≥ 2 then 2 else 0

def specImul : AluSpec := { intSpec (fun mod a b => intOp mod (intVal mod a * intVal mod b)) with iter := mulIter }
/-- The high half of the exact product. -/
def specImulhi : AluSpec :=
  { intSpec (fun mod a b => intOp mod (intVal mod a * intVal mod b / ((2 ^ intBits mod : Nat) : Int))) with iter := mulIter }
def specImad : AluSpec :=
  { useC := true, wd := intW, ws := intW, immW := true, iter := mulIter
    f := fun mod _ a b c _ => intOp mod (intVal mod a * intVal mod b + intVal mod c) }
def specImin : AluSpec := intSpec (fun mod a b => if intVal mod b < intVal mod a then b else a)
def specImax : AluSpec := intSpec (fun mod a b => if intVal mod a < intVal mod b then b else a)
/-- IABS of the most negative value, which its type has no absolute value for, is open: log entry 2. -/
def specIabs : AluSpec :=
  { useB := false, wd := intW, ws := intW, free := true
    f := fun mod _ a _ _ cand =>
      if intSigned mod && a == 2 ^ (intBits mod - 1) then cand % 2 ^ intBits mod
      else intOp mod (intVal mod a).natAbs }
def specAnd : AluSpec := intSpec (fun _ a b => a &&& b)
def specOr : AluSpec := intSpec (fun _ a b => a ||| b)
def specXor : AluSpec := intSpec (fun _ a b => a ^^^ b)
def specNot : AluSpec := intSpec1 (fun mod a => 2 ^ intBits mod - 1 - a)

/-- R53: shifts. A 64-bit type takes its count from the low register of the vb pair. -/
def specShl : AluSpec := intSpec (fun mod a b =>
  let n := b % 256
  if n ≥ intBits mod then 0 else a * 2 ^ n % 2 ^ intBits mod)
def specShr : AluSpec := intSpec (fun mod a b =>
  let n := b % 256
  if n ≥ intBits mod then 0 else a / 2 ^ n)
def specSar : AluSpec := intSpec (fun mod a b =>
  let w := intBits mod
  lowBits w (sgn w a / ((2 ^ min (b % 256) w : Nat) : Int)))

/-- The number of one bits among the low `w`. -/
def popc (w a : Nat) : Nat := ((List.range w).filter (fun i => a.testBit i)).length

/-- The number of zero bits above the highest one bit. -/
def clz (w a : Nat) : Nat := if a = 0 then w else w - 1 - a.log2

/-- The bits of a number in reverse order. -/
def brev : Nat → Nat → Nat
  | 0, _ => 0
  | w + 1, a => a % 2 * 2 ^ w + brev w (a / 2)

def specPopc : AluSpec := intSpec1 (fun mod a => popc (intBits mod) a)
def specClz : AluSpec := intSpec1 (fun mod a => clz (intBits mod) a)
def specBrev : AluSpec := intSpec1 (fun mod a => brev (intBits mod) a)
def specMov : AluSpec :=
  { useA := false, wd := intW, ws := intW, immW := true, f := fun _ _ _ b _ _ => b }

/-- R53: BFE. -/
def bfe (w : Nat) (signed : Bool) (a ctl : Nat) : Nat :=
  let pos := ctl % 256
  let len := min (ctl / 256 % 256) w
  if len = 0 then 0
  else
    let src : Int := if signed then sgn w a else (a : Int)
    let x := src / ((2 ^ pos : Nat) : Int)
    if signed then lowBits w (sgn len (lowBits len x)) else lowBits len x

def specBfe : AluSpec := intSpec (fun mod a b => bfe (intBits mod) (intSigned mod) a b)

/-- R53: BFI. -/
def bfi (w a ctl c : Nat) : Nat :=
  let pos := ctl % 256
  let len := min (min (ctl / 256 % 256) w) (w - pos)
  if len = 0 then c else setBits c pos len a

def specBfi : AluSpec :=
  { useC := true, wd := intW, ws := intW, immW := true, f := fun mod _ a b c _ => bfi (intBits mod) a b c }

/-! ### FP32 (R55) -/

/-- A two-source floating-point operation of one format. -/
def fpSpec (f : Rnd → Nat → Nat → Nat) : AluSpec := { f := fun mod _ a b _ _ => f (Rnd.of mod) a b }

/-- A two-source operation on which rounding has no effect. -/
def fpSpec0 (f : Nat → Nat → Nat) : AluSpec := { modM := 0, f := fun _ _ a b _ _ => f a b }

/-- A one-source operation without rounding. -/
def fpSpec1 (f : Nat → Nat) : AluSpec := { useB := false, modM := 0, f := fun _ _ a _ _ _ => f a }

/-- A one-source operation whose result the spec bounds: the candidate of log entry 2. It occupies the iterative unit
for 4 tokens, of FP64 for 8 (R57). -/
def fpSpecF (f : Rnd → Nat → Nat → Nat) : AluSpec :=
  { useB := false, free := true, iter := fun _ => 4, f := fun mod _ a _ _ cand => f (Rnd.of mod) cand a }

def specFadd : AluSpec := fpSpec (fAdd .fp32)
def specFmul : AluSpec := fpSpec (fMul .fp32)
/-- R54: `mod`[2] negates the third source. -/
def specFfma : AluSpec :=
  { useC := true, modM := 7, f := fun mod _ a b c _ => fFma .fp32 (Rnd.of mod) (mod.testBit 2) a b c }
def specFmin : AluSpec := fpSpec0 (fMinMax .fp32 false)
def specFmax : AluSpec := fpSpec0 (fMinMax .fp32 true)
def specFabs : AluSpec := fpSpec1 (fAbs .fp32)
def specFneg : AluSpec := fpSpec1 (fNeg .fp32)
def specFrcp : AluSpec := fpSpecF (fRcp .fp32)
def specFrsq : AluSpec := fpSpecF (fRsq .fp32)
def specFsqrt : AluSpec := { useB := false, iter := fun _ => 4, f := fun mod _ a _ _ _ => fSqrt .fp32 (Rnd.of mod) a }
def specFexp2 : AluSpec := fpSpecF (fExp2 .fp32)
def specFlog2 : AluSpec := fpSpecF (fLog2 .fp32)
def specFsin : AluSpec := fpSpecF (fTrig false)
def specFcos : AluSpec := fpSpecF (fTrig true)

/-- An operation on the two halves of `w` bits of its sources. -/
def halves (w : Nat) (f : Nat → Nat → Nat → Nat) (a b c : Nat) : Nat :=
  let m := 2 ^ w
  f (a % m) (b % m) (c % m) % m + m * (f (a / m % m) (b / m % m) (c / m % m) % m)

/-- R52, R57: FFMA2: two FMAs per lane on register pairs, F0 only. -/
def specFfma2 : AluSpec :=
  { useC := true, f1 := false, modM := 7, wd := fun _ _ => 2, ws := fun _ _ => 2, two := true
    f := fun mod _ a b c _ => halves 32 (fFma .fp32 (Rnd.of mod) (mod.testBit 2)) a b c }

/-! ### Packed FP16 and BF16 (R54, R55) -/

/-- R54: `mod`[3] selects BF16. -/
def packFmt (mod : Nat) : FFmt := if mod.testBit 3 then .bf16 else .fp16

def specHadd2 : AluSpec :=
  { modM := 11, two := true, f := fun mod _ a b _ _ => halves 16 (fun x y _ => fAdd (packFmt mod) (Rnd.of mod) x y) a b 0 }
def specHmul2 : AluSpec :=
  { modM := 11, two := true, f := fun mod _ a b _ _ => halves 16 (fun x y _ => fMul (packFmt mod) (Rnd.of mod) x y) a b 0 }
def specHfma2 : AluSpec :=
  { useC := true, modM := 15, two := true
    f := fun mod _ a b c _ => halves 16 (fFma (packFmt mod) (Rnd.of mod) (mod.testBit 2)) a b c }
def specHmin2 : AluSpec :=
  { modM := 8, two := true, f := fun mod _ a b _ _ => halves 16 (fun x y _ => fMinMax (packFmt mod) false x y) a b 0 }
def specHmax2 : AluSpec :=
  { modM := 8, two := true, f := fun mod _ a b _ _ => halves 16 (fun x y _ => fMinMax (packFmt mod) true x y) a b 0 }

/-! ### FP64 (R55), F0 only -/

/-- An FP64 operation: register pairs, F0 only. -/
def AluSpec.dbl (p : AluSpec) : AluSpec := { p with f1 := false, wd := fun _ _ => 2, ws := fun _ _ => 2 }

def specDadd : AluSpec := (fpSpec (fAdd .fp64)).dbl
def specDmul : AluSpec := (fpSpec (fMul .fp64)).dbl
def specDfma : AluSpec :=
  ({ useC := true, modM := 7, f := fun mod _ a b c _ => fFma .fp64 (Rnd.of mod) (mod.testBit 2) a b c } : AluSpec).dbl
def specDmin : AluSpec := (fpSpec0 (fMinMax .fp64 false)).dbl
def specDmax : AluSpec := (fpSpec0 (fMinMax .fp64 true)).dbl
def specDrcp : AluSpec := { (fpSpecF (fRcp .fp64)).dbl with iter := fun _ => 8 }
def specDrsq : AluSpec := { (fpSpecF (fRsq .fp64)).dbl with iter := fun _ => 8 }
def specDsqrt : AluSpec :=
  ({ useB := false, iter := fun _ => 16, f := fun mod _ a _ _ _ => fSqrt .fp64 (Rnd.of mod) a } : AluSpec).dbl

/-! ### CVT (R54, R55) -/

/-- The registers of a CVT type. -/
def cvtW (code : Nat) : Nat := match CvtType.of code with | some t => if t.width = 64 then 2 else 1 | none => 1

def specCvt : AluSpec :=
  { useB := false, f1 := false, modM := 3, subM := 255
    wd := fun _ sub => cvtW (sub % 16), ws := fun _ sub => cvtW (sub / 16)
    bad := fun _ sub => (CvtType.of (sub % 16)).isNone || (CvtType.of (sub / 16)).isNone
    f := fun mod sub a _ _ _ =>
      match CvtType.of (sub % 16), CvtType.of (sub / 16) with
      | some d, some x => cvt (Rnd.of mod) d x a
      | _, _ => 0 }

/-- R52: SEL as an operation whose selector is filled in per lane; vc[6:3] must be zero. -/
def selLegal (f : AluForm) : Bool :=
  match f with
  | .f0 _ _ _ vc mod sub rsv => mod == 0 && sub == 0 && rsv == 0 && decide (vc.toNat < 8)
  | .f1 _ _ _ _ => false

/-- R52: SHFL: `sub` 0 to 3 selects the mode; any other is illegal (DESIGN CHOICE, log entry 45). -/
def shflLegal (f : AluForm) : Bool :=
  match f with
  | .f0 _ _ _ vc mod sub rsv => mod == 0 && rsv == 0 && vc == 0 && decide (sub.toNat < 4)
  | .f1 _ _ _ _ => false

/-- R52: the source lane of SHFL, none where it does not exist. -/
def shflSrc (mode lane d : Nat) : Option Nat :=
  match mode with
  | 0 => some d
  | 1 => if d ≤ lane then some (lane - d) else none
  | 2 => if lane + d < 32 then some (lane + d) else none
  | _ => some (lane ^^^ d)

/-- R52: what SHFL gives one lane. -/
def shflLane (g : Group) (o : AluOps) (lane : Nat) : Nat :=
  match shflSrc o.sub lane (g.v1 o.vb lane % 32) with
  | some s => if g.active.getLsbD s then g.v1 o.va s else g.v1 o.va lane
  | none => g.v1 o.va lane

/-! ### The instructions -/

def execIadd (t : GTgt) (i : AluI) (s : State) : Out := .next (s.alu t i specIadd)
def execIsub (t : GTgt) (i : AluI) (s : State) : Out := .next (s.alu t i specIsub)
def execImul (t : GTgt) (i : AluI) (s : State) : Out := .next (s.alu t i specImul)
def execImulhi (t : GTgt) (i : AluI) (s : State) : Out := .next (s.alu t i specImulhi)
def execImad (t : GTgt) (i : AluI) (s : State) : Out := .next (s.alu t i specImad)
def execImin (t : GTgt) (i : AluI) (s : State) : Out := .next (s.alu t i specImin)
def execImax (t : GTgt) (i : AluI) (s : State) : Out := .next (s.alu t i specImax)
def execIabs (t : GTgt) (i : AluI) (s : State) : Out := .next (s.alu t i specIabs)
def execLand (t : GTgt) (i : AluI) (s : State) : Out := .next (s.alu t i specAnd)
def execLor (t : GTgt) (i : AluI) (s : State) : Out := .next (s.alu t i specOr)
def execXor (t : GTgt) (i : AluI) (s : State) : Out := .next (s.alu t i specXor)
def execLnot (t : GTgt) (i : AluI) (s : State) : Out := .next (s.alu t i specNot)
def execShl (t : GTgt) (i : AluI) (s : State) : Out := .next (s.alu t i specShl)
def execShr (t : GTgt) (i : AluI) (s : State) : Out := .next (s.alu t i specShr)
def execSar (t : GTgt) (i : AluI) (s : State) : Out := .next (s.alu t i specSar)
def execPopc (t : GTgt) (i : AluI) (s : State) : Out := .next (s.alu t i specPopc)
def execClz (t : GTgt) (i : AluI) (s : State) : Out := .next (s.alu t i specClz)
def execBrev (t : GTgt) (i : AluI) (s : State) : Out := .next (s.alu t i specBrev)
def execMov (t : GTgt) (i : AluI) (s : State) : Out := .next (s.alu t i specMov)
def execBfe (t : GTgt) (i : AluI) (s : State) : Out := .next (s.alu t i specBfe)
def execBfi (t : GTgt) (i : AluI) (s : State) : Out := .next (s.alu t i specBfi)
def execFadd (t : GTgt) (i : AluI) (s : State) : Out := .next (s.alu t i specFadd)
def execFmul (t : GTgt) (i : AluI) (s : State) : Out := .next (s.alu t i specFmul)
def execFfma (t : GTgt) (i : AluI) (s : State) : Out := .next (s.alu t i specFfma)
def execFmin (t : GTgt) (i : AluI) (s : State) : Out := .next (s.alu t i specFmin)
def execFmax (t : GTgt) (i : AluI) (s : State) : Out := .next (s.alu t i specFmax)
def execFabs (t : GTgt) (i : AluI) (s : State) : Out := .next (s.alu t i specFabs)
def execFneg (t : GTgt) (i : AluI) (s : State) : Out := .next (s.alu t i specFneg)
def execFrcp (t : GTgt) (i : AluI) (s : State) : Out := .next (s.alu t i specFrcp)
def execFrsq (t : GTgt) (i : AluI) (s : State) : Out := .next (s.alu t i specFrsq)
def execFsqrt (t : GTgt) (i : AluI) (s : State) : Out := .next (s.alu t i specFsqrt)
def execFexp2 (t : GTgt) (i : AluI) (s : State) : Out := .next (s.alu t i specFexp2)
def execFlog2 (t : GTgt) (i : AluI) (s : State) : Out := .next (s.alu t i specFlog2)
def execFsin (t : GTgt) (i : AluI) (s : State) : Out := .next (s.alu t i specFsin)
def execFcos (t : GTgt) (i : AluI) (s : State) : Out := .next (s.alu t i specFcos)
def execFfma2 (t : GTgt) (i : AluI) (s : State) : Out := .next (s.alu t i specFfma2)
def execHadd2 (t : GTgt) (i : AluI) (s : State) : Out := .next (s.alu t i specHadd2)
def execHmul2 (t : GTgt) (i : AluI) (s : State) : Out := .next (s.alu t i specHmul2)
def execHfma2 (t : GTgt) (i : AluI) (s : State) : Out := .next (s.alu t i specHfma2)
def execHmin2 (t : GTgt) (i : AluI) (s : State) : Out := .next (s.alu t i specHmin2)
def execHmax2 (t : GTgt) (i : AluI) (s : State) : Out := .next (s.alu t i specHmax2)
def execDadd (t : GTgt) (i : AluI) (s : State) : Out := .next (s.alu t i specDadd)
def execDmul (t : GTgt) (i : AluI) (s : State) : Out := .next (s.alu t i specDmul)
def execDfma (t : GTgt) (i : AluI) (s : State) : Out := .next (s.alu t i specDfma)
def execDmin (t : GTgt) (i : AluI) (s : State) : Out := .next (s.alu t i specDmin)
def execDmax (t : GTgt) (i : AluI) (s : State) : Out := .next (s.alu t i specDmax)
def execDrcp (t : GTgt) (i : AluI) (s : State) : Out := .next (s.alu t i specDrcp)
def execDrsq (t : GTgt) (i : AluI) (s : State) : Out := .next (s.alu t i specDrsq)
def execDsqrt (t : GTgt) (i : AluI) (s : State) : Out := .next (s.alu t i specDsqrt)
def execCvt (t : GTgt) (i : AluI) (s : State) : Out := .next (s.alu t i specCvt)

/-- SHFL (R52). -/
def execShfl (t : GTgt) (i : AluI) (s : State) : Out :=
  let o := aluOps i.f
  .next (s.issue t (aluArg i.g (shflLegal i.f) false ⟨[o.vd, o.va, o.vb], guardPreds i.g, []⟩) (fun s c slot g m =>
    let r := (lanesOf m).map (fun l => (l, shflLane g o l))
    (s.setGroup c slot (g.wrs 1 o.vd r).adv).vecOps c m false))

/-- SEL (R52). -/
def execSel (t : GTgt) (i : AluI) (s : State) : Out :=
  let o := aluOps i.f
  .next (s.issue t (aluArg i.g (selLegal i.f) false ⟨[o.vd, o.va, o.vb], (o.vc % 8) :: guardPreds i.g, []⟩) (fun s c slot g m =>
    let r := (lanesOf m).map (fun l => (l, if (g.pr (o.vc % 8)).getLsbD l then g.v1 o.va l else g.v1 o.vb l))
    (s.setGroup c slot (g.wrs 1 o.vd r).adv).vecOps c m false))

/-! ### Special moves (R52, R67) -/

/-- Special registers of 64 bits. -/
def srWide (i : Nat) : Bool := i == 0x09 || i == 0x11 || i == 0x12

/-- R67: the value of a special register in a lane. -/
def State.sr (s : State) (c : Nat) (g : Group) (lane i : Nat) : Nat :=
  let x := s.cell c
  match x.tbOf g, s.cellKernel c with
  | some b, some k =>
    (match i with
    | 0x00 => lane
    | 0x01 => g.gid
    | 0x02 => k.groups
    | 0x03 => b.x
    | 0x04 => b.y
    | 0x05 => b.z
    | 0x06 => k.gx
    | 0x07 => k.gy
    | 0x08 => k.gz
    | 0x09 => k.args
    | 0x0A => b.scrBase
    | 0x0B => b.scrSize
    | 0x0C => g.active.toNat
    | 0x0D => g.exited.toNat
    | 0x0E => (s.logicalOf c).getD 0 + 16 * (blockOf c % 12) + 256 * regionOf c
    | 0x0F => k.acct
    | 0x10 => k.asc
    | 0x11 => k.seq
    | 0x12 => s.now
    | _ => g.storeLost)
  | _, _ => 0

/-- S2V (R52, R67): F1 only, imm32[31:8], `mod` and va zero, the register not reserved. -/
def execS2v (t : GTgt) (i : AluI) (s : State) : Out :=
  let o := aluOps i.f
  let r := o.imm.getD 0
  let n := if srWide r then 2 else 1
  let legal := o.imm.isSome && decide (r < 0x14) && o.va == 0 && o.mod == 0
  .next (s.issue t (aluArg i.g legal (misReg n o.vd) ⟨regRun o.vd n, guardPreds i.g, []⟩) (fun s c slot g m =>
    let v := (lanesOf m).map (fun l => (l, s.sr c g l r))
    (s.setGroup c slot (g.wrs n o.vd v).adv).vecOps c m false))

/-- U2V (R52, R54): `mod` 2 or 3 moves 64 bits. -/
def execU2v (t : GTgt) (i : AluI) (s : State) : Out :=
  let o := aluOps i.f
  let u := o.imm.getD 0
  let n := if o.mod ≥ 2 then 2 else 1
  let legal := o.imm.isSome && decide (u < 32) && o.va == 0
  .next (s.issue t (aluArg i.g legal (misReg n o.vd) ⟨regRun o.vd n, guardPreds i.g, [u]⟩) (fun s c slot g m =>
    let v := (lanesOf m).map (fun l => (l, g.ur u))
    (s.setGroup c slot (g.wrs n o.vd v).adv).vecOps c m false))

/-- V2U (R52): the lowest acting lane's va, zero-extended; no acting lane changes nothing. -/
def execV2u (t : GTgt) (i : AluI) (s : State) : Out :=
  let o := aluOps i.f
  let u := o.imm.getD 0
  let legal := o.imm.isSome && decide (u < 32) && o.vd == 0 && o.mod == 0
  .next (s.issue t (aluArg i.g legal false ⟨[o.va], guardPreds i.g, [u]⟩) (fun s c slot g m =>
    let g' := match lanesOf m with | [] => g | l :: _ => g.setU u (g.v1 o.va l)
    (s.setGroup c slot g'.adv).vecOps c m false))

end Sys2Proof.Machine
end

