-- ==== Sys2Proof/Machine/Membar.lean ====
section
/-!
DEFINITION. The barrier instructions' two halves (R154 to R156) and the group barrier's release (R62).
-/

namespace Sys2Proof.Machine

/-- Whether a target is a peer's memory. -/
def Target.isPeer : Target → Bool
  | .peer _ _ => true
  | _ => false

/-- Whether a request keeps a barrier of its group waiting at every scope: a store that has left for a peer does not. -/
def Req.holdsBarrier (r : Req) : Bool :=
  match r.kind with
  | .store _ => r.lanes.any (fun l => match l.st with | .sent _ => false | .done _ => false | .failed _ => false | _ => true)
  | _ => true

/-- R154: whether a TSTORE or TGATHER past its completion point has still to retire. -/
def StreamSt.lateTile (x : StreamSt) : Bool := x.prog.any (fun p => p.done && (p.sw.op == 0x11 || p.sw.op == 0x12))

/-- The class of a request: 0 load, 1 store, 2 non-temporal store, 3 home operation. -/
def ReqKind.cls : ReqKind → Nat
  | .load _ _ _ _ => 0
  | .uload _ => 0
  | .store _ => 1
  | .storeNt _ => 2
  | _ => 3

/-- Whether a lane has its answer. -/
def LaneOp.final (l : LaneOp) : Bool :=
  match l.st with
  | .done _ => true
  | .failed _ => true
  | _ => false

/-- R154: whether a remote operation of the cell, earlier than request `upto`, awaits its peer. -/
def State.remoteOut (s : State) (c upto : Nat) : Bool :=
  s.remote.any (fun r => RemReq.ofCell c r && (match r.svc with | .lane _ id _ => decide (id < upto) | _ => true))
    || (s.cell c).reqs.any (fun r => decide (r.id < upto) && r.lanes.any (fun l => l.tgt.isPeer && !l.final))

/-- R154: whether a store or home operation of the cell to host memory, earlier than request `upto`, is not yet
performed. -/
def Cell.hostOut (x : Cell) (upto : Nat) : Bool :=
  x.reqs.any (fun r => decide (r.id < upto) && r.kind.cls != 0 &&
    r.lanes.any (fun l => (match l.tgt with | .host _ => true | _ => false) && !l.final))

/-- R154, R170: the release half of a barrier of a scope (0 CELL, 1 DEVICE, 2 SYSTEM, 3 FABRIC) pushed on as far as it
goes, and whether it is complete; `upto` is the first request of the cell that came after it. Stores to host memory are
performed at the shared cache, which is coherent with the host. -/
def State.release (s : State) (c slot scope upto : Nat) : State × Bool :=
  let r := s.combFlushAll c
  if !r.2 || (r.1.cell c).reqs.any (fun q => q.slot == slot && q.holdsBarrier) then (r.1, false)
  else if scope = 0 then r
  else
    let r2 := r.1.l2CleanCell c
    (r2.1, r2.2 && !(r2.1.cell c).sa.lateTile && (decide (scope < 2) || !(r2.1.cell c).hostOut upto)
      && (decide (scope < 3) || !r2.1.remoteOut c upto))

/-- R154: the acquire half. -/
def State.acquire (s : State) (c scope : Nat) : State := if scope = 0 then s else (s.l1Inval c).l2Stale c

/-- A group's wait ended. -/
def State.unwait (s : State) (c slot : Nat) : State :=
  s.modCell c (fun x => { x with
    groups := x.groups.map (fun e => if e.1 = slot then (e.1, { e.2 with wait := .none }) else e) })

/-- R154: a waiting barrier tried again. -/
def State.membarTry (s : State) (c slot scope upto : Nat) : State :=
  match s.release c slot scope upto with
  | (s, true) => (s.acquire c scope).unwait c slot
  | (s, false) => s

/-- Every waiting MEMBAR of a cell tried again. -/
def State.membarPoll (s : State) (c : Nat) : State :=
  s.each (s.cell c).groups (fun s e => match e.2.wait with | .membar n _ u _ => s.membarTry c e.1 n u | _ => s)

/-- R62: the groups of a thread block that wait at a barrier are released once each of its groups waits there or has
ended. -/
def State.barRelease (s : State) (c tb : Nat) : State :=
  let gs := (s.cell c).groups.filter (fun e => e.2.tb == tb)
  if gs.all (fun e => e.2.ended || e.2.wait == .barrier) then
    s.each gs (fun s e => if e.2.wait = .barrier then s.unwait c e.1 else s)
  else s

end Sys2Proof.Machine
end

