-- ==== Sys2Proof/Machine/Streams.lean ====
section
/-!
DEFINITION. The macro-op streams of a cell: words (R79, R80), descriptors (R81, R82), taking, starting, signalling and
retiring a macro-op (R76, R77, R83 to R86, R173), and the queue-protocol checks (R87).
-/

namespace Sys2Proof.Machine

/-! ### Words -/

/-- Bits `[lo + w − 1 : lo]` of a macro-op word, in its payload. -/
def mfld (w : MacroWord) (lo n : Nat) : Nat := bits w.payload.toNat (lo - 32) n

/-- A macro-op word of 128 bits as its operation and its other fields (R79). -/
def macroOf (n : Nat) : Nat × MacroWord :=
  (bits n 0 8,
    { we := n.testBit 8, wq := Fin.ofNat 4 (bits n 9 2), se := n.testBit 11, sq := Fin.ofNat 4 (bits n 12 2)
      tchk := n.testBit 14, rsv := n.testBit 15, tag := BitVec.ofNat 16 (bits n 16 16)
      payload := BitVec.ofNat 96 (bits n 32 96) })

/-- R80: the payload fields of an operation as (lowest bit, width); none for an operation that is not listed. -/
def macroFields (op : Nat) : Option (List (Nat × Nat)) :=
  match op with
  | 0x00 => some []
  | 0x01 => some []
  | 0x02 => some [(32, 32)]
  | 0x03 => some [(32, 2), (40, 24)]
  | 0x04 => some [(32, 2), (40, 24)]
  | 0x05 => some [(32, 4), (64, 64)]
  | 0x06 => some [(32, 4), (40, 24)]
  | 0x07 => some [(32, 3), (64, 57)]
  | 0x08 => some [(32, 3), (64, 32)]
  | 0x09 => some [(32, 4)]
  | 0x10 => some [(32, 19)]
  | 0x11 => some [(32, 7), (40, 11)]
  | 0x12 => some [(32, 7), (40, 4), (64, 32)]
  | 0x13 => some [(36, 3), (42, 9)]
  | 0x20 => some [(32, 23)]
  | 0x21 => some [(32, 7)]
  | 0x22 => some [(32, 4)]
  | 0x23 => some [(32, 22), (64, 32)]
  | 0x24 => some [(32, 16)]
  | 0x25 => some [(32, 15)]
  | 0x26 => some [(32, 7)]
  | _ => none

/-- R80: the payload has no bit outside an operation's fields. -/
def payloadOk (fs : List (Nat × Nat)) (w : MacroWord) : Bool :=
  let m := fs.foldl (fun a f => a ||| (2 ^ f.2 - 1) * 2 ^ (f.1 - 32)) 0
  w.payload.toNat &&& m == w.payload.toNat

/-- Whether an operation belongs to a stream (R80). -/
def opOf (st : Stream) (op : Nat) : Bool :=
  decide (op < 0x10) || (match st with | .access => decide (op < 0x20) | .execute => decide (op ≥ 0x20))

/-- R77, R80: a word well formed for its stream; `appended` says it came from the append buffer. -/
def wordOk (st : Stream) (op : Nat) (w : MacroWord) (appended : Bool) : Bool :=
  match macroFields op with
  | none => false
  | some fs =>
    !w.rsv && payloadOk fs w && opOf st op && (!w.tchk || w.we)
      && (op != 0x09 || (decide (1 ≤ mfld w 32 4) && decide (mfld w 32 4 ≤ 8)))
      && !(appended && (op == 0x09 || op == 0x02 || op == 0x03))

/-! ### Streams and queues -/

def Cell.stream (x : Cell) (st : Stream) : StreamSt := match st with | .access => x.sa | .execute => x.sx
def Cell.setStream (x : Cell) (st : Stream) (y : StreamSt) : Cell :=
  match st with | .access => { x with sa := y } | .execute => { x with sx := y }
def State.stream (s : State) (c : Nat) (st : Stream) : StreamSt := (s.cell c).stream st
def State.modStream (s : State) (c : Nat) (st : Stream) (f : StreamSt → StreamSt) : State :=
  s.modCell c (fun x => x.setStream st (f (x.stream st)))

/-- The other stream. -/
def other (st : Stream) : Stream := match st with | .access => .execute | .execute => .access

/-- The queues that a stream pushes to (R86). -/
def Cell.outQ (x : Cell) (st : Stream) (q : Nat) : List (BitVec 16) :=
  mapGet [] (match st with | .access => x.aq | .execute => x.xq) q

/-- The outgoing queue of a stream replaced. -/
def Cell.setOutQ (x : Cell) (st : Stream) (q : Nat) (l : List (BitVec 16)) : Cell :=
  match st with
  | .access => { x with aq := mapSet [] x.aq q l }
  | .execute => { x with xq := mapSet [] x.xq q l }

/-- The stream number of CEL_TS registers and of halt sources. -/
def streamNo (st : Stream) : Nat := match st with | .access => 0 | .execute => 1

/-- A halt whose source is a stream, or the cell for ECC_UNCORRECTABLE (R70). -/
def State.haltStream (s : State) (c : Nat) (st : Stream) (pc reason : Nat) (addr : Option Nat) (more : Bool) : State :=
  s.haltCell c ⟨reason, if reason = hrEcc then 3 else 1 + streamNo st, 0, 0, pc, addr, more, 0⟩

/-! ### Descriptors -/

/-- An operand descriptor (R81). -/
structure Desc where
  addr   : Nat
  rows   : Nat
  cols   : Nat
  stride : Nat
  fmt    : Nat
deriving DecidableEq, Repr

/-- The fields of a descriptor register. -/
def descOf (v : Nat) : Desc := ⟨bits v 0 18, bits v 18 12, bits v 30 12, bits v 42 14, bits v 56 4⟩

/-- R82: the element width of a format. -/
def fmtBits (f : Nat) : Nat :=
  match f with
  | 0x4 => 6
  | 0x5 => 6
  | 0x6 => 4
  | 0x8 => 16
  | 0x9 => 16
  | 0xA => 32
  | 0xB => 32
  | 0xC => 64
  | _ => 8

/-- The bits of a row, and its bytes. -/
def Desc.rowBits (d : Desc) : Nat := d.cols * fmtBits d.fmt
def Desc.rowLen (d : Desc) : Nat := d.rowBits / 8

/-- R81: the extent as a closed range. -/
def Desc.extent (d : Desc) : Nat × Nat := (d.addr, d.addr + (d.rows - 1) * 16 * d.stride + d.rowLen - 1)

/-- Why a macro-op halts at its checks: the reason and CEL_HALT_ADDR. -/
abbrev MBad := Nat × Option Nat

/-- R82: the checks of a descriptor other than a macro-op's own rules and the extent. -/
def descBase (v : Nat) : Except MBad Desc :=
  let d := descOf v
  if d.addr % 16 ≠ 0 ∨ d.rows = 0 ∨ d.cols = 0 ∨ d.fmt ≥ 0xD ∨ d.rowBits % 8 ≠ 0 ∨ 16 * d.stride < d.rowLen
      ∨ bits v 60 4 ≠ 0 ∨ d.stride = 0 then .error (hrTileBad, none)
  else .ok d

/-- R82: the extent check. -/
def rangeOk (start last : Nat) : Except MBad Unit :=
  if last > 0x3FFFF then .error (hrScratchRange, some start) else .ok ()

/-- R82: a descriptor with its extent. -/
def descFull (v : Nat) : Except MBad Desc := do
  let d ← descBase v
  rangeOk d.extent.1 d.extent.2
  return d

/-- A rule of a macro-op: its breach halts for a reason. -/
def need (b : Bool) (reason : Nat) : Except MBad Unit := if b then .ok () else .error (reason, none)

/-- Whether closed ranges overlap. -/
def rangesMeet (a b : List (Nat × Nat)) : Bool := a.any (fun x => b.any (fun y => decide (x.1 ≤ y.2) && decide (y.1 ≤ x.2)))

/-! ### Signals and retirement -/

/-- Whether a macro-op still owes its signal. -/
def InProg.owes (p : InProg) : Bool := p.sw.w.se && !p.pushed

/-- R83, R64: a macro-op retires. -/
def State.retireOp (s : State) (c : Nat) (st : Stream) (p : InProg) : State :=
  let s := s.modStream c st (fun x => { x with
    prog := x.prog.filter (fun q => q.n != p.n)
    pend := if p.sw.appended then x.pend - 1 else x.pend
    ended := x.ended || p.sw.op == 0x01
    endAddr := if p.sw.op = 0x01 then p.sw.addr else x.endAddr })
  let s := s.modCell c (fun x => { x with progress := s.wdUntil })
  (s.addFld .CEL_TS_RETIRED_count (2 * c + streamNo st) 1).cellPmc c 0x03 1

/-- R84, R86: the pushes a stream can make now, in program order. -/
def State.pushLoop : Nat → State → Nat → Stream → State
  | 0, s, _, _ => s
  | n + 1, s, c, st =>
    match (s.stream c st).prog.find? InProg.owes with
    | none => s
    | some p =>
      let q := (s.cell c).outQ st p.sw.w.sq.val
      if p.done && decide (q.length < 16) then
        let s := s.modCell c (fun x => x.setOutQ st p.sw.w.sq.val (q ++ [p.sw.w.tag]))
        State.pushLoop n (s.modStream c st (fun x => { x with
          prog := x.prog.map (fun y => if y.n = p.n then { y with pushed := true } else y) })) c st
      else s

/-- R83: control operations whose signal is out retire at once. -/
def State.retireControls (s : State) (c : Nat) (st : Stream) : State :=
  s.each ((s.stream c st).prog.filter (fun p => decide (p.sw.op < 0x10) && p.done && !p.owes))
    (fun s p => s.retireOp c st p)

/-- The pushes of a stream and the retirements they free. -/
def State.flushPush (s : State) (c : Nat) (st : Stream) : State :=
  (State.pushLoop ((s.stream c st).prog.length + 1) s c st).retireControls c st

/-- R64: groups whose TWAIT is satisfied go on. -/
def State.twaitPoll (s : State) (c : Nat) : State :=
  s.each (s.cell c).groups (fun s e =>
    match e.2.wait with
    | .twait st n => if (s.stream c st).pend ≤ n then s.unwait c e.1 else s
    | _ => s)

/-! ### Limits and overlaps -/

/-- What a macro-op reads and writes in the scratchpad, the virtual addresses it moves with where they lead, the
descriptor values it uses, the lines of 128 bytes it moves through the L1 port (R59), and whether it waits for its memory
side (R206, R240), with a line that the host holds and whether it is to be written. -/
structure Plan where
  rd    : List (Nat × Nat) := []
  wr    : List (Nat × Nat) := []
  tg    : List (Nat × Target) := []
  args  : List Nat := []
  lines : Nat := 0
  hold  : Bool := false
  snoop : Option (Target × Bool) := none

/-- The unit an operation occupies: 1 tile transfers, 2 the array, 3 the vector path (R84). -/
def unitOfOp (op : Nat) : Nat := if op < 0x10 then 0 else if op < 0x20 then 1 else if op < 0x23 then 2 else 3

/-- R84: the limit on macro-ops in progress leaves room. -/
def StreamSt.room (x : StreamSt) (op : Nat) : Bool :=
  let u := unitOfOp op
  let n := (x.prog.filter (fun p => unitOfOp p.sw.op == u)).length
  if u = 0 then true else if u = 1 then decide (n < 4) else decide (n < 1)

/-- R85, R173: the macro-op overlaps one in progress. -/
def StreamSt.overlaps (x : StreamSt) (op : Nat) (p : Plan) : Bool :=
  x.prog.any (fun q => rangesMeet p.wr (q.rd ++ q.wr) || rangesMeet p.rd q.wr ||
    ((op == 0x11 || q.sw.op == 0x11) && q.tiles.any (fun t => p.tg.any (fun u => u.1 / 4096 == t.1 / 4096))))

/-! ### Queue-protocol checks (R87) -/

/-- The plan of the waiting macro-op of a stream, where it has one. -/
abbrev PlanOf := State → Nat → Stream → StreamWord → Except MBad Plan

/-- How a stream waits (R87): the address of the macro-op that waits to pop or to push, or none. DEDUCED: a stream whose
END is performed while an earlier push of its own is held waits on that push, log entry 43. -/
def State.qWait (s : State) (pl : PlanOf) (c : Nat) (st : Stream) : Option Nat :=
  let x := s.stream c st
  let quiet := x.prog.all (fun p => p.done)
  let owed := x.prog.find? InProg.owes
  if !x.started || !quiet then none
  else if x.ended then owed.map (fun p => p.sw.addr)
  else
    match x.head with
    | none =>
      if x.prog.any (fun p => p.sw.op == 0x01) then owed.map (fun p => p.sw.addr) else none
    | some h =>
      let heldBack := !x.room h.op || (match pl s c st h with | .ok p => x.overlaps h.op p | .error _ => false)
      if heldBack then owed.map (fun p => p.sw.addr)
      else if h.w.we && ((s.cell c).outQ (other st) h.w.wq.val).isEmpty then some h.addr
      else none

/-- Whether every group of a cell has ended. -/
def Cell.allEnded (x : Cell) : Bool := x.groups.all (fun e => e.2.ended)

/-- Whether a stream has ended and can push nothing more. -/
def StreamSt.quietEnd (x : StreamSt) : Bool := x.ended && x.prog.all (fun p => !p.owes)

/-- Whether a stream waits on its append buffer. -/
def StreamSt.starved (x : StreamSt) : Bool :=
  x.started && !x.ended && x.append && x.buf.isEmpty && x.head.isNone && !(x.prog.any (fun p => p.sw.op == 0x01))

/-- Whether a data queue or an append buffer of a cell holds anything. -/
def Cell.leftover (x : Cell) : Bool := !x.aq.isEmpty || !x.xq.isEmpty || !x.sa.buf.isEmpty || !x.sx.buf.isEmpty

/-- R87, the fourth row: a stream waits on its append buffer and every group has ended. -/
def State.qpStarved (s : State) (c : Nat) : Option State :=
  let x := s.cell c
  if !x.allEnded then none
  else if x.sa.starved then some (s.haltStream c .access x.sa.mpc hrQueueProtocol none x.sx.starved)
  else if x.sx.starved then some (s.haltStream c .execute x.sx.mpc hrQueueProtocol none false)
  else none

/-- R87: the queue-protocol faults that a stream's waiting gives. -/
def State.qpCheck (s : State) (pl : PlanOf) (c : Nat) : State :=
  let x := s.cell c
  if x.state ≠ .running ∨ !x.sa.started ∨ !x.sx.started then s
  else
    let wa := s.qWait pl c .access
    let wx := s.qWait pl c .execute
    match wa, wx with
    | some _, some a => s.haltStream c .execute a hrQueueProtocol none false
    | none, some a =>
      if x.sa.quietEnd then s.haltStream c .execute a hrQueueProtocol none false else (s.qpStarved c).getD s
    | some a, none =>
      if x.sx.quietEnd then s.haltStream c .access a hrQueueProtocol none false else (s.qpStarved c).getD s
    | none, none =>
      match s.qpStarved c with
      | some s => s
      | none =>
        if x.allEnded && x.sa.ended && x.sx.ended && x.leftover then
          s.haltStream c .execute x.sx.endAddr hrQueueProtocol none false
        else s

/-- What follows a change in a cell's streams: pushes, TWAIT, MEMBAR and R87. -/
def State.streamPoll (s : State) (pl : PlanOf) (c : Nat) : State :=
  let s := (s.flushPush c .access).flushPush c .execute
  ((s.twaitPoll c).membarPoll c).qpCheck pl c

/-- R109: whether an operation occupies a cell's array: an MMA does so until its checksum test has ended and it retires.
-/
def Cell.arrayBusy (x : Cell) : Bool := x.sx.prog.any (fun p => unitOfOp p.sw.op == 2)

/-! ### The L1 port and the scratchpad ports (R59) -/

/-- R58: whether a request still holds its entry of the memory request queue. -/
def Req.queued (r : Req) : Bool := !r.acc && r.lanes.any (fun l => l.st == .todo)

/-- R59: one grant of the L1 port: to the oldest request that waits and to the tile transfers of the access stream
alternately while both wait. -/
def Cell.l1Grant (x : Cell) : Cell :=
  let accept := fun (r : Req) => { x with
    l1Tile := false, reqs := x.reqs.map (fun q => if q.id = r.id then { q with acc := true } else q) }
  let line := fun (p : InProg) => { x with
    l1Tile := true
    sa := { x.sa with prog := x.sa.prog.map (fun q => if q.n = p.n then { q with left := q.left - 1 } else q) } }
  match x.reqs.find? Req.queued, x.sa.prog.find? (fun p => decide (p.left > 0)) with
  | none, none => x
  | some r, none => accept r
  | none, some p => line p
  | some r, some p => if x.l1Tile then accept r else line p

/-- Grants of the L1 port until a request has been accepted. -/
def Cell.l1Accept (id : Nat) : Nat → Cell → Cell
  | 0, x => x
  | n + 1, x => if x.reqs.any (fun r => r.id == id && r.queued) then x.l1Grant.l1Accept id n else x

/-- Grants of the L1 port until a macro-op's lines have all been transferred. -/
def Cell.l1Move (m : Nat) : Nat → Cell → Cell
  | 0, x => x
  | n + 1, x => if x.sa.prog.any (fun p => p.n == m && decide (p.left > 0)) then x.l1Grant.l1Move m n else x

/-- The grants that the requests and lines at the port can take. -/
def Cell.l1Grants (x : Cell) : Nat := (x.sa.prog.map (·.left)).sum + x.reqs.length

/-- Who asks for the scratchpad ports. -/
inductive ScrUser
  | execute
  | access
  | thread
deriving DecidableEq, Repr

/-- Whether a stream has a macro-op in progress that reads or writes the scratchpad. -/
def StreamSt.scrWants (x : StreamSt) : Bool := x.prog.any (fun p => !p.done && unitOfOp p.sw.op != 0)

/-- R59: who is granted the scratchpad ports while a thread-side request waits: the execute stream, then the access
stream, then the request; the request at last after four grants to the streams. -/
def Cell.scrNext (x : Cell) : ScrUser :=
  if x.scrRun ≥ 4 then .thread
  else if x.sx.scrWants then .execute
  else if x.sa.scrWants then .access
  else .thread

/-- Grants of the scratchpad ports until the waiting thread-side request is next. -/
def Cell.scrWait : Nat → Cell → Cell
  | 0, x => x
  | n + 1, x => if x.scrNext = .thread then x else Cell.scrWait n { x with scrRun := x.scrRun + 1 }

/-- A thread-side request granted: `scrRun` holds the grants it let pass. -/
def Cell.scrGrant (x : Cell) : Cell := Cell.scrWait 4 { x with scrRun := 0 }

/-! ### Taking and starting a macro-op -/

/-- R76, R77: the next word of a stream offered: the word now at its head, taken from the append buffer or from the
fetched sequence; none where the stream takes no such word. -/
def State.offer (s : State) (c : Nat) (st : Stream) (op : Nat) (w : MacroWord) : Option (State × StreamWord) :=
  let x := s.stream c st
  if !s.alive || (s.cell c).state != .running || !x.started || x.ended || x.prog.any (fun p => p.sw.op == 0x01) then none
  else
    match x.head with
    | some h => if h.op = op ∧ h.w = w then some (s, h) else none
    | none =>
      if x.append then
        match x.buf with
        | [] => none
        | b :: t =>
          if b.op = op ∧ b.w = w then
            some (s.modStream c st (fun x => { x with
              head := some b, buf := t, left := x.left - 1, append := x.left != 1 }), b)
          else none
      else
        let sw : StreamWord := ⟨op, w, x.mpc, false⟩
        some (s.modStream c st (fun x => { x with head := some sw, mpc := (x.mpc + 16) % 2 ^ 57 }), sw)

/-- R84: the pop of a start; the popped tag is returned. -/
def State.popFor (s : State) (c : Nat) (st : Stream) (w : MacroWord) : Option (State × BitVec 16) :=
  match (s.cell c).outQ (other st) w.wq.val with
  | [] => none
  | t :: r => some (s.modCell c (fun x => x.setOutQ (other st) w.wq.val r), t)

/-- R80: an appended word whose operation is not listed halts its stream when its turn comes; after an END no word's does
(R77). -/
def State.headCheck (s : State) (c : Nat) (st : Stream) : State :=
  let x := s.stream c st
  match x.head, x.append, x.buf with
  | none, true, b :: _ =>
    if (macroFields b.op).isNone && !x.ended && !x.prog.any (fun p => p.sw.op == 0x01) then
      s.haltStream c st b.addr hrTileBad none false
    else s
  | _, _, _ => s

/-- A macro-op offered by its row: word checks, limits, checks, overlap, pop, start (R80, R82, R84, R85). `start` gets
the state with the macro-op off the head, its number and its plan, and puts it in progress. -/
def State.macroOp (s : State) (pl : PlanOf) (cid : CellId) (st : Stream) (op : Nat) (w : MacroWord)
    (start : State → Nat → Nat → StreamWord → Plan → State) : State :=
  let c := cellNo cid
  match s.offer c st op w with
  | none => s
  | some (s, sw) =>
    if !wordOk st op w sw.appended then s.haltStream c st sw.addr hrTileBad none false
    else
      if !(s.stream c st).room op then s.streamPoll pl c
      else
      match pl s c st sw with
      | .error (r, a) => s.haltStream c st sw.addr r a false
      | .ok p =>
        if (s.stream c st).overlaps op p then s.streamPoll pl c
        else if p.hold then (match p.snoop with | some t => s.biSnoop t.1 t.2 | none => s)
        else
          let go := fun (s : State) =>
            let n := (s.stream c st).nextN
            let s := s.modStream c st (fun x => { x with head := none, nextN := n + 1 })
            ((start s c n sw p).headCheck c st).streamPoll pl c
          if w.we then
            match s.popFor c st w with
            | none => s.streamPoll pl c
            | some (s, t) =>
              if w.tchk ∧ t ≠ w.tag then s.haltStream c st sw.addr hrQueueProtocol none false else go s
          else go s

/-- A macro-op put in progress. -/
def State.inProg (s : State) (c : Nat) (st : Stream) (p : InProg) : State :=
  s.modStream c st (fun x => { x with prog := x.prog ++ [{ p with time := s.now }] })

/-- A macro-op in progress with a plan's extents, before its completion point. -/
def started (n : Nat) (sw : StreamWord) (p : Plan) : InProg :=
  { n := n, sw := sw, done := false, pushed := false, rd := p.rd, wr := p.wr, tiles := p.tg, bytes := [], args := p.args
    e1 := [], loose := false, left := p.lines, time := 0 }

/-- R83: a control operation performed: it is complete and its signal follows. -/
def State.control (s : State) (c : Nat) (st : Stream) (n : Nat) (sw : StreamWord) (p : Plan) : State :=
  s.inProg c st { started n sw p with done := true }

end Sys2Proof.Machine
end

