-- ==== Sys2Proof/Machine/Matrix.lean ====
section
/-!
DEFINITION. The arithmetic of the matrix array and of the vector path: element formats (R82, R112), products (R94, R106,
R115, R116), FP64 slice mode (R119 to R123), checksums (R125 to R128), tables (R136 to R140), elementwise functions (R97,
R98, R114).
-/

namespace Sys2Proof.Machine

/-! ### Elements -/

/-- The rows of an operand as lists of element codes (R81). -/
def Desc.matrix (d : Desc) (scr : NMap Byte) : List (List Nat) :=
  let b := fmtBits d.fmt
  (List.range d.rows).map (fun r =>
    let row := leNat (bytesAt scr (d.addr + r * 16 * d.stride) d.rowLen)
    (List.range d.cols).map (fun j => bits row (b * j) b))

/-- A row of element codes as bytes. -/
def packRow (b n : Nat) (l : List Nat) : List Byte :=
  natLe n ((l.reverse).foldl (fun a x => a * 2 ^ b + x % 2 ^ b) 0)

/-- The floating-point format of a code (R82). -/
def fmtFp (f : Nat) : Option FFmt :=
  match f with
  | 0x2 => some .e4m3
  | 0x3 => some .e5m2
  | 0x4 => some .e3m2
  | 0x5 => some .e2m3
  | 0x6 => some .e2m1
  | 0x8 => some .bf16
  | 0x9 => some .fp16
  | 0xA => some .fp32
  | 0xC => some .fp64
  | _ => none

/-- The value of an E8M0 scale (R112). -/
def scaleVal (v : Nat) : FVal := if v = 0xFF then .nan else .fin false 1 ((v : Int) - 127)

/-- The value of an element (R112). -/
def elemVal (f v : Nat) : FVal :=
  match fmtFp f with
  | some g => g.dec v
  | none =>
    match f with
    | 0x0 => FVal.ofInt (sgn 8 v)
    | 0x7 => scaleVal v
    | 0xB => FVal.ofInt (sgn 32 v)
    | _ => FVal.ofInt (v : Int)

/-- The value of an integer element. -/
def elemInt (f v : Nat) : Int := if f = 0x0 then sgn 8 v else if f = 0xB then sgn 32 v else (v : Int)

/-- A list element with a default. -/
def at2 {α : Type} (d : α) (m : List (List α)) (r c : Nat) : α := (m.getD r []).getD c d

/-- A matrix read by columns. -/
def transposed {α : Type} (d : α) (m : List (List α)) (cols : Nat) : List (List α) :=
  (List.range cols).map (fun c => m.map (fun r => r.getD c d))

/-! ### Operand pairs (R95) -/

/-- The classes of R95's pairs: 8-bit integers, FP8, FP6 or FP4, and the rest by format. -/
def pairOf (a b : Nat) : Option Nat :=
  let int8 := fun f => decide (f ≤ 1)
  let fp8 := fun f => f == 2 || f == 3
  let fp64 := fun f => decide (4 ≤ f) && decide (f ≤ 6)
  if int8 a && int8 b then some 1
  else if fp8 a && fp8 b then some 0
  else if (fp8 a && b == 8) || (a == 8 && fp8 b) then some 0
  else if fp64 a && fp64 b then some 0
  else if a == b && (a == 8 || a == 9 || a == 0xA) then some 0
  else if a == 0xC && b == 0xC then some 2
  else none

/-- R106: the K elements of one step. -/
def kStep (a b : Nat) : Nat :=
  if a ≤ 3 ∧ b ≤ 3 then 2 else if 4 ≤ a ∧ a ≤ 6 then 4 else 1

/-- R106: the step tokens of an MMA outside slice mode. -/
def stepTokens (a b k : Nat) : Nat := if a = 0xA then 2 * k else ceilDiv k (kStep a b)

/-! ### Floating-point accumulation -/

/-- The FP32 code of a sum: an exact zero is +0 (R115). -/
def enc32 (v : FVal) : Nat :=
  match v with
  | .fin _ 0 _ => 0
  | v => FFmt.fp32.enc .ne v

/-- R115: a step's products, summed exactly and added to the accumulator with one rounding. -/
def fpStep (acc : Nat) (ps : List FVal) : Nat :=
  enc32 (FVal.add .ne (FFmt.fp32.dec acc) (ps.foldl (FVal.add .ne) (.fin false 0 0)))

/-- A list cut into runs of `n`. -/
def chunks {α : Type} (n : Nat) : Nat → List α → List (List α)
  | 0, _ => []
  | m + 1, l => if l.isEmpty then [] else l.take n :: chunks n m (l.drop n)

/-- R115: one accumulator element over all of K. -/
def fpDot (step acc : Nat) (a b : List FVal) : Nat :=
  (chunks step (a.length + 1) (List.zipWith FVal.mul a b)).foldl fpStep acc

/-- An FP32 sum of values in the fixed order of R125 and R127: ascending from +0 (DESIGN CHOICE, log entry 57). -/
def sum32 (l : List FVal) : Nat := l.foldl (fun a v => FFmt.fp32.enc .ne (FVal.add .ne (FFmt.fp32.dec a) v)) 0

/-- A running FP32 sum of products, rounded after each (R125: DESIGN CHOICE, log entry 57). -/
def dot32 (acc : Nat) (a b : List FVal) : Nat :=
  (List.zipWith FVal.mul a b).foldl (fun s v => FFmt.fp32.enc .ne (FVal.add .ne (FFmt.fp32.dec s) v)) acc

/-! ### Slice mode -/

/-- R119: ⌊log2⌋ of the largest finite magnitude, none where all are zero. -/
def expMax (l : List FVal) : Option Int :=
  l.foldl (fun a v =>
    match v with
    | .fin _ m e =>
      if m = 0 then a
      else
        let t := e + (Nat.log2 m : Int)
        (match a with | some x => some (max x t) | none => some t)
    | _ => a) none

/-- R120: an element as an integer at exponent `8s − 1 − ea`. -/
def sliceInt (s : Nat) (ea : Int) (v : FVal) : Int := ((v.scale (8 * (s : Int) - 1 - ea)).toInt .ne).getD 0

/-- R120: the `s` signed digits of an integer, the least significant last. -/
def digits : Nat → Int → List Int
  | 0, _ => []
  | n + 1, x =>
    let d := sgn 8 (lowBits 8 x)
    digits n ((x - d) / 256) ++ [d]

/-- R121: the pair products of one k, with their weights. -/
def slicePairs (s : Nat) (da db : List Int) : Int :=
  ((List.range s).map (fun p => ((List.range (s - p)).map (fun q =>
    da.getD p 0 * db.getD q 0 * ((2 ^ (8 * (s - 1 - p - q)) : Nat) : Int))).sum)).sum

/-- R121: a slice register. -/
def sliceDot (s : Nat) (a b : List (List Int)) : Int := (List.zipWith (slicePairs s) a b).sum

/-- R122: the FP64 value of a slice register. -/
def sliceVal (s : Nat) (ea eb : Int) (v : Int) : Nat :=
  FFmt.fp64.enc .ne ((FVal.ofInt v).scale (ea + eb - 6 - 8 * (s : Int)))

/-- Whether a row or a column holds a NaN or an infinity (R123). -/
def anySpecial (l : List FVal) : Bool := l.any (fun v => !v.isFin)

/-! ### An MMA -/

/-- R119, R123: the exponent of a row or column in slice mode, none where it holds a NaN or an infinity. -/
def sliceExp (l : List FVal) : Option Int := if anySpecial l then none else some ((expMax l).getD 0 + 2)

/-- The operands of an MMA: formats, M, K, N, values by rows of A and by columns of B, in slice mode the slice count and
the exponents of rows and columns. -/
structure MmaOps where
  fa : Nat
  fb : Nat
  m  : Nat
  k  : Nat
  n  : Nat
  a  : List (List FVal)
  b  : List (List FVal)
  s  : Nat
  ea : List (Option Int)
  eb : List (Option Int)

/-- A value with its block scale (R113); a NaN scale makes it NaN. -/
def scaled (sc : List (List Nat)) (r k : Nat) (v : FVal) : FVal := FVal.mul v (scaleVal (at2 0 sc r (k / 32)))

/-- A clear of the accumulator (R126). -/
def AccSt.clear (type : Nat) : AccSt := { AccSt.init with type := type }

/-- R115: the FP32 accumulator with its checksums after an MMA (R125). -/
def mmaFp (x : AccSt) (o : MmaOps) : AccSt :=
  let step := kStep o.fa o.fb
  let ks := List.range o.k
  let cols := List.range o.n
  let rows := List.range o.m
  let c := rows.foldl (fun c i => cols.foldl (fun c j =>
    mapSet 0 c (16 * i + j) (fpDot step (mapGet 0 x.c (16 * i + j)) (o.a.getD i []) (o.b.getD j []))) c) x.c
  let as := ks.map (fun k => FFmt.fp32.dec (sum32 (rows.map (fun i => at2 .nan o.a i k))))
  let aa := ks.map (fun k => FFmt.fp32.dec (sum32 (rows.map (fun i => (at2 .nan o.a i k).abs))))
  let bs := ks.map (fun k => FFmt.fp32.dec (sum32 (cols.map (fun j => at2 .nan o.b j k))))
  let ba := ks.map (fun k => FFmt.fp32.dec (sum32 (cols.map (fun j => (at2 .nan o.b j k).abs))))
  { x with
    c := c
    rj := cols.foldl (fun m j => mapSet 0 m j (dot32 (mapGet 0 m j).toNat as (o.b.getD j []) : Int)) x.rj
    mj := cols.foldl (fun m j => mapSet 0 m j (dot32 (mapGet 0 m j) aa ((o.b.getD j []).map FVal.abs))) x.mj
    ci := rows.foldl (fun m i => mapSet 0 m i (dot32 (mapGet 0 m i).toNat (o.a.getD i []) bs : Int)) x.ci
    mi := rows.foldl (fun m i => mapSet 0 m i (dot32 (mapGet 0 m i) ((o.a.getD i []).map FVal.abs) ba)) x.mi
    k := min (x.k + o.k) (2 ^ 32 - 1)
    type := 0 }

/-- The integer of an exact value. -/
def FVal.int (v : FVal) : Int := (v.toInt .ne).getD 0

/-- R116: the INT32 accumulator with its checksums after an MMA. -/
def mmaInt (x : AccSt) (o : MmaOps) : AccSt :=
  let ia := o.a.map (fun l => l.map FVal.int)
  let ib := o.b.map (fun l => l.map FVal.int)
  let dot := fun (p q : List Int) => (List.zipWith (· * ·) p q).sum
  let wrap := fun (v : Int) => lowBits 32 v
  let cols := List.range o.n
  let rows := List.range o.m
  let ks := List.range o.k
  let as := ks.map (fun k => (rows.map (fun i => at2 0 ia i k)).sum)
  let bs := ks.map (fun k => (cols.map (fun j => at2 0 ib j k)).sum)
  { x with
    c := rows.foldl (fun c i => cols.foldl (fun c j =>
      mapSet 0 c (16 * i + j) (wrap (((mapGet 0 x.c (16 * i + j) : Nat) : Int) + dot (ia.getD i []) (ib.getD j [])))) c) x.c
    rj := cols.foldl (fun m j => mapSet 0 m j (wrap (mapGet 0 m j + dot as (ib.getD j [])) : Int)) x.rj
    ci := rows.foldl (fun m i => mapSet 0 m i (wrap (mapGet 0 m i + dot (ia.getD i []) bs) : Int)) x.ci
    k := min (x.k + o.k) (2 ^ 32 - 1)
    type := 1 }

/-- R119 to R121: the slice registers of one MMA with the checksums of their digits (R125). Rows and columns with a NaN
or an infinity hold nothing. -/
def mmaSlice (x : AccSt) (o : MmaOps) : AccSt :=
  let s := o.s
  let conv := fun (l : List FVal) (e : Option Int) =>
    l.map (fun v => digits s (match e with | some e => sliceInt s e v | none => 0))
  let da := List.zipWith conv o.a o.ea
  let db := List.zipWith conv o.b o.eb
  let cols := List.range o.n
  let rows := List.range o.m
  let addD := fun (p q : List Int) => List.zipWith (· + ·) p q
  let zero := List.replicate s (0 : Int)
  let as := (List.range o.k).map (fun k => (rows.map (fun i => at2 [] da i k)).foldl addD zero)
  let bs := (List.range o.k).map (fun k => (cols.map (fun j => at2 [] db j k)).foldl addD zero)
  { x with
    slice := rows.foldl (fun c i => cols.foldl (fun c j =>
      mapSet 0 c (16 * i + j) (sliceDot s (da.getD i []) (db.getD j []))) c) []
    rj := cols.foldl (fun m j => mapSet 0 m j (sliceDot s as (db.getD j []))) []
    ci := rows.foldl (fun m i => mapSet 0 m i (sliceDot s (da.getD i []) bs)) []
    k := min (x.k + o.k) (2 ^ 32 - 1)
    type := 2 }

/-- R122, R123: the slice registers converted into the FP64 accumulator. -/
def sliceEnd (x : AccSt) (o : MmaOps) (zero : Bool) : AccSt :=
  let one := fun (i j : Nat) =>
    let c := match o.ea.getD i none, o.eb.getD j none with
      | some a, some b => sliceVal o.s a b (mapGet 0 x.slice (16 * i + j))
      | _, _ => 0x7FF8000000000000
    if zero then c else fAdd .fp64 .ne (mapGet 0 x.c64 (16 * i + j)) c
  { x with
    c64 := (List.range o.m).foldl (fun m i => (List.range o.n).foldl (fun m j =>
      mapSet 0 m (16 * i + j) (one i j)) m) (if zero then [] else x.c64)
    slice := [] }

/-- One MMA on an accumulator, slice registers not yet converted. -/
def mmaRun (x : AccSt) (o : MmaOps) (zero : Bool) : AccSt :=
  match pairOf o.fa o.fb with
  | some 1 => mmaInt (if zero then AccSt.clear 1 else x) o
  | some 2 => mmaSlice (if zero then AccSt.clear 2 else x) o
  | _ => mmaFp (if zero then AccSt.clear 0 else x) o

/-! ### The checksum test (R127, R128) -/

/-- A failed row or column: its index, whether it is a column, the residual (R129). -/
structure AbftFail where
  index : Nat
  isCol : Bool
  resid : Nat

/-- The integer multiple of 2^−149 that a finite FP32 value is. -/
def ulps (v : Nat) : Int :=
  match FFmt.fp32.dec v with
  | .fin neg m e => signedAt neg m e (-149)
  | _ => 0

/-- R127: one floating-point condition: `n` is K_acc + 64 or + 16, τ = 2^−`t`. -/
def fpTest (sigma r m n t shift : Nat) : Bool :=
  decide (((ulps sigma - ulps r).natAbs * 2 ^ t : Nat) ≤ 2 ^ shift * n * (ulps m).natAbs + n * 2 ^ t)

/-- Whether an FP32 code is finite. -/
def fin32 (v : Nat) : Bool := (FFmt.fp32.dec v).isFin

/-- |σ − r| as FP32. -/
def resid32 (a b : Nat) : Nat := fAbs .fp32 (fAdd .fp32 .ne a (fNeg .fp32 b))

/-- R127, R128: the first failing column, else the first failing row. `fa` is the format of operand A. The fixed order of
the sums is that of `sum32` (DESIGN CHOICE, log entry 57). -/
def abftTest (x : AccSt) (o : MmaOps) (shift : Nat) : Option AbftFail :=
  let el := fun i j => mapGet 0 x.c (16 * i + j)
  let cols := List.range 16
  let rows := List.range 64
  let t := if o.fa = 0xA then 20 else 21
  let fpCol := fun j =>
    let vs := rows.map (fun i => el i j)
    let s := sum32 (vs.map FFmt.fp32.dec)
    let r := (mapGet 0 x.rj j).toNat
    let m := mapGet 0 x.mj j
    if fin32 s && fin32 r && fin32 m && vs.all fin32 && !fpTest s r m (x.k + 64) t shift then
      some (AbftFail.mk j true (resid32 s r)) else none
  let fpRow := fun i =>
    let vs := cols.map (fun j => el i j)
    let s := sum32 (vs.map FFmt.fp32.dec)
    let r := (mapGet 0 x.ci i).toNat
    let m := mapGet 0 x.mi i
    if fin32 s && fin32 r && fin32 m && vs.all fin32 && !fpTest s r m (x.k + 16) t shift then
      some (AbftFail.mk i false (resid32 s r)) else none
  let intEq := fun (w : Nat) (sum r : Int) => lowBits w (sum - r) == 0
  let intCol := fun (w : Nat) (f : Nat → Nat → Int) (skip : Nat → Bool) j =>
    let s := (rows.map (fun i => f i j)).sum
    if skip j || intEq w s (mapGet 0 x.rj j) then none
    else some (AbftFail.mk j true (lowBits 32 (s - mapGet 0 x.rj j)))
  let intRow := fun (w : Nat) (f : Nat → Nat → Int) (skip : Nat → Bool) i =>
    let s := (cols.map (fun j => f i j)).sum
    if skip i || intEq w s (mapGet 0 x.ci i) then none
    else some (AbftFail.mk i false (lowBits 32 (s - mapGet 0 x.ci i)))
  match x.type with
  | 1 =>
    (match cols.findSome? (intCol 32 (fun i j => (el i j : Int)) (fun _ => false)) with
      | some f => some f
      | none => rows.findSome? (intRow 32 (fun i j => (el i j : Int)) (fun _ => false)))
  | 2 =>
    let f := fun i j => mapGet 0 x.slice (16 * i + j)
    (match cols.findSome? (intCol 104 f (fun j => (o.eb.getD j (some 0)).isNone)) with
      | some r => some r
      | none => rows.findSome? (intRow 104 f (fun i => (o.ea.getD i (some 0)).isNone)))
  | _ =>
    match cols.findSome? fpCol with
    | some f => some f
    | none => rows.findSome? fpRow

/-- R125: an upset of one bit of an accumulator element, in the slice register in slice mode. -/
def AccSt.upset (x : AccSt) (u : Upset) : AccSt :=
  let k := 16 * u.row.val + u.col.val
  if x.type = 2 then
    { x with slice := mapSet 0 x.slice k (sgn 96 (lowBits 96 (mapGet 0 x.slice k) ^^^ 2 ^ (u.bit % 96))) }
  else { x with c := mapSet 0 x.c k (mapGet 0 x.c k ^^^ 2 ^ (u.bit % 32)) }

/-! ### Narrowing -/

/-- R97, R117, R140, R462: an FP32 value converted to a destination format; the spec gives no conversion to an integer
or scale format: a free value, log entry 2. -/
def narrow (f : Nat) (rm : Rnd) (cand : Nat) (v : FVal) : Nat :=
  match fmtFp f with
  | some g => g.enc rm v
  | none => cand % 2 ^ fmtBits f

/-! ### Elementwise functions and reductions -/

/-- R97: the FP32 operation of `fn` on codes; each operation is rounded to nearest, ties to even (log entry 15). DESIGN
CHOICE: R97 does not say what a maximum or minimum is of a NaN, or of zeros of both signs; the model takes maximumNumber
and minimumNumber, which R55 gives for FMAX and FMIN. Log entry 15. -/
def elemFn (fn x y imm : Nat) : Option Nat :=
  let add := fAdd .fp32 .ne
  let mul := fMul .fp32 .ne
  let sub := fun a b => fAdd .fp32 .ne a (fNeg .fp32 b)
  match fn with
  | 0x00 => some (add x y)
  | 0x01 => some (mul x y)
  | 0x02 => some (sub x y)
  | 0x03 => some (fMinMax .fp32 true x y)
  | 0x04 => some (fMinMax .fp32 false x y)
  | 0x05 => some (add (mul x imm) y)
  | 0x06 => some (mul x imm)
  | 0x07 => some x
  | 0x08 => some (fMinMax .fp32 true x 0)
  | 0x10 => some (sub x y)
  | 0x11 => some (mul x y)
  | 0x12 => some (mul (sub x y) imm)
  | _ => none

/-- Whether `fn` broadcasts y along a row (R97). -/
def fnIsRow (fn : Nat) : Bool := fn == 0x10 || fn == 0x11 || fn == 0x12

/-- Whether `fn` uses y (R97). -/
def fnUsesY (fn : Nat) : Bool := decide (fn ≤ 5) || fnIsRow fn

/-- An element as an FP32 code, an FP64 one rounded to nearest even (DESIGN CHOICE, log entry 15). -/
def to32 (f v : Nat) : Nat := FFmt.fp32.enc .ne (elemVal f v)

/-- R114: emax of a result format. -/
def mxEmax (f : Nat) : Int :=
  match f with
  | 0x2 => 8
  | 0x3 => 15
  | 0x4 => 4
  | _ => 2

/-- The largest finite code of a format with a sign, for saturation (R114). -/
def satFin (g : FFmt) (rm : Rnd) (v : FVal) : Nat :=
  let c := g.enc rm v
  if c % g.signBit > g.maxFin then (if c ≥ g.signBit then g.signBit else 0) + g.maxFin else c

/-- R114: one block quantised: its scale and its elements. -/
def mxBlock (f : Nat) (rm : Rnd) (vs : List FVal) : Nat × List Nat :=
  match fmtFp f with
  | none => (0, vs.map (fun _ => 0))
  | some g =>
    if vs.any (fun v => !v.isFin) then (0xFF, vs.map (fun _ => 0))
    else
      match expMax vs with
      | none => (0, vs.map (fun _ => 0))
      | some t =>
        let x := max (-127) (min 127 (t - mxEmax f))
        ((x + 127).toNat, vs.map (fun v => satFin g rm (v.scale (-x))))

/-- R98, R144: a reduction of one row. DESIGN CHOICE, log entry 15: R98 says only that the order of summation is fixed;
the model sums from +0 in ascending order with one rounding each, takes extremes as R55 does for FMAX and FMIN, and lets
TDdx be of any format where `fn` is not 3, for which the spec names no format. -/
def reduceRow (fn : Nat) (x y : List FVal) : Nat :=
  match fn with
  | 0 => sum32 x
  | 1 => (match x.map (FFmt.fp32.enc .ne) with | a :: t => t.foldl (fMinMax .fp32 true) a | [] => 0)
  | 2 => dot32 0 x x
  | 3 => dot32 0 x y
  | _ => (match x.map (FFmt.fp32.enc .ne) with | a :: t => t.foldl (fMinMax .fp32 false) a | [] => 0)

/-! ### Tables (R136 to R138) -/

/-- A correctly rounded FP32 quotient 256 / y of a positive y. -/
def div256 (y : Nat) : Nat :=
  match FFmt.fp32.dec y with
  | .fin neg m e =>
    if m = 0 then 0x7F800000
    else
      let k := 2 ^ 64
      let q := 256 * k / m
      FFmt.fp32.round .ne neg (2 * q + (if 256 * k % m = 0 then 0 else 1)) (-65 - e)
  | .inf _ => 0
  | .nan => 0x7FC00000

/-- R136, R137: the table of an image of 264 FP32 codes, if it is well formed. -/
def tableOf (im : List Nat) : Option Table :=
  let g := fun i => im.getD i 0
  if g 0 = 2 then some ⟨2, 0, 0, 0, 0, 0, []⟩
  else if g 0 = 1 then
    let fins := ((List.range 4).map (fun i => g (1 + i)) ++ im.drop 7).all fin32
    let lo := FFmt.fp32.dec (g 1)
    let hi := FFmt.fp32.dec (g 2)
    if g 5 = 0 ∧ g 6 = 0 ∧ fins ∧ FVal.lt lo hi then
      some ⟨1, g 1, g 2, g 3, g 4, div256 (fAdd .fp32 .ne (g 2) (fNeg .fp32 (g 1))), im.drop 7⟩
    else none
  else none

/-- R138: T(x) of an exact x. -/
def tableVal (t : Table) (v : FVal) : FVal :=
  let add := fAdd .fp32 .ne
  let mul := fMul .fp32 .ne
  let sub := fun a b => fAdd .fp32 .ne a (fNeg .fp32 b)
  let past := fun c => FFmt.fp32.enc .ne (FVal.add .ne v (FFmt.fp32.dec c).neg)
  let k := fun n => t.knots.getD n 0
  let isZero := fun c => FVal.eq (FFmt.fp32.dec c) (.fin false 0 0)
  if t.kind = 2 then v
  else
    match v with
    | .nan => .nan
    | _ =>
      FFmt.fp32.dec (
        if FVal.lt v (FFmt.fp32.dec t.lo) then
          if isZero t.slo then k 0 else add (k 0) (mul (past t.lo) t.slo)
        else if !(FVal.lt v (FFmt.fp32.dec t.hi)) then
          if isZero t.shi then k 256 else add (k 256) (mul (past t.hi) t.shi)
        else
          let u := mul (past t.lo) t.w
          let n := min ((FFmt.fp32.dec u).toInt .dn |>.getD 255).toNat 255
          let f := sub u (FFmt.fp32.enc .ne (FVal.ofInt (n : Int)))
          add (k n) (mul f (sub (k (n + 1)) (k n))))

end Sys2Proof.Machine
end

