-- ==== Sys2Proof/Machine/Macro.lean ====
section
/-! DEFINITION. The macro-ops: the checks and extents of each (R82, R89 to R99, R136 to R139, R465), what each does
(R80, R83, R89 to R99), verifying reads (R209, R210), completion and retirement, the checksum test's response (R129,
R130). -/

namespace Sys2Proof.Machine

/-! ### Plans -/

/-- A descriptor, address and counter register of a stream. -/
def StreamSt.d (x : StreamSt) (w : MacroWord) (lo : Nat) : Nat := mapGet 0 x.td (mfld w lo 4)
def StreamSt.a (x : StreamSt) (w : MacroWord) : Nat := mapGet 0 x.ta (mfld w 36 3)

/-- The tile count of a word. -/
def tileCnt (w : MacroWord) : Nat := mfld w 43 8 + 1

/-- Where tile `i` begins in the scratchpad, its rows and their bytes (R89). -/
def tilePlace (d : Desc) (tr vert : Bool) (i : Nat) : Nat × Nat × Nat :=
  let rows := if tr then d.cols else d.rows
  let len := if tr then d.rows * (fmtBits d.fmt / 8) else d.rowLen
  (d.addr + i * (if vert then rows * 16 * d.stride else len), rows, len)

/-- R89: the union of all places as a closed range. -/
def placesRange (d : Desc) (tr vert : Bool) (cnt : Nat) : Nat × Nat :=
  let p := tilePlace d tr vert (cnt - 1)
  (d.addr, p.1 + (p.2.1 - 1) * 16 * d.stride + p.2.2 - 1)

/-- A virtual address with where it leads for an access; a failed translation leads nowhere, and its start will find
the fault. -/
def State.vaTarget (s : State) (c va : Nat) (n : Need) : Nat × Target :=
  match (s.access (regionOf c) (s.cellAsc c) va n).1 with
  | .ok t => (va, t)
  | .error _ => (va, .peer 0 0)

/-- The line of a translation table that the host holds, if one keeps an address from being translated. -/
def State.vaSnoop (s : State) (c : Nat) (vas : List Nat) : Option (Target × Bool) :=
  vas.findSome? (fun va =>
    match (s.access (regionOf c) (s.cellAsc c) va .read).1 with
    | .error (.wait t) => some (t, false)
    | _ => none)

/-- R209: the dirty bytes of a tile in the stream's own block L2 written back; whether all went. -/
def State.cleanTile (s : State) (c : Nat) (t : Target) (n : Nat) : State × Bool :=
  let ls := (s.block (blockOf c)).l2.lines.filter (fun e =>
    decide (t.line ≤ e.2.addr) && decide (e.2.addr ≤ (t.plus (n - 1)).line))
  s.l2Clean (blockOf c) 0x1FF ls

/-- R209 for several tiles. -/
def State.cleanTiles (s : State) (c : Nat) (l : List (Nat × Target)) : State × Bool :=
  l.foldl (fun (a : State × Bool) t =>
    let q := a.1.cleanTile c t.2 4096
    (q.1, a.2 && q.2)) (s, true)

/-- A line of a tile dirty in the stream's own block L2 that the host holds. -/
def State.dirtyHeld (s : State) (c : Nat) (l : List (Nat × Target)) : Option (Target × Bool) :=
  l.findSome? (fun t => (s.block (blockOf c)).l2.lines.findSome? (fun e =>
    if t.2.line ≤ e.2.addr ∧ e.2.addr ≤ (t.2.plus 4095).line ∧ !e.2.dirty.isEmpty ∧ s.biHeld (lineTarget e.2.addr) true then
      some (lineTarget e.2.addr, true)
    else none))

/-- R209: whether a word is a verifying read. -/
def verifying (op : Nat) (w : MacroWord) : Bool := op == 0x13 || (op == 0x10 && mfld w 39 1 == 1)

/-- R240: whether every page of device targets that answers has, or can be given, a frame. -/
def State.canPlace (s : State) (l : List (Nat × Target)) : Bool :=
  (l.foldl (fun (a : Option State) t =>
    match a, t.2 with
    | some s, .dev d => if s.pageAns (d / 65536) = .ok then s.place (d / 65536) else some s
    | a, _ => a) (some s)).isSome

/-- R206: whether the open-tile tables have room for the tiles. -/
def State.canOpen (s : State) (l : List (Nat × Target)) : Bool :=
  let new := l.filterMap (fun t =>
    match t.2 with
    | .dev d => if (s.loc (d / 65536)).sync || s.tiles.any (fun x => x.tile == d / 4096) then none else some (d / 4096)
    | _ => none)
  [0, 1].all (fun j =>
    decide ((s.tiles.filter (fun x => homeOf (x.tile * 4096) == j)).length
      + (new.filter (fun t => homeOf (t * 4096) == j)).length ≤ 4096))

/-- The virtual tiles of TLOAD, TSTORE and TVERIFY; past 2^57 they begin again at 0 (DESIGN CHOICE, log entry 54). -/
def tileVas (base cnt : Nat) : List Nat := (List.range cnt).map (fun i => (base + 4096 * i) % 2 ^ 57)

/-- R82, R89, R91: TLOAD and TSTORE. The order of the checks of a macro-op, where R465 gives none, is that of the lines
here (DESIGN CHOICE, log entry 56). DEDUCED: the limit of the stride of a transposed transfer holds where `vert` is 1,
the case that it follows, log entry 42. -/
def planTiles (s : State) (c : Nat) (st : Stream) (w : MacroWord) (store : Bool) : Except MBad Plan := do
  let x := s.stream c st
  let tr := (mfld w 40 1) == 1
  let vert := (mfld w 41 1) == 1
  need (x.a w % 4096 == 0) hrTileBad
  let d ← descBase (x.d w 32)
  let b := fmtBits d.fmt
  need (d.rows * d.rowLen == 4096) hrTileBad
  need (!tr || b == 8 || b == 16 || b == 32 || b == 64) hrTileBad
  need (!tr || !vert || decide (16 * d.stride ≥ d.rows * (b / 8))) hrTileBad
  let r := placesRange d tr vert (tileCnt w)
  rangeOk r.1 r.2
  let vas := tileVas (x.a w) (tileCnt w)
  let tg := vas.map (fun va => s.vaTarget c va (if store then .write else .read))
  let vfy := !store && mfld w 39 1 == 1
  let snoop := (s.vaSnoop c vas).or (if vfy then s.dirtyHeld c tg else none)
  let hold := snoop.isSome || (store && !(s.canPlace tg && s.canOpen tg)) || (vfy && !(s.cleanTiles c tg).2)
  return { rd := if store then [r] else [], wr := if store then [] else [r], tg := tg, args := [x.d w 32]
           lines := 32 * tileCnt w, hold := hold, snoop := snoop }

/-- R90: TVERIFY. -/
def planVerify (s : State) (c : Nat) (st : Stream) (w : MacroWord) : Except MBad Plan := do
  let x := s.stream c st
  need (x.a w % 4096 == 0) hrTileBad
  let vas := tileVas (x.a w) (tileCnt w)
  let tg := vas.map (fun va => s.vaTarget c va .read)
  let snoop := (s.vaSnoop c vas).or (s.dirtyHeld c tg)
  return { tg := tg, lines := 32 * tileCnt w, hold := snoop.isSome || !(s.cleanTiles c tg).2, snoop := snoop }

/-- A virtual run cut at 4 KiB boundaries: (address, bytes); past 2^57 it begins again at 0 (DESIGN CHOICE, log entry
54). -/
def piecesFrom : Nat → Nat → Nat → List (Nat × Nat)
  | 0, _, _ => []
  | n + 1, va, len =>
    if len = 0 then []
    else
      let k := min len (4096 - va % 4096)
      (va % 2 ^ 57, k) :: piecesFrom n (va + k) (len - k)

/-- The pieces of a run. -/
def pieces (va len : Nat) : List (Nat × Nat) := piecesFrom (len / 4096 + 2) va len

/-- R92: the pieces of each row that TGATHER reads. -/
def gatherPieces (scr : NMap Byte) (d di : Desc) (ta pitch : Nat) : List (List (Nat × Nat)) :=
  (List.range d.rows).map (fun r =>
    pieces (ta + leNat (bytesAt scr (di.addr + 4 * r) 4) * pitch) d.rowLen)

/-- R92: TGATHER; the order of its checks is log entry 56. -/
def planGather (s : State) (c : Nat) (st : Stream) (w : MacroWord) : Except MBad Plan := do
  let x := s.stream c st
  let d ← descFull (x.d w 32)
  let di ← descFull (x.d w 40)
  let pitch := mfld w 64 32
  need (di.rows == 1 && di.fmt == 0xB && decide (di.cols ≥ d.rows)) hrTileBad
  need (x.a w % 16 == 0 && pitch % 16 == 0) hrTileBad
  let runs := (gatherPieces (s.cell c).scr d di (x.a w) pitch).flatten
  let vas := runs.map (·.1)
  let snoop := s.vaSnoop c vas
  return { rd := [di.extent], wr := [d.extent], tg := vas.map (fun va => s.vaTarget c va .read)
           args := [x.d w 32, x.d w 40, x.a w, pitch] ++ runs.map (·.2)
           lines := (runs.map (fun r => (r.1 % 128 + r.2 + 127) / 128)).sum, hold := snoop.isSome, snoop := snoop }

/-- The shape of an MMA's operands: M, K of A and K, N of B (R94). -/
def mmaShape (w : MacroWord) (da db : Desc) : Nat × Nat × Nat × Nat :=
  let ta := (mfld w 49 1) == 1
  let tb := (mfld w 50 1) == 1
  (if ta then da.cols else da.rows, if ta then da.rows else da.cols, if tb then db.cols else db.rows,
    if tb then db.rows else db.cols)

/-- R113: a scale descriptor for `n` rows and K columns. -/
def scaleDesc (v n k : Nat) : Except MBad Desc := do
  let d ← descFull v
  need (d.fmt == 0x7 && d.rows == n && d.cols == ceilDiv k 32) hrTileBad
  return d

/-- R465: MMA. Within step 4 the slice rule is tested before the scale descriptors (DESIGN CHOICE, log entry 56). -/
def planMma (s : State) (c : Nat) (st : Stream) (w : MacroWord) : Except MBad Plan := do
  let x := s.stream c st
  let da ← descFull (x.d w 32)
  let db ← descFull (x.d w 36)
  let ty ← (match pairOf da.fmt db.fmt with | some t => .ok t | none => .error (hrFormat, none))
  let sh := mmaShape w da db
  let mx := decide (4 ≤ da.fmt) && decide (da.fmt ≤ 6)
  let sl := mfld w 51 4
  need (if da.fmt == 0xC then sl == 0 || (decide (5 ≤ sl) && decide (sl ≤ 8)) else sl == 0) hrTileBad
  let ext ← (if mx then do
      let sa ← scaleDesc (x.d w 40) sh.1 sh.2.1
      let sb ← scaleDesc (x.d w 44) sh.2.2.2 sh.2.1
      return [sa.extent, sb.extent]
    else do
      need (mfld w 40 4 == 0 && mfld w 44 4 == 0) hrTileBad
      return [])
  need (decide (1 ≤ sh.1) && decide (sh.1 ≤ 64) && decide (1 ≤ sh.2.2.2) && decide (sh.2.2.2 ≤ 16) && sh.2.1 == sh.2.2.1)
    hrTileBad
  let at_ := (s.cell c).arr.acc.type
  need ((mfld w 48 1) == 1 || at_ == 3 || at_ == ty) hrFormat
  return { rd := [da.extent, db.extent] ++ ext, args := [x.d w 32, x.d w 36, x.d w 40, x.d w 44] }

/-- R96, R465: ACCST. -/
def planAccst (s : State) (c : Nat) (st : Stream) (w : MacroWord) : Except MBad Plan := do
  let d ← descFull ((s.stream c st).d w 32)
  let ok := match (s.cell c).arr.acc.type with
    | 0 => d.fmt == 0xA || d.fmt == 0x8 || d.fmt == 0x9
    | 1 => d.fmt == 0xB
    | 2 => d.fmt == 0xC
    | _ => false
  need ok hrFormat
  need (decide (d.rows ≤ 64) && decide (d.cols ≤ 16)) hrTileBad
  return { wr := [d.extent], args := [(s.stream c st).d w 32] }

/-- R96, R465: ACCLD. -/
def planAccld (s : State) (c : Nat) (st : Stream) (w : MacroWord) : Except MBad Plan := do
  let d ← descFull ((s.stream c st).d w 32)
  need (d.fmt == 0xA || d.fmt == 0xB) hrFormat
  need (decide (d.rows ≤ 64) && decide (d.cols ≤ 16)) hrTileBad
  return { rd := [d.extent], args := [(s.stream c st).d w 32] }

/-- Whether a format is floating-point (R97). -/
def isFp (f : Nat) : Bool := (fmtFp f).isSome

/-- R97: ELEM; the order of its checks is log entry 56. -/
def planElem (s : State) (c : Nat) (st : Stream) (w : MacroWord) : Except MBad Plan := do
  let x := s.stream c st
  let fn := mfld w 44 8
  let mxq := fn == 0x20
  need (mxq || (elemFn fn 0 0 0).isSome) hrTileBad
  let dd ← descFull (x.d w 32)
  let dx ← descFull (x.d w 36)
  let args := [x.d w 32, x.d w 36, x.d w 40]
  if mxq then
    let dy ← descFull (x.d w 40)
    need ((dx.fmt == 0xA || dx.fmt == 0x8 || dx.fmt == 0x9) && decide (2 ≤ dd.fmt) && decide (dd.fmt ≤ 6) && dy.fmt == 0x7)
      hrFormat
    need (dd.rows == dx.rows && dd.cols == dx.cols && dy.rows == dx.rows && dy.cols == ceilDiv dx.cols 32) hrTileBad
    return { rd := [dx.extent], wr := [dd.extent, dy.extent], args := args }
  else if fnUsesY fn then
    let dy ← descFull (x.d w 40)
    need (isFp dx.fmt && dy.fmt == dx.fmt) hrFormat
    need (dd.rows == dx.rows && dd.cols == dx.cols && dy.rows == dx.rows
      && (if fnIsRow fn then dy.cols == 1 else dy.cols == dx.cols)) hrTileBad
    return { rd := [dx.extent, dy.extent], wr := [dd.extent], args := args }
  else
    need (isFp dx.fmt) hrFormat
    need (dd.rows == dx.rows && dd.cols == dx.cols) hrTileBad
    return { rd := [dx.extent], wr := [dd.extent], args := args }

/-- R98, R144: REDUCE; the order of its checks is log entry 56. -/
def planReduce (s : State) (c : Nat) (st : Stream) (w : MacroWord) : Except MBad Plan := do
  let x := s.stream c st
  let fn := mfld w 44 4
  need (decide (fn ≤ 4)) hrTileBad
  need (fn == 3 || mfld w 40 4 == 0) hrTileBad
  let dd ← descFull (x.d w 32)
  let dx ← descFull (x.d w 36)
  let ext ← (if fn == 3 then do
      let dy ← descFull (x.d w 40)
      need (isFp dx.fmt && dy.fmt == dx.fmt) hrFormat
      need (dy.rows == dx.rows && dy.cols == dx.cols) hrTileBad
      return [dy.extent]
    else return [])
  need (dd.rows == dx.rows && dd.cols == 1 && dd.fmt == 0xA) hrTileBad
  return { rd := dx.extent :: ext, wr := [dd.extent], args := [x.d w 32, x.d w 36, x.d w 40] }

/-- R139: the formats of LUT. -/
def lutFmt (f : Nat) : Bool := f == 0xA || f == 0x8 || f == 0x9 || f == 0x2 || f == 0x3

/-- R139: the scale descriptor of an E4M3 operand in descriptor register `n`: its extent. -/
def lutScale (x : StreamSt) (n : Nat) (d : Desc) : Except MBad (List (Nat × Nat)) :=
  if d.fmt == 0x2 then do
    let sd ← scaleDesc (mapGet 0 x.td ((n + 1) % 16)) d.rows d.cols
    return [sd.extent]
  else return []

/-- R139: LUT; the order of its checks is log entry 56. -/
def planLut (s : State) (c : Nat) (st : Stream) (w : MacroWord) : Except MBad Plan := do
  let x := s.stream c st
  let sel := mfld w 46 1
  let nx := mfld w 36 4
  let nv := mfld w 40 4
  let dd ← descFull (x.d w 32)
  let dx ← descFull (x.d w 36)
  let sv ← (if sel == 1 then descFull (x.d w 40) else return dx)
  need (lutFmt dd.fmt && lutFmt dx.fmt && lutFmt sv.fmt) hrFormat
  need (dd.rows == dx.rows && dd.cols == dx.cols && sv.rows == dx.rows && sv.cols == dx.cols && (sel == 1 || nv == 0)) hrTileBad
  let ex ← lutScale x nx dx
  let ev ← (if sel == 1 then lutScale x nv sv else return [])
  need (mapFind (s.cell c).luts (2 * mfld w 44 2 + sel)).isSome hrTileBad
  return { rd := [dx.extent, sv.extent] ++ ex ++ ev, wr := [dd.extent]
           args := [x.d w 32, x.d w 36, x.d w 40, mapGet 0 x.td ((nx + 1) % 16), mapGet 0 x.td ((nv + 1) % 16)] }

/-- R137: TBLLD's descriptor; the order of its checks is log entry 56. -/
def planTblld (s : State) (c : Nat) (st : Stream) (w : MacroWord) : Except MBad Plan := do
  let d ← descFull ((s.stream c st).d w 32)
  need (d.fmt == 0xA && d.rows == 1 && d.cols == 264) hrTileBad
  return { rd := [d.extent], args := [(s.stream c st).d w 32] }

/-- The checks of a macro-op and what it will read and write. -/
def planOf : PlanOf := fun s c st sw =>
  match sw.op with
  | 0x10 => planTiles s c st sw.w false
  | 0x11 => planTiles s c st sw.w true
  | 0x12 => planGather s c st sw.w
  | 0x13 => planVerify s c st sw.w
  | 0x20 => planMma s c st sw.w
  | 0x21 => planAccst s c st sw.w
  | 0x22 => planAccld s c st sw.w
  | 0x23 => planElem s c st sw.w
  | 0x24 => planReduce s c st sw.w
  | 0x25 => planLut s c st sw.w
  | 0x26 => planTblld s c st sw.w
  | _ => .ok {}

/-! ### Control operations (R80) -/

/-- A control operation with its effect on the stream. -/
def State.controlOp (s : State) (cid : CellId) (st : Stream) (op : Nat) (w : MacroWord)
    (f : StreamSt → StreamWord → Option StreamSt) : State :=
  s.macroOp planOf cid st op w (fun s c n sw p =>
    match f (s.stream c st) sw with
    | none => s.haltStream c st sw.addr hrTileBad none false
    | some x => (s.modStream c st (fun _ => x)).control c st n sw p)

/-- A jump by a signed count of words from a word's own address. -/
def jumpTo (addr : Nat) (off : Int) : Nat := lowBits 57 ((addr : Int) + 16 * off)

/-- SYNC (R80). -/
def execSync (c : CellId) (st : Stream) (w : MacroWord) (s : State) : Out :=
  .next (s.controlOp c st 0x00 w (fun x _ => some x))

/-- END (R80): the stream ends after its signal. -/
def execMend (c : CellId) (st : Stream) (w : MacroWord) (s : State) : Out :=
  .next (s.controlOp c st 0x01 w (fun x _ => some x))

/-- JUMP (R80). -/
def execJump (c : CellId) (st : Stream) (w : MacroWord) (s : State) : Out :=
  .next (s.controlOp c st 0x02 w (fun x sw => some { x with mpc := jumpTo sw.addr (sgn 32 (mfld w 32 32)) }))

/-- LOOP (R80). -/
def execMloop (c : CellId) (st : Stream) (w : MacroWord) (s : State) : Out :=
  .next (s.controlOp c st 0x03 w (fun x sw =>
    let k := mfld w 32 2
    let n := mapGet 0 x.tc k
    if n = 0 then none
    else
      let x := { x with tc := mapSet 0 x.tc k (n - 1) }
      some (if n = 1 then x else { x with mpc := jumpTo sw.addr (sgn 24 (mfld w 40 24)) })))

/-- SETC (R80). -/
def execSetc (c : CellId) (st : Stream) (w : MacroWord) (s : State) : Out :=
  .next (s.controlOp c st 0x04 w (fun x _ => some { x with tc := mapSet 0 x.tc (mfld w 32 2) (mfld w 40 24) }))

/-- SETD (R80). -/
def execSetd (c : CellId) (st : Stream) (w : MacroWord) (s : State) : Out :=
  .next (s.controlOp c st 0x05 w (fun x _ => some { x with td := mapSet 0 x.td (mfld w 32 4) (mfld w 64 64) }))

/-- DADV (R80). -/
def execDadv (c : CellId) (st : Stream) (w : MacroWord) (s : State) : Out :=
  .next (s.controlOp c st 0x06 w (fun x _ =>
    let v := x.d w 32
    let r := ((bits v 0 18 : Nat) : Int) + sgn 24 (mfld w 40 24)
    if mfld w 40 24 % 16 ≠ 0 ∨ r < 0 ∨ r > 0x3FFFF then none
    else some { x with td := mapSet 0 x.td (mfld w 32 4) (setBits v 0 18 r.toNat) }))

/-- SETA (R80). -/
def execSeta (c : CellId) (st : Stream) (w : MacroWord) (s : State) : Out :=
  .next (s.controlOp c st 0x07 w (fun x _ => some { x with ta := mapSet 0 x.ta (mfld w 32 3) (mfld w 64 57) }))

/-- AADV (R80): modulo 2^57. -/
def execAadv (c : CellId) (st : Stream) (w : MacroWord) (s : State) : Out :=
  .next (s.controlOp c st 0x08 w (fun x _ =>
    let a := mfld w 32 3
    some { x with ta := mapSet 0 x.ta a (lowBits 57 (((mapGet 0 x.ta a : Nat) : Int) + sgn 32 (mfld w 64 32))) }))

/-- APPEND (R77, R80). -/
def execAppend (c : CellId) (st : Stream) (w : MacroWord) (s : State) : Out :=
  .next (s.controlOp c st 0x09 w (fun x _ => some { x with append := true, left := mfld w 32 4 }))

/-! ### The scratchpad -/

/-- Bytes written to the scratchpad; a write into the operands of an MMA in progress bars its retry (R130). -/
def Cell.scrPut (x : Cell) (a : Nat) (bs : List Byte) : Cell :=
  let hit := !bs.isEmpty && x.sx.prog.any (fun p => p.sw.op == 0x20 && rangesMeet p.rd [(a, a + bs.length - 1)])
  { x with scr := putBytes x.scr a bs, arr := if hit then { x.arr with dirty := true } else x.arr }

/-- The rows of an operand written, each as element codes. -/
def Cell.putRows (x : Cell) (d : Desc) (rows : List (List Nat)) : Cell :=
  (List.range d.rows).foldl (fun x r =>
    x.scrPut (d.addr + r * 16 * d.stride) (packRow (fmtBits d.fmt) d.rowLen (rows.getD r []))) x

/-! ### Tile transfers (R89 to R93) -/

/-- The first translation fault of a list of virtual addresses: reason and address; a peer leaf gives PROTECTION_FAULT
(R359). The translations are held (R237). A macro-op translates all its addresses as it starts, so that where a later one
fails no tile has moved (DESIGN CHOICE, log entry 54). -/
def State.translateAll (s : State) (c : Nat) (n : Need) : List Nat → State × Option (Nat × Nat)
  | [] => (s, none)
  | va :: t =>
    match s.access (regionOf c) (s.cellAsc c) va n with
    | (.ok (.peer _ _), s) => (s, some (hrProtection, va))
    | (.ok _, s) => s.translateAll c n t
    | (.error f, s) => (s, some (f.halt, va))

/-- R89: TAa moved past the tiles. -/
def State.incTa (s : State) (c : Nat) (st : Stream) (w : MacroWord) : State :=
  if mfld w 42 1 = 1 then
    s.modStream c st (fun x => { x with
      ta := mapSet 0 x.ta (mfld w 36 3) ((x.a w + 4096 * tileCnt w) % 2 ^ 57) })
  else s

/-- R209, R212: a tile read put in progress; a verifying one has the dirty bytes of its tiles written back, reads each
tile's entry (E1) and takes the `unchecked_action` in force. -/
def State.readStart (s : State) (c : Nat) (st : Stream) (n : Nat) (sw : StreamWord) (p : Plan) : State :=
  if verifying sw.op sw.w then
    let s := (s.cleanTiles c p.tg).1
    (s.each p.tg (fun s t => (s.chkLook t.2).flits (regionOf c) 8)).inProg c st { started n sw p with
      e1 := p.tg.map (fun t => s.chk t.2), loose := s.flag .CFG_TILE_CHECK_unchecked_action 0 }
  else s.inProg c st (started n sw p)

/-- A tile transfer or gather started: its addresses are translated; it is in progress. -/
def State.startXfer (s : State) (cid : CellId) (st : Stream) (op : Nat) (w : MacroWord) (inc : Bool) : State :=
  s.macroOp planOf cid st op w (fun s c n sw p =>
    match s.translateAll c .read (p.tg.map (·.1)) with
    | (s, some (r, va)) => s.haltStream c st sw.addr r (some va) false
    | (s, none) => (if inc then s.incTa c st w else s).readStart c st n sw p)

/-- TLOAD (R89, R90). -/
def execTload (c : CellId) (st : Stream) (w : MacroWord) (s : State) : Out := .next (s.startXfer c st 0x10 w true)

/-- TGATHER (R92). -/
def execTgather (c : CellId) (st : Stream) (w : MacroWord) (s : State) : Out := .next (s.startXfer c st 0x12 w false)

/-- TVERIFY (R90). -/
def execTverify (c : CellId) (st : Stream) (w : MacroWord) (s : State) : Out := .next (s.startXfer c st 0x13 w true)

/-- The 4,096 bytes of tile `i` in memory order, read from its place (R89, R91). -/
def tileFrom (scr : NMap Byte) (d : Desc) (tr vert : Bool) (i : Nat) : List Byte :=
  let p := tilePlace d tr vert i
  let rows := (List.range p.2.1).map (fun r => bytesAt scr (p.1 + r * 16 * d.stride) p.2.2)
  if tr then
    let e := fmtBits d.fmt / 8
    let cells := rows.map (chunks e (d.rows + 1))
    ((transposed [] cells d.rows).map List.flatten).flatten
  else rows.flatten

/-- The bytes of a tile put into its place (R89). -/
def Cell.putTile (x : Cell) (d : Desc) (tr vert : Bool) (i : Nat) (bs : List Byte) : Cell :=
  let p := tilePlace d tr vert i
  let rows :=
    if tr then (transposed [] ((chunks d.rowLen (d.rows + 1) bs).map (chunks (fmtBits d.fmt / 8) (d.cols + 1))) d.cols).map
      List.flatten
    else chunks d.rowLen (d.rows + 1) bs
  (List.range p.2.1).foldl (fun x r => x.scrPut (p.1 + r * 16 * d.stride) (rows.getD r [])) x

/-- R93: why a TSTORE's page halts the cell before it starts. -/
def State.storeBad (s : State) (l : List (Nat × Target)) : Option (Nat × Nat) :=
  l.findSome? (fun t =>
    match t.2 with
    | .dev d =>
      (match s.pageAns (d / 65536) with
        | .unalloc => some (hrTranslation, t.1)
        | .lostPort => some (hrFarTier, t.1)
        | _ => none)
    | _ => none)

/-- R208: a tile opened before its first line is sent; its page has its frame. -/
def State.openTile (s : State) (c epoch : Nat) (t : Nat × Target) : State :=
  match t.2 with
  | .dev d =>
    if s.pageAns (d / 65536) = .ok then
      match s.place (d / 65536) with
      | none => s
      | some s => (s.chkOpen d (regionOf c) epoch).getD s
    else s
  | _ => s

/-- TSTORE (R91, R208); a fault of a later tile moves none (log entry 54). -/
def execTstore (cid : CellId) (st : Stream) (w : MacroWord) (s : State) : Out :=
  .next (s.macroOp planOf cid st 0x11 w (fun s c n sw p =>
    match s.translateAll c .write (p.tg.map (·.1)) with
    | (s, some (r, va)) => s.haltStream c st sw.addr r (some va) false
    | (s, none) =>
      match s.storeBad p.tg with
      | some (r, va) => s.haltStream c st sw.addr r (some va) false
      | none =>
        let d := descOf (p.args.getD 0 0)
        let scr := (s.cell c).scr
        let bs := (List.range (tileCnt w)).map (tileFrom scr d (mfld w 40 1 == 1) (mfld w 41 1 == 1))
        let ep := ((s.cellKernel c).map (·.epoch)).getD 0
        ((s.incTa c st w).each p.tg (fun s t => s.openTile c ep t)).inProg c st { started n sw p with bytes := bs }))

/-- R156, R172: one line as the access stream sees it: from the block L2 where it is present, fetched again first where
it is stale for the cell; else from the home, without being allocated. -/
def State.streamLine (s : State) (c : Nat) (u : Target) : State × List Byte :=
  match s.l2Find (blockOf c) u with
  | none => (s.l2Miss c u, s.homeLine u)
  | some _ =>
    let s := match s.l2Refresh c u with | .done s => s | .wait s => s
    (s, match s.l2Find (blockOf c) u with | some (_, l) => l.bytes 0 128 | none => s.homeLine u)

/-- `n` bytes from a target as the access stream sees them. -/
def State.streamBytes (s : State) (c : Nat) (t : Target) (n : Nat) : State × List Byte :=
  let base : Nat := t.addr % 128
  let r := (List.range ((base + n + 127) / 128)).foldl (fun (a : State × List Byte) i =>
    let q := a.1.streamLine c (t.plus (128 * i - (if i = 0 then 0 else base)))
    (q.1, a.2 ++ q.2)) (s, [])
  (r.1, (r.2.drop base).take n)

/-- R209, R210: a verifying read of a tile whose entry was `e1` when it began: the state with its counts, the bytes, and
whether it passed. DESIGN CHOICE, log entry 11: event 0x07, which the spec calls the check entries verified, counts each
tile that passes once, unchecked ones and rereads among them, and none that fails. -/
def State.verifyTile (s : State) (c : Nat) (t : Target) (e1 : Nat) (loose : Bool) : State × List Byte × Bool :=
  let r := s.streamBytes c t 4096
  let s := (r.1.chkLook t).flits (regionOf c) 8
  let bs := r.2
  let e := s.chk t
  let crc := crc32c bs
  let st := chkState e
  let fail := fun (s : State) (bs : List Byte) (crc : Nat) (again : Bool) =>
    (s.setFlds c [(.CEL_TCHK_CRC_computed, crc), (.CEL_TCHK_CRC_entry_crc, chkCrc e), (.CEL_TCHK_ENTRY_state, st),
      (.CEL_TCHK_ENTRY_epoch, bits e 40 24), (.CEL_TCHK_ENTRY_entries_differed, b2n (e != e1)),
      (.CEL_TCHK_ENTRY_reread, b2n again), (.CEL_TCHK_ENTRY_valid, 1)], bs, false)
  if e ≠ e1 then fail s bs crc false
  else if st = chkValid then
    if chkCrc e = crc then (s.cellPmc c 0x07 1, bs, true)
    else
      let s := (s.touchLines (s.cellAcct c) t 4096 false).flits (regionOf c) 4096
      let b2 := s.targetBytes t 4096
      let c2 := crc32c b2
      if c2 = chkCrc e then ((s.satFld .CEL_TCHK_COUNT_reread_ok c 1).cellPmc c 0x07 1, b2, true)
      else fail s b2 c2 true
  else if (st = chkNone ∨ st = chkStale) ∧ !loose then
    ((s.satFld .CEL_TCHK_COUNT_unchecked c 1).cellPmc c 0x07 1, bs, true)
  else fail s bs crc false

/-- R222, R418: whether a run that the access stream reads has an uncorrectable line in memory. -/
def State.streamBad (s : State) (c : Nat) (t : Target) (n : Nat) : State × Bool :=
  let a := t.addr % 128
  (List.range ((a + n + 127) / 128)).foldl (fun (x : State × Bool) i =>
    let u := if i = 0 then t else t.plus (128 * i - a)
    if x.1.l2Fresh c u then x
    else
      let y := x.1.takeBad1 u
      (y.1, x.2 || y.2)) (s, false)

/-- The halt reason that a page's answer gives a tile read (R240, R463). -/
def State.tileAns (s : State) (t : Target) : Option Nat := (s.answerOf t).map MFault.halt

/-- Whether the host holds a line of a run that a device agent reads (R335). -/
def State.heldRun (s : State) (t : Target) (n : Nat) (write : Bool) : Option Target :=
  ((List.range ((t.addr % 128 + n + 127) / 128)).map (fun i => t.plus (128 * i))).find? (fun u => s.biHeld u write)

/-- R89, R90: the tiles of a TLOAD or TVERIFY moved and verified in order, to the first failure: the tiles before it are
in the scratchpad then, and the bytes of one that fails its check too (DESIGN CHOICE, log entry 54). -/
def State.loadTiles (s : State) (c : Nat) (st : Stream) (p : InProg) : Nat → List (Nat × Target) → State
  | _, [] => s
  | i, (va, t) :: rest =>
    match s.tileAns t with
    | some r => s.haltStream c st p.sw.addr r (some va) false
    | none =>
      let b := s.streamBad c t 4096
      let s := b.1
      if b.2 then s.haltStream c st p.sw.addr hrEcc (some va) false
      else
      let w := p.sw.w
      let r : State × List Byte × Bool :=
        if verifying p.sw.op w then s.verifyTile c t (p.e1.getD i 0) p.loose
        else
          let q := s.streamBytes c t 4096
          (q.1, q.2, true)
      let s := if p.sw.op = 0x10 then
          r.1.modCell c (fun x => x.putTile (descOf (p.args.getD 0 0)) (mfld w 40 1 == 1) (mfld w 41 1 == 1) i r.2.1)
        else r.1
      if r.2.2 then s.loadTiles c st p (i + 1) rest
      else s.haltStream c st p.sw.addr hrTileCheck (some va) false

/-- R92: the rows of a TGATHER, from its pieces. -/
def State.gatherRows (s : State) (c : Nat) (st : Stream) (p : InProg) : State :=
  match p.tiles.findSome? (fun t => (s.tileAns t.2).map (fun r => (r, t.1))) with
  | some (r, va) => s.haltStream c st p.sw.addr r (some va) false
  | none =>
    let b := (p.tiles.zip (p.args.drop 4)).foldl (fun (x : State × Option Nat) t =>
      let y := x.1.streamBad c t.1.2 t.2
      (y.1, x.2.or (if y.2 then some t.1.1 else none))) (s, none)
    let s := b.1
    match b.2 with
    | some va => s.haltStream c st p.sw.addr hrEcc (some va) false
    | none =>
    let d := descOf (p.args.getD 0 0)
    let len := d.rowLen
    let f := fun (a : State × List Byte × List (List Byte)) (t : (Nat × Target) × Nat) =>
      let q := a.1.streamBytes c t.1.2 t.2
      let row := a.2.1 ++ q.2
      if row.length ≥ len then (q.1, [], a.2.2 ++ [row]) else (q.1, row, a.2.2)
    let r := (p.tiles.zip (p.args.drop 4)).foldl f (s, [], [])
    r.1.modCell c (fun x =>
      (List.range d.rows).foldl (fun x i => x.scrPut (d.addr + i * 16 * d.stride) (r.2.2.getD i [])) x)

/-- A macro-op in progress changed. -/
def State.modProg (s : State) (c : Nat) (st : Stream) (n : Nat) (f : InProg → InProg) : State :=
  s.modStream c st (fun x => { x with prog := x.prog.map (fun q => if q.n = n then f q else q) })

/-- The bytes that a read moves from each of its addresses. -/
def InProg.lens (p : InProg) : List Nat :=
  if p.sw.op = 0x12 then p.args.drop 4 else List.replicate p.tiles.length 4096

/-- A line of a read that the host holds exclusive (R335). -/
def State.readHeld (s : State) (p : InProg) : Option Target :=
  (p.tiles.zip p.lens).findSome? (fun t => s.heldRun t.1.2 t.2 false)

/-- MACRO_OP_COMPLETION (R83): the completion point of a macro-op: its lines have passed the L1 port (R59), a load's
data is in the scratchpad and verified; its signal follows in order. Lines the host holds are called back first (R335).
-/
def execMacroOpCompletion (cid : CellId) (st : Stream) (n : Nat) (s : State) : Out :=
  let c := cellNo cid
  if !s.alive || (s.cell c).state != .running then .next s
  else
    match (s.stream c st).prog.find? (fun p => p.n == n && !p.done) with
    | none => .next s
    | some p =>
      let load := p.sw.op == 0x10 || p.sw.op == 0x12 || p.sw.op == 0x13
      match (if load then s.readHeld p else none) with
      | some t => .next (s.biSnoop t false)
      | none =>
        let s := s.modCell c (fun x => x.l1Move n (2 * x.l1Grants))
        let s := match p.sw.op with
          | 0x10 => s.loadTiles c st p 0 p.tiles
          | 0x13 => s.loadTiles c st p 0 p.tiles
          | 0x12 => s.gatherRows c st p
          | _ => s
        .next ((s.modProg c st n (fun q => { q with done := true, time := s.now })).streamPoll planOf c)

/-! ### The array (R94 to R96) -/

/-- The operands of an MMA from its captured descriptors (R94, R113, R115). -/
def mmaOps (scr : NMap Byte) (w : MacroWord) (args : List Nat) : MmaOps :=
  let da := descOf (args.getD 0 0)
  let db := descOf (args.getD 1 0)
  let sh := mmaShape w da db
  let va := (da.matrix scr).map (fun l => l.map (elemVal da.fmt))
  let vb := (db.matrix scr).map (fun l => l.map (elemVal db.fmt))
  let a := if mfld w 49 1 = 1 then transposed .nan va da.cols else va
  let b := if mfld w 50 1 = 1 then vb else transposed .nan vb db.cols
  let sc := fun (m : List (List FVal)) (v : Nat) =>
    let sm := (descOf v).matrix scr
    (List.range m.length).map (fun r => (List.range sh.2.1).map (fun k => scaled sm r k (at2 .nan m r k)))
  let mx := decide (4 ≤ da.fmt) && decide (da.fmt ≤ 6)
  let a := if mx then sc a (args.getD 2 0) else a
  let b := if mx then sc b (args.getD 3 0) else b
  { fa := da.fmt, fb := db.fmt, m := sh.1, k := sh.2.1, n := sh.2.2.2, a := a, b := b
    s := if mfld w 51 4 = 0 then 7 else mfld w 51 4, ea := a.map sliceExp, eb := b.map sliceExp }

/-- R109: the array tokens of an MMA. -/
def mmaTokens (o : MmaOps) : Nat :=
  if o.fa = 0xC then ceilDiv (o.k * (o.m + o.n)) 64 + ceilDiv (o.k * (o.s * (o.s + 1) / 2)) 2 + 96
  else stepTokens o.fa o.fb o.k + 88

/-- A slice exponent kept among a macro-op's values. -/
def expCode (e : Option Int) : Nat := match e with | none => 0 | some e => (e + 8192).toNat
def expOf (n : Nat) : Option Int := if n = 0 then none else some ((n : Int) - 8192)

/-- What an MMA keeps for its end: its four descriptors, the tokens, M and the slice exponents. -/
def mmaKeep (args : List Nat) (o : MmaOps) : List Nat :=
  args ++ [mmaTokens o, o.m, o.n, o.k] ++ (o.ea.map expCode) ++ (o.eb.map expCode)

/-- The kept operands of an MMA. -/
def mmaKept (w : MacroWord) (args : List Nat) : MmaOps :=
  let m := args.getD 5 0
  { fa := (descOf (args.getD 0 0)).fmt, fb := (descOf (args.getD 1 0)).fmt, m := m, n := args.getD 6 0
    k := args.getD 7 0, a := [], b := []
    s := if mfld w 51 4 = 0 then 7 else mfld w 51 4
    ea := ((args.drop 8).take m).map expOf, eb := ((args.drop 8).drop m).map expOf }

/-- MMA (R94, R95, R126, R130): the operands are read and accumulated; the test and, in slice mode, the conversion come
at its retirement. -/
def execMma (cid : CellId) (st : Stream) (w : MacroWord) (s : State) : Out :=
  .next (s.macroOp planOf cid st 0x20 w (fun s c n sw p =>
    let o := mmaOps (s.cell c).scr w p.args
    let s := s.modCell c (fun x => { x with arr :=
      { x.arr with shadow := x.arr.acc, acc := mmaRun x.arr.acc o (mfld w 48 1 == 1), retry := false, dirty := false
                   slices := if o.fa = 0xC then o.s else x.arr.slices } })
    s.inProg c st { started n sw p with args := mmaKeep p.args o }))

/-- The accumulator as rows of codes in a format (R96, R117). -/
def accRows (x : AccSt) (d : Desc) (rm : Rnd) : List (List Nat) :=
  (List.range d.rows).map (fun r => (List.range d.cols).map (fun j =>
    let k := 16 * r + j
    if d.fmt = 0xC then mapGet 0 x.c64 k
    else if d.fmt = 0xB ∨ d.fmt = 0xA then mapGet 0 x.c k
    else narrow d.fmt rm 0 (FFmt.fp32.dec (mapGet 0 x.c k))))

/-- ACCST (R96). -/
def execAccst (cid : CellId) (st : Stream) (w : MacroWord) (s : State) : Out :=
  .next (s.macroOp planOf cid st 0x21 w (fun s c n sw p =>
    let d := descOf (p.args.getD 0 0)
    let s := s.modCell c (fun x =>
      let y := x.putRows d (accRows x.arr.acc d (Rnd.of (mfld w 36 2)))
      if mfld w 38 1 = 1 then y else { y with arr := { y.arr with acc := AccSt.clear 3 } })
    s.inProg c st (started n sw p)))

/-- R96, R126: the accumulator loaded from rows of codes. -/
def accLoad (d : Desc) (m : List (List Nat)) : AccSt :=
  let rows := List.range d.rows
  let cols := List.range d.cols
  let put := fun (f : Nat → Nat → Nat) => rows.foldl (fun a i => cols.foldl (fun a j => mapSet 0 a (16 * i + j) (f i j)) a) []
  let v := fun i j => FFmt.fp32.dec (at2 0 m i j)
  if d.fmt = 0xB then
    let iv := fun i j => ((at2 0 m i j : Nat) : Int)
    { AccSt.clear 1 with
      c := put (at2 0 m), k := 1
      rj := cols.foldl (fun a j => mapSet 0 a j ((lowBits 32 (rows.map (fun i => iv i j)).sum : Nat) : Int)) []
      ci := rows.foldl (fun a i => mapSet 0 a i ((lowBits 32 (cols.map (fun j => iv i j)).sum : Nat) : Int)) [] }
  else
    { AccSt.clear 0 with
      c := put (at2 0 m), k := 1
      rj := cols.foldl (fun a j => mapSet 0 a j ((sum32 (rows.map (fun i => v i j)) : Nat) : Int)) []
      mj := cols.foldl (fun a j => mapSet 0 a j (sum32 (rows.map (fun i => (v i j).abs)))) []
      ci := rows.foldl (fun a i => mapSet 0 a i ((sum32 (cols.map (fun j => v i j)) : Nat) : Int)) []
      mi := rows.foldl (fun a i => mapSet 0 a i (sum32 (cols.map (fun j => (v i j).abs)))) [] }

/-- ACCLD (R96, R126). -/
def execAccld (cid : CellId) (st : Stream) (w : MacroWord) (s : State) : Out :=
  .next (s.macroOp planOf cid st 0x22 w (fun s c n sw p =>
    let d := descOf (p.args.getD 0 0)
    (s.modCell c (fun x => { x with arr := { x.arr with acc := accLoad d (d.matrix x.scr) } })).inProg c st (started n sw p)))

/-! ### The vector path (R97 to R99) -/

/-- R314: the elements a vector macro-op processes. -/
def State.vecElems (s : State) (c n : Nat) : State := s.meter (s.cellAcct c) .CFE_ACCT_vector_ops n

/-- ELEM (R97, R114). As every execute macro-op and TSTORE, it reads its operands whole and writes its results whole in
this command, which fixes one of the outcomes that R85 allows an unordered read (DESIGN CHOICE, log entry 15). -/
def execElem (cid : CellId) (st : Stream) (w : MacroWord) (s : State) : Out :=
  .next (s.macroOp planOf cid st 0x23 w (fun s c n sw p =>
    let fn := mfld w 44 8
    let rm := Rnd.of (mfld w 52 2)
    let imm := mfld w 64 32
    let dd := descOf (p.args.getD 0 0)
    let dx := descOf (p.args.getD 1 0)
    let dy := descOf (p.args.getD 2 0)
    let scr := (s.cell c).scr
    let xm := dx.matrix scr
    let s := s.vecElems c (dx.rows * dx.cols)
    let s :=
      if fn = 0x20 then
        let q := xm.map (fun row => (chunks 32 (dx.cols + 1) (row.map (elemVal dx.fmt))).map (mxBlock dd.fmt rm))
        s.modCell c (fun x =>
          (x.putRows dd (q.map (fun bl => (bl.map (·.2)).flatten))).putRows dy (q.map (fun bl => bl.map (·.1))))
      else
        let ym := if fnUsesY fn then dy.matrix scr else []
        let free := s.freeAt 0
        let r := (List.range dx.rows).map (fun i => (List.range dx.cols).map (fun j =>
          let y := to32 dy.fmt (at2 0 ym i (if fnIsRow fn then 0 else j))
          narrow dd.fmt rm free (FFmt.fp32.dec ((elemFn fn (to32 dx.fmt (at2 0 xm i j)) y imm).getD 0))))
        (s.modCell c (fun x => x.putRows dd r)).drew 1
    s.inProg c st (started n sw p)))

/-- REDUCE (R98, R144): elements and products are exact until they are added. -/
def execReduce (cid : CellId) (st : Stream) (w : MacroWord) (s : State) : Out :=
  .next (s.macroOp planOf cid st 0x24 w (fun s c n sw p =>
    let fn := mfld w 44 4
    let dd := descOf (p.args.getD 0 0)
    let dx := descOf (p.args.getD 1 0)
    let dy := descOf (p.args.getD 2 0)
    let scr := (s.cell c).scr
    let vals := fun (d : Desc) => (d.matrix scr).map (fun l => l.map (elemVal d.fmt))
    let xs := vals dx
    let ys := if fn = 3 then vals dy else []
    let r := (List.range dx.rows).map (fun i => [reduceRow fn (xs.getD i []) (ys.getD i [])])
    ((s.vecElems c (dx.rows * dx.cols)).modCell c (fun x => x.putRows dd r)).inProg c st (started n sw p)))

/-- R139: an operand of LUT, decoded exactly, with its block scales where it is E4M3. -/
def lutVals (scr : NMap Byte) (d : Desc) (scale : Nat) : List (List FVal) :=
  let m := d.matrix scr
  let sm := if d.fmt = 0x2 then (descOf scale).matrix scr else []
  (List.range d.rows).map (fun r => (List.range d.cols).map (fun c =>
    let v := elemVal d.fmt (at2 0 m r c)
    if d.fmt = 0x2 then scaled sm r c v else v))

/-- R138: what LUT writes before it is rounded to its destination: T(x), or x × T′(v) as one FP32 multiplication. -/
def lutVal (t : Table) (sel : Nat) (x v : FVal) : FVal :=
  if sel = 1 then FFmt.fp32.dec (FFmt.fp32.enc .ne (FVal.mul x (tableVal t v))) else tableVal t x

/-- LUT (R99, R138 to R140). -/
def execLut (cid : CellId) (st : Stream) (w : MacroWord) (s : State) : Out :=
  .next (s.macroOp planOf cid st 0x25 w (fun s c n sw p =>
    let sel := mfld w 46 1
    let dd := descOf (p.args.getD 0 0)
    let dx := descOf (p.args.getD 1 0)
    let scr := (s.cell c).scr
    let xs := lutVals scr dx (p.args.getD 3 0)
    let sv := if sel = 1 then lutVals scr (descOf (p.args.getD 2 0)) (p.args.getD 4 0) else []
    match mapFind (s.cell c).luts (2 * mfld w 44 2 + sel) with
    | none => s.haltStream c st sw.addr hrTileBad none false
    | some t =>
      let r := (List.range dx.rows).map (fun i => (List.range dx.cols).map (fun j =>
        narrow dd.fmt .ne 0 (lutVal t sel (at2 .nan xs i j) (at2 .nan sv i j))))
      ((s.vecElems c (dx.rows * dx.cols)).modCell c (fun x => x.putRows dd r)).inProg c st (started n sw p)))

/-- R135: whatever makes a TBLLD of a stream halt the cell leaves its table absent. -/
def State.tblldHalt (t s : State) (c : Nat) (st : Stream) (w : MacroWord) : State :=
  if (s.cell c).state = .running ∧ (t.cell c).state = .halted ∧ (t.cell c).halt.source = 1 + streamNo st then
    t.modCell c (fun x => { x with luts := mapErase x.luts (2 * mfld w 36 2 + mfld w 38 1) })
  else t

/-- TBLLD (R99, R135, R137): the table is absent until the macro-op retires; the image read is kept with it. -/
def execTblld (cid : CellId) (st : Stream) (w : MacroWord) (s : State) : Out :=
  .next (State.tblldHalt (s := s) (c := cellNo cid) (st := st) (w := w) (s.macroOp planOf cid st 0x26 w (fun s c n sw p =>
    let im := ((descOf (p.args.getD 0 0)).matrix (s.cell c).scr).getD 0 []
    let s := s.modCell c (fun x => { x with luts := mapErase x.luts (2 * mfld w 36 2 + mfld w 38 1) })
    match tableOf im with
    | none => s.haltStream c st sw.addr hrTileBad none false
    | some _ => s.inProg c st { started n sw p with args := im })))

/-! ### Retirement (R83) -/

/-- R35, R314: array tokens. -/
def State.arrTokens (s : State) (c n : Nat) (metered : Bool) : State :=
  (if metered then s.meter (s.cellAcct c) .CFE_ACCT_matrix_tokens n else s).cellPmc c 0x02 n

/-- R129: a failed test recorded. -/
def State.abftRecord (s : State) (c fa : Nat) (f : AbftFail) (retried blocked marked : Bool) : State :=
  s.setFlds c [(.CEL_ABFT_INFO_index, f.index), (.CEL_ABFT_INFO_is_col, b2n f.isCol), (.CEL_ABFT_INFO_fmt, fa),
    (.CEL_ABFT_INFO_retried, b2n retried), (.CEL_ABFT_INFO_retry_blocked, b2n blocked),
    (.CEL_ABFT_INFO_isolate_marked, b2n marked), (.CEL_ABFT_INFO_valid, 1), (.CEL_ABFT_INFO_residual, f.resid)]

/-- R127 to R130: an MMA's end: the test on the accumulator as an upset left it; a pass retires it, a failure retries it
once or halts the cell. A write into its operands during the retry abandons the retry, whatever it would give. -/
def State.mmaEnd (s : State) (c : Nat) (st : Stream) (p : InProg) (up : Option Upset) : State :=
  let o := mmaKept p.sw.w p.args
  let x := s.cell c
  let acc := match up with | some u => x.arr.acc.upset u | none => x.arr.acc
  let b := blockOf c
  let tokens := p.args.getD 4 0
  let zero := mfld p.sw.w 48 1 == 1
  let mode := s.fld .BLK_ABFT_CTL_mode b
  let halt := fun (s : State) (f : AbftFail) (retried blocked : Bool) =>
    let s := if mode = 2 then s.markIsolate c else s
    (s.abftRecord c o.fa f retried blocked (mode == 2)).haltStream c st p.sw.addr hrAbft none false
  if x.arr.retry && x.arr.dirty then
    let s := if mode = 2 then s.markIsolate c else s
    (s.setFlds c [(.CEL_ABFT_INFO_retry_blocked, 1), (.CEL_ABFT_INFO_isolate_marked, b2n (mode == 2))]).haltStream c st
      p.sw.addr hrAbft none false
  else
  let s := s.arrTokens c tokens (!x.arr.retry)
  match abftTest acc o (s.fld .BLK_ABFT_CTL_tol_shift b) with
  | none =>
    let s := if x.arr.retry then s.satFld .BLK_ABFT_COUNT_recovered b 1 else s
    let acc := if o.fa = 0xC then sliceEnd acc o zero else acc
    (s.modCell c (fun x => { x with arr := { x.arr with acc := acc, retry := false } })).retireOp c st p
  | some f =>
    let s := s.satFld .BLK_ABFT_COUNT_detected b 1
    let s := s.modCell c (fun x => { x with arr := { x.arr with acc := acc } })
    if mode = 0 then halt s f false false
    else if x.arr.retry then halt s f true false
    else if x.arr.dirty then halt s f false true
    else
      let s := s.abftRecord c o.fa f true false false
      let s := (s.addFld .CEL_ABFT_RETRIES_count c 1).cellPmc c 0x08 1
      s.modCell c (fun x =>
        let o := mmaOps x.scr p.sw.w (p.args.take 4)
        { x with arr := { x.arr with acc := mmaRun x.arr.shadow o zero, retry := true } })

/-- Whether the home of a tile answers. -/
def State.tileAnswers (s : State) (t : Target) : Bool :=
  match t with
  | .dev d => decide (s.pageAns (d / 65536) = .ok)
  | .host _ => s.hostUp || s.hif.pcie
  | .peer _ _ => true

/-- R172, R187, R208: one tile written at its home and closed, or its 32 lines lost and the tile abandoned. -/
def State.storeTile (s : State) (c : Nat) (t : Nat × Target) (bs : List Byte) : State :=
  let lost := fun (s : State) => s.each (List.range 32) (fun s i =>
    (s.mayLand ((t.2.plus (128 * i)).numbered ((bs.drop (128 * i)).take 128))).lostUnit [c] [])
  match t.2 with
  | .dev d =>
    if s.pageAns (d / 65536) = .ok then
      ((s.tilePut (s.cellAcct c) t.2 bs).flits (regionOf c) bs.length).chkClose d (regionOf c) (crc32c bs)
    else (lost s).chkAbandon d (regionOf c)
  | .host _ => if s.hostUp ∨ s.hif.pcie then ((s.tilePut (s.cellAcct c) t.2 bs).hostDrop (s.cellQueue c) t.2).flits (regionOf c) bs.length else lost s
  | .peer _ _ => s

/-- R172: a tile's lines written back from the block L2 and invalidated, and its L1 lines gone (R93); whether all went.
-/
def State.clearTile (s : State) (c : Nat) (t : Nat × Target) : State × Bool :=
  let r := s.cleanTile c t.2 4096
  if !r.2 then r
  else
    let lo := t.2.line
    let out := fun (e : Nat × CLine) => !(decide (lo ≤ e.2.addr) && decide (e.2.addr ≤ lo + 31))
    let s := r.1.modBlock (blockOf c) (fun x => { x with l2 := { x.l2 with lines := x.l2.lines.filter out } })
    (s.each (List.range 32) (fun s i => s.l1Drop c (t.1 + 128 * i)), true)

/-- R86: a TSTORE all of whose tiles are accepted or lost retires; one whose signal is still held stays. -/
def State.storeFin (s : State) (c : Nat) (st : Stream) (p : InProg) : State :=
  if p.owes || !p.done then s.modProg c st p.n (fun q => { q with tiles := [], bytes := [] }) else s.retireOp c st p

/-- The end of a TSTORE: every tile accepted by its home; lines the host holds are called back first. -/
def State.storeEnd (s : State) (c : Nat) (st : Stream) (p : InProg) : State :=
  match p.tiles.findSome? (fun t => s.heldRun t.2 4096 true) with
  | some t => s.biSnoop t true
  | none =>
    let r := p.tiles.foldl (fun (a : State × Bool) t =>
      let q := a.1.clearTile c t
      (q.1, a.2 && q.2)) (s, true)
    if !r.2 then r.1
    else (r.1.each (p.tiles.zip p.bytes) (fun s tb => s.storeTile c tb.1 tb.2)).storeFin c st p

/-- R186, R187: a TSTORE that a wait for stores has waited for to its limit: the lines that the host holds are lost, a
unit each, and so is every line of a tile whose page does not answer; the others are written. Its tiles with lost lines
are left BROKEN. -/
def State.storeLose (s : State) (c : Nat) (st : Stream) (p : InProg) : State :=
  (s.each (p.tiles.zip p.bytes) (fun s tb =>
    let u := fun i => tb.1.2.plus (128 * i)
    let held := (List.range 32).filter (fun i => s.biHeld (u i) true)
    if held.isEmpty || !s.tileAnswers tb.1.2 then (s.clearTile c tb.1).1.storeTile c tb.1 tb.2
    else
      let s := s.each (List.range 32) (fun s i =>
        let bs := (tb.2.drop (128 * i)).take 128
        if held.contains i then (s.mayLand ((u i).numbered bs)).lostUnit [c] [] else s.tileLinePut c (tb.1.1 + 128 * i) (u i) bs)
      match tb.1.2 with
      | .dev d => s.chkAbandon d (regionOf c)
      | _ => s)).storeFin c st p

/-- MACRO_OP_RETIREMENT (R83, R127). -/
def execMacroOpRetirement (cid : CellId) (st : Stream) (n : Nat) (up : Option Upset) (s : State) : Out :=
  let c := cellNo cid
  if !s.alive || (s.cell c).state != .running then .next s
  else
    match (s.stream c st).prog.find? (fun p => p.n == n && p.done && !p.owes) with
    | none => .next s
    | some p =>
      let s := match p.sw.op with
        | 0x11 => s.storeEnd c st p
        | 0x20 => s.mmaEnd c st p up
        | 0x21 => (s.arrTokens c (if fmtBits (descOf (p.args.getD 0 0)).fmt = 16 then 8 else 16) true).retireOp c st p
        | 0x22 => (s.arrTokens c 16 true).retireOp c st p
        | 0x26 =>
          (match tableOf p.args with
            | some t => s.modCell c (fun x => { x with
                luts := mapIns x.luts (2 * mfld p.sw.w 36 2 + mfld p.sw.w 38 1) t })
            | none => s).retireOp c st p
        | _ => s.retireOp c st p
      .next (s.streamPoll planOf c)

end Sys2Proof.Machine
end

