-- ==== Sys2Proof/Machine/Settle.lean ====
section
/-!
DEFINITION. The end of a memory request of a cell (R58, R463): results written to registers, undefined destinations and
the halt of a failed instruction, lost stores (R187).
-/

namespace Sys2Proof.Machine

/-- R50: a loaded value as its destination registers hold it. -/
def loadVal (size : Nat) (sign : Bool) (v : Nat) : Nat :=
  match size with
  | 0 => if sign then lowBits 32 (sgn 8 v) else v % 2 ^ 8
  | 1 => if sign then lowBits 32 (sgn 16 v) else v % 2 ^ 16
  | _ => v

/-- The lanes of a request that have their values. -/
def Req.results (r : Req) : List (Nat × Nat) :=
  r.lanes.filterMap (fun l => match l.st with | .done v => some (l.lane, v) | _ => none)

/-- The lanes whose conditional store stored (R161). -/
def stored (l : List (Nat × Nat)) : Mask := maskOf ((l.filter (fun e => e.2 != 0)).map (·.1))

/-- R66, R161, R163: the results of a request in its group's registers. -/
def Group.take (g : Group) (r : Req) : Group :=
  let l := r.results
  match r.kind with
  | .load vd size sign _ => g.wrs (sizeRegs size) vd (l.map (fun e => (e.1, loadVal size sign e.2)))
  | .ldres vd size => g.wrs (sizeRegs size) vd l
  | .atom _ vd size _ => g.wrs (sizeRegs size) vd l
  | .fe op vd => if feReturns op then g.wrs 2 vd l else g
  | .stcond pd _ => g.setP pd (maskOf (l.map (·.1))) (stored l)
  | .uload ud => match l with | e :: _ => g.setU ud e.2 | [] => g
  | _ => g

/-- R463: the destinations of a failed instruction undefined in every lane: free values. Log entry 2. -/
def State.undefDests (s : State) (c slot : Nat) (k : ReqKind) : State :=
  match s.group c slot with
  | none => s
  | some g =>
    let d := k.dests
    let nv := d.v.length
    let lanes := (List.range 32).flatMap (fun ln => d.v.zipIdx.map (fun e => (e.1, ln, 32 * e.2 + ln)))
    let g := lanes.foldl (fun g e => g.wr 1 e.1 e.2.1 (s.freeAt e.2.2)) g
    let g := d.p.foldl (fun g i => g.setP i 0xFFFFFFFF (BitVec.ofNat 32 (s.freeAt (32 * nv)))) g
    let g := d.u.foldl (fun g i => g.setU i (s.freeAt (32 * nv))) g
    (s.setGroup c slot g).drew (32 * nv + 1)

/-- The halt that a failed request causes (R68, R69, R360, R463): the first failed lane's reason and address; `more`
where the same answer failed several lanes (DESIGN CHOICE, log entry 52). -/
def State.failReq (s : State) (c : Nat) (r : Req) : State :=
  match r.lanes.filterMap (fun l => match l.st with | .failed x => some (x, l.va) | _ => none) with
  | [] => s
  | (reason, va) :: t =>
    let m := match s.group c r.slot with | some g => g.active | none => 0
    (s.undefDests c r.slot r.kind).haltCell c
      ⟨reason, if reason = hrEcc then 3 else 0, r.slot, m, r.pc, some va, !t.isEmpty, r.id⟩

/-- The bytes that lanes of a store write at this device or its host, by number; the highest lane wins (R146). -/
def hereBytes (size : Nat) (l : List LaneOp) : NMap Byte :=
  l.foldl (fun m x => (x.tgt.numbered (natLe (2 ^ size) x.a)).foldl (fun m e => mapIns m e.1 e.2) m) []

/-- R187, R429: the lost units of a store: one for each 128-byte line of its failed lanes. -/
def State.loseReq (s : State) (c size : Nat) (r : Req) : State :=
  let bad := r.lanes.filter (fun l => match l.st with | .failed _ => true | _ => false)
  (s.mayLand (hereBytes size bad)).each ((bad.map (fun l => l.tgt.line)).eraseDups) (fun s _ => s.lostUnit [c] [(c, r.slot)])

/-- Whether a lane of a request has failed. -/
def Req.hasFailed (r : Req) : Bool := r.lanes.any (fun l => match l.st with | .failed _ => true | _ => false)

/-- The request of a cell marked as failed. -/
def State.markBad (s : State) (c id : Nat) : State :=
  s.modCell c (fun x => { x with reqs := x.reqs.map (fun r => if r.id = id then { r with bad := true } else r) })

/-- A request that has all its answers leaves the cell. -/
def State.endOwn (s : State) (c id : Nat) : State :=
  s.modCell c (fun x => { x with reqs := x.reqs.filter (fun q => q.id != id) })

/-- What the answers of a request lead to: its first fault halts the cell at once (R69, R463), and its other lanes are
performed; with all its answers it leaves the cell, with its results or its lost stores. -/
def State.settle (s : State) (c id : Nat) : State :=
  match (s.cell c).reqs.find? (fun r => r.id == id) with
  | none => s
  | some r =>
    let fin := r.lanes.all LaneOp.final
    match r.kind with
    | .store z => if fin then (s.endOwn c id).loseReq c z r else s
    | .storeNt z => if fin then (s.endOwn c id).loseReq c z r else s
    | _ =>
      let s := if r.hasFailed && !r.bad then (s.failReq c r).markBad c id else s
      if !fin then s
      else
        match r.hasFailed || r.bad, s.group c r.slot with
        | false, some g => (s.endOwn c id).setGroup c r.slot (g.take r)
        | _, _ => s.endOwn c id

/-- The lanes of a list given one progress. -/
def State.setLanes (s : State) (c id : Nat) (l : List Nat) (st : LaneSt) : State :=
  s.each l (fun s ln => s.setLane c id ln st)

/-! ### Full/empty waiters withdrawn with a fault -/

/-- The status of a reply for a failed access (R348, R360). -/
def statusOf : MFault → Nat
  | .translation => 2
  | .protection => 1
  | .farTier => 5
  | .ecc => 5
  | .wait _ => 0

/-- R229, R241, R428: one waiter ends with a fault: its cell halts, its step fails, its peer is answered. -/
def State.feFailOne (s : State) (f : MFault) (status code : Nat) (w : FeWaiter) : State :=
  match w.src with
  | .cell c _ id ln => (s.setLane c id ln (.failed f.halt)).settle c id
  | .packet q seq => match s.pkt q seq with | some p => s.endPkt p code | none => s
  | .peer dev tid _ ep =>
    s.sendOrDrop ftFeRsp { Frame.blank with
      dst := BitVec.ofNat 16 dev, tid := BitVec.ofNat 16 tid, tepoch := BitVec.ofNat 8 ep, vc := true
      status := BitVec.ofNat 3 status }

/-- Waiters picked by a test withdrawn with a fault, in order. -/
def State.feFail (s : State) (f : MFault) (status code : Nat) (p : FeWaiter → Bool) : State :=
  let ws := s.waiters.filter p
  (s.feWithdraw p).each ws (fun s w => s.feFailOne f status code w)

end Sys2Proof.Machine
end

