-- ==== Sys2Proof/Machine/Fatal.lean ====
section
/-!
DEFINITION. The fatal stop (R430, R431), the entries that the dumps share (R436, R461), and abandoned migrations (R253).
Dump.lean takes the December dump.
-/

namespace Sys2Proof.Machine

/-! ### Location entries -/

/-- The states and seasons as R239 numbers them. -/
def PageState.num : PageState → Nat
  | .unallocated => 0
  | .zero => 1
  | .resident => 2
  | .migrating => 3
  | .lost => 4
def Season.num : Season → Nat
  | .spring => 0
  | .summer => 1
  | .autumn => 2
  | .winter => 3

/-- R239: a location entry as its 64 bits. -/
def LocEnt.word (e : LocEnt) : Nat :=
  e.state.num + 2 ^ 3 * e.season.num + 2 ^ 5 * b2n e.sync + 2 ^ 6 * (e.pin % 4) + 2 ^ 8 * (e.hint % 4)
    + 2 ^ 10 * (e.loc % 16) + 2 ^ 14 * (e.frame % 2 ^ 26) + 2 ^ 40 * (e.heat % 256) + 2 ^ 48 * (e.dwell % 256)

/-! ### Migrations abandoned -/

/-- R249, R253: a migration abandoned: the page stays at its source, the destination frame is released; a demotion that
was to give a headroom frame back owes it still. After an uncorrectable
read or the loss of the destination (`skip`) the page is passed over for `min_dwell` scans. -/
def State.abandonMig (s : State) (m : Migration) (skip : Bool) : State :=
  let s : State := { s.giveBack m.loc m.frame (s.loc m.dpn).sync with
    migs := s.migs.filter (fun x => x.dpn != m.dpn)
    roomOwed := if m.room && m.kind == .demotion then s.roomOwed + 1 else s.roomOwed
    skip := if skip then mapSet 0 s.skip m.dpn (s.fld .PLE_SEASON_min_dwell 0) else s.skip }
  (s.setLoc m.dpn { s.loc m.dpn with state := .resident }).satFld .PLE_MIG_STAT_abandoned 0 1

/-! ### Entries of the dumps -/

/-- A list of bytes made up with zeros to `n`. -/
def padTo (n : Nat) (bs : List Byte) : List Byte := (bs ++ List.replicate (n - bs.length) 0).take n

/-- The entry of a waiting FENCE_WAIT. -/
def State.dumpFence (s : State) (p : Pkt) : List Byte :=
  let f := p.b 8 2
  padTo 32 (natLe 2 p.q ++ natLe 2 f ++ natLe 2 p.step ++ natLe 2 1 ++ natLe 8 (p.b 16 8)
    ++ natLe 8 (s.fld .CFE_FENCE_VALUE_value f) ++ natLe 8 p.start)

/-- The source and the requester of a full/empty waiter. -/
def State.dumpWho (s : State) (w : FeWaiter) : Nat × Nat :=
  match w.src with
  | .cell c slot _ _ =>
    (0, (s.logicalOf c).getD 0 + 8 * (blockOf c % 12) + 128 * regionOf c + 4096 * slot)
  | .packet q _ => (1, q)
  | .peer dev _ _ _ => (2, dev)

/-- The entry of a full/empty waiter. -/
def State.dumpFe (s : State) (w : FeWaiter) : List Byte :=
  let who := s.dumpWho w
  padTo 32 (natLe 8 w.word ++ natLe 1 2 ++ natLe 1 w.op ++ natLe 1 who.1 ++ natLe 1 w.die ++ natLe 4 who.2
    ++ natLe 8 w.since ++ natLe 1 (b2n (s.isFull w.word)) ++ natLe 1 (if who.1 = 2 then 0xFF else w.asc))

/-- The packets that wait on a fence. -/
def State.fenceWaiters (s : State) : List Pkt := s.pool.filter (fun p => p.waitsFence (p.b 8 2))

/-- R461: a power sample. -/
def PwrSample.bytes (x : PwrSample) : List Byte :=
  padTo 512 (natLe 8 x.ns ++ natLe 2 x.power ++ natLe 2 x.cap ++ x.rails.flatMap (natLe 2)
    ++ x.temps.flatMap (fun t => natLe 2 (lowBits 16 t)))

/-- R317: the meters of a tag. -/
def State.acctBytes (s : State) (t : Nat) : List Byte :=
  ([.CFE_ACCT_cell_ns, .CFE_ACCT_matrix_tokens, .CFE_ACCT_vector_ops, .CFE_ACCT_close_bytes, .CFE_ACCT_far_bytes,
    .CFE_ACCT_fabric_bytes, .CFE_ACCT_energy_mj, .CFE_ACCT_kernels] : List Fld).flatMap (fun f => natLe 8 (s.fld f t))

/-! ### The fatal stop -/

/-- R431 step 4: dirty host lines written back, but for those of a shared-cache die named by SCD_DIRTY. -/
def State.hostBack (s : State) (code die : Nat) : State :=
  let lost := fun (a : Nat) => code == 0x0202 && die == 28 + homeOf a
  let m := s.hostDirty.foldl (fun m e => if lost e.1 then m else mapSet 0 m e.1 e.2) s.hostMem
  { s with hostMem := if s.hostUp then m else s.hostMem, hostDirty := [] }

/-- A fatal stop (R430, R431) up to its step 4, or a stop of start-up (R381), which takes no dump; neither follows
another. Steps 5 to 7 come with the next tick (log entry 21). -/
def State.fatalStop (s : State) (code die : Nat) : State :=
  if s.fld .HIF_PROMPT_STATE_boot_state 0 = 0xA then s
  else
    let s := s.setFlds 0 [(.RAS_FATAL_fatal_code, code), (.RAS_FATAL_die, die), (.RAS_FATAL_valid, 1),
      (.RAS_FATAL_TIME_tai_ns, s.now), (.HIF_PROMPT_FATAL_fatal_code, code), (.HIF_PROMPT_FATAL_fatal_ns, s.now),
      (.HIF_PROMPT_STATE_fatal, 1)]
    let s := (s.setBoot 0xA).pldmEvent 0x81
    if code < 0x200 then s
    else
      let s : State := { s with hif := { s.hif with viral := s.hif.viral || s.hif.viralEn } }
      let s := s.each s.migs (fun s m => s.abandonMig m false)
      let s := s.each (List.range 12) (fun s p =>
        if s.fld .FAB_PORT_CFG_mode p = modeOff then s else s.setFlds p [(.FAB_PORT_STATUS_state, portDown), (.FAB_PORT_STATUS_lanes_up, 0)])
      if code = 0x0209 then s else { s.hostBack code die with dumpDue := true }

/-- A chip-level failure of a die, which a test admits, while chip reset is over. -/
def State.dieFails (s : State) (code die : Nat) (ok : Bool) : State :=
  if s.alive && s.fld .HIF_PROMPT_STATE_boot_state 0 != 0 && ok then s.fatalStop code die else s

/-- D2D_LINK_FAILURE (R17, R430), DIE_INTERNAL_ERROR (a die other than a region's), FW_FAULT (a Placement Engine
controller, a fabric die or the power manager), CTL_WATCHDOG (R430). Dies are numbered 0 to 23 RGN, 24 to 27 MID, 28 and
29 SCD, 30 to 35 FAB, 36 HIF, 37 FTA, 38 FTB, 39 control. -/
def execD2dLinkFailure (die : Nat) (s : State) : Out := .next (s.dieFails 0x0201 die (decide (die < 40)))
def execDieInternalError (die : Nat) (s : State) : Out :=
  .next (s.dieFails 0x0206 die (decide (24 ≤ die) && decide (die < 40)))
def execFwFault (die : Nat) (s : State) : Out :=
  .next (s.dieFails 0x0207 die ((decide (24 ≤ die) && decide (die < 28)) || (decide (30 ≤ die) && decide (die < 36))
    || die == 39))
def execCtlWatchdog (s : State) : Out := .next (s.dieFails 0x0209 39 true)

end Sys2Proof.Machine
end

