-- ==== Sys2Proof/Machine/Site.lean ====
section
/-!
DEFINITION. Reads of close and far memory as the die reports them (R221, R222, R228), and the failure of a memory site
(R425) or a far-tier port (R229).
-/

namespace Sys2Proof.Machine

/-- Whether a page lives at a location. -/
def LocEnt.on (e : LocEnt) (l : Nat) : Bool := e.loc == l && (e.state == .resident || e.state == .migrating)

/-- Whether a shared-cache line is a dirty line of a page at a location. -/
def State.dirtyOn (s : State) (l : Nat) (x : CLine) : Bool :=
  !x.dirty.isEmpty && (match lineTarget x.addr with | .dev d => (s.loc (d / 65536)).on l | _ => false)

/-- The number of such lines in both shared caches. -/
def State.dirtyCount (s : State) (l : Nat) : Nat :=
  (s.scds.map (fun e => (e.2.lines.filter (fun x => s.dirtyOn l x.2)).length)).sum

/-- Those lines dropped. -/
def State.dropDirty (s : State) (l : Nat) : State :=
  s.each s.scds (fun s e => s.setScd e.1 { e.2 with lines := e.2.lines.filter (fun x => !s.dirtyOn l x.2) })

/-- R229, R253, R425: the pages at a location lost: dirty lines dropped, migrations to it abandoned, those from it
ended, entries LOST, frames to be cleared before reuse, waiters withdrawn with the location's fault. -/
def State.loseLocation (s : State) (l : Nat) (f : MFault) : State :=
  let s := s.dropDirty l
  let s := s.each (s.migs.filter (fun m => m.loc == l)) (fun s m => s.abandonMig m true)
  let from_ := s.migs.filter (fun m => (s.loc m.dpn).loc == l)
  let s := s.each from_ (fun s m => s.giveBack m.loc m.frame (s.loc m.dpn).sync)
  let s := s.each (s.loct.filter (fun e => e.2.on l)) (fun s e => s.giveBack l e.2.frame e.2.sync)
  let hit := (s.waiters.filter (fun w => (s.loc (w.word / 65536)).on l))
  let gone := s.pairs.filter (fun x => x.1 / 2 ^ 26 == l)
  let s : State := { s with
    pairs := s.pairs.filter (fun x => x.1 / 2 ^ 26 != l)
    roomOwed := s.roomOwed + gone.length
    migs := s.migs.filter (fun m => (s.loc m.dpn).loc != l)
    loct := s.loct.map (fun e =>
      if e.2.on l then (e.1, { e.2 with state := .lost, season := .spring, frame := 0 }) else e) }
  s.feFail f (statusOf f) (stepCode f) (fun w => hit.contains w)

/-- R425: a site enters FAILED; a MID's last site in service is a fatal stop. -/
def State.siteFail (s : State) (i : Nat) : State :=
  if !s.locUp i then s.setFld .MEM_SITE_STATUS_state i siteFailed
  else
    let n := s.dirtyCount i
    let s := (s.bumpEpoch (unitSite i)).satFld .RAS_UNIT_dirty_lost (unitSite i) n
    let s := (s.loseLocation i .ecc).setFlds i [(.MEM_SITE_STATUS_state, siteFailed), (.MEM_SITE_STATUS_dump_region, 0)]
    let busy := s.evac.any (fun u => match u with | .site x => x.val == i | .port _ => false)
    let s : State := { s with
      evac := s.evac.filter (fun u => match u with | .site x => x.val != i | .port _ => true)
      slices := s.slices.map (fun e =>
        (e.1, (if e.2.1 = some i then none else e.2.1, if e.2.2 = some i then none else e.2.2))) }
    let s := if busy then s.setFld .RAS_PRESET_STATUS_busy 0 0 else s
    let k := i / 3
    if (List.range 3).any (fun j => s.locUp (3 * k + j)) then s else s.fatalStop 0x0204 (24 + k)

/-- R229: a far-tier port fails. -/
def State.portFail (s : State) (p : Nat) : State :=
  let st := s.fld .FTP_STATUS_state p
  if st = ftpFailed ∨ st = 0 ∨ st = ftpOffline then s
  else
    let n := s.dirtyCount (12 + p)
    let s := (s.setFlds p [(.FTP_STATUS_state, ftpFailed), (.FTP_STATUS_lanes, 0), (.FTP_STATUS_flit256, 0),
      (.FTP_STATUS_gts, 0)]).bumpEpoch (unitFar p)
    let s := (s.satFld .FTP_ERR_failures p 1).satFld .FTP_ERR_dirty_lost p n
    let s := s.loseLocation (12 + p) .farTier
    let busy := s.evac.any (fun u => match u with | .port x => x.val == p | .site _ => false)
    let s : State := { s with
      evac := s.evac.filter (fun u => match u with | .port x => x.val != p | .site _ => true)
      ftTimes := mapClear s.ftTimes (8 * p) (8 * p + 8)
      ftBad := s.ftBad.filter (fun x => !(x == p || (decide (4 + 8 * p ≤ x) && decide (x < 12 + 8 * p)))) }
    let s := if busy then s.setFld .RAS_PRESET_STATUS_busy 0 0 else s
    (s.setFld .FTP_CTL_offline_req p 0).setFld .FTP_CTL_online_req p 0

/-- R221: the retraining of the channel of a site address after its last attempt failed: where it fails, the channel is
out and the site enters FAILED. -/
def State.chanRetrain (s : State) (i addr : Nat) (ok : Bool) : State :=
  let s := s.satFld .MEM_SITE_ERR_retrains i 1
  if ok then s
  else (s.setFld .MEM_SITE_STATUS_chan_ok i (s.fld .MEM_SITE_STATUS_chan_ok i &&& (15 - 2 ^ (locate addr).ch))).siteFail i

/-- R221 to R223: what the controller of a site reports for one access at a site address under a limit of CRC retries;
whether it is answered as uncorrectable. A write that fails is made once more after its retraining. -/
def State.siteRead (s : State) (i addr : Nat) (patrol : Bool) (lim : Nat) (r : ReadOutcome) : State × Bool :=
  let bad := fun (s : State) (crc : Nat) =>
    (s.satFld .MEM_SITE_ERR_uncorrectable i 1).setFlds i [(.MEM_SITE_ERR_ADDR_addr, addr),
      (.MEM_SITE_ERR_ADDR_crc, crc), (.MEM_SITE_ERR_ADDR_patrol, b2n patrol), (.MEM_SITE_ERR_ADDR_valid, 1)]
  match r with
  | .clean => (s, false)
  | .corrected => (s.satFld .MEM_SITE_ERR_ecc_corrected i 1, false)
  | .uncorrectable => (bad s 0, true)
  | .crcRetried n => (s.satFld .MEM_SITE_ERR_crc_retries i (min n lim), false)
  | .crcExhausted ok => ((bad (s.satFld .MEM_SITE_ERR_crc_retries i lim) 1).chanRetrain i addr ok, true)
  | .writeRetried n => (s.satFld .MEM_SITE_ERR_crc_retries i (min n lim), false)
  | .writeExhausted ok => ((s.satFld .MEM_SITE_ERR_crc_retries i lim).chanRetrain i addr ok, false)
  | .at _ r => s.siteRead i addr patrol lim r

/-- Whether a report is an uncorrectable read. -/
def readFails : ReadOutcome → Bool
  | .uncorrectable => true
  | .crcExhausted _ => true
  | .at _ r => readFails r
  | _ => false

/-- The line of a run, by number from its first, that a report is about, and the report. -/
def readPlace : ReadOutcome → Nat × ReadOutcome
  | .at k r => (k, r)
  | r => (0, r)

/-- One read of a device address at its location, under the limit of CRC retries it was issued with (R233). A far-tier
port counts nothing of its own here; R228: an access that its expander could not serve is answered as uncorrectable. -/
def State.readAt (s : State) (d : Nat) (r : ReadOutcome) (lim : Nat := s.fld .CFG_MEMORY_crc_retry_limit 0) : State × Bool :=
  match s.phys d with
  | none => (s, false)
  | some k =>
    let l := k / 2 ^ 42
    if l < 12 then ({ s with badLines := s.badLines.erase (k / 128) } : State).siteRead l (k % 2 ^ 42) false lim r
    else
      match s.ftHit (l - 12) (k % 2 ^ 42 / 65536) with
      | some x => ({ s with ftBad := s.ftBad.erase x }, true)
      | none => (s, readFails r)

/-- One read of a target. -/
def State.readTarget (s : State) (t : Target) (r : ReadOutcome) (lim : Nat := s.fld .CFG_MEMORY_crc_retry_limit 0) :
    State × Bool :=
  match t with
  | .dev d => s.readAt d r lim
  | _ => (s, false)

end Sys2Proof.Machine
end

