-- ==== Sys2Proof/Machine/Cxl.lean ====
section
/-!
DEFINITION. The host's CXL.cache and CXL.mem traffic (R331 to R335), the HDM decoder (R324, R333), and the unmasking of
interrupt vectors (R336).
-/

namespace Sys2Proof.Machine

/-- What the kinds of `Response` stand for: 1 to 3 a snoop answered for a line held, 4 for a line not held, 5 a CXL.mem
read. -/
def rspSnpData : Nat := 1
def rspSnpInv : Nat := 2
def rspSnpCur : Nat := 3
def rspMiss : Nat := 4
def rspMemData : Nat := 5

/-- An answer given on the host link. -/
def State.respond (s : State) (kind addr : Nat) (data : List Byte) : State :=
  { s with hif := { s.hif with resp := some ⟨kind, addr, data⟩ } }

/-- Every cell's waiting barriers, streams and checks looked at again after something was released. -/
def State.pollAll (s : State) : State := s.each s.cells (fun s e => s.streamPoll planOf e.1)

/-! ### Snoops (R332) -/

/-- Whether the home shared-cache die holds a host line. -/
def State.hostHeld (s : State) (a : Nat) : Bool :=
  ((s.scd (homeOf a)).wayOf (a / 128 % 98304) 16 (Target.host a).line).isSome

/-- The dirty mark of a held host line removed. -/
def State.hostClean (s : State) (a : Nat) : State :=
  let j := homeOf a
  s.setScd j { s.scd j with lines := (s.scd j).lines.map (fun e =>
    if e.2.addr = (Target.host a).line then (e.1, { e.2 with dirty := [] }) else e) }

/-- SNPDATA (R332): the line is written back and kept shared; the answer carries it. -/
def execSnpdata (line : Nat) (s : State) : Out :=
  let a := line * 128
  .next (
    if !s.hostUp then s
    else if s.hostHeld a then ((s.hostLineBack a).hostClean a).respond rspSnpData a (s.hostBytes a 128)
    else s.respond rspMiss a [])

/-- SNPINV (R332): the line is given up; the host, about to write it, takes the reservations on it (R160). -/
def execSnpinv (line : Nat) (s : State) : Out :=
  let a := line * 128
  .next (
    if !s.hostUp then s
    else
      let s' := s.cancelResv (.host a) 128 none
      if s.hostHeld a then ((s'.hostLineBack a).scdDrop (.host a) false).respond rspSnpInv a (s.hostBytes a 128)
      else s'.respond rspMiss a [])

/-- SNPCUR (R332): the line's present value; nothing changes hands. -/
def execSnpcur (line : Nat) (s : State) : Out :=
  let a := line * 128
  .next (
    if !s.hostUp then s
    else if s.hostHeld a then s.respond rspSnpCur a (s.hostBytes a 128)
    else s.respond rspMiss a [])

/-- R332: every dirty host line written back, every host line invalidated. -/
def State.hostFlush (s : State) : State :=
  let s : State := { s with hostMem := s.hostDirty.foldl (fun m e => mapSet 0 m e.1 e.2) s.hostMem, hostDirty := [] }
  s.each s.scds (fun s e => s.setScd e.1 { e.2 with lines := e.2.lines.filter (fun x => decide (x.2.addr < 2 ^ 45)) })

/-- R332: the host lines written back and invalidated, and the cache reported invalid. -/
def State.hostInval (s : State) : State :=
  let t := s.hostFlush
  { t with hif := { t.hif with inval := true } }

/-- CACHE_WRITEBACK_AND_INVALIDATE (R332). -/
def execCacheWritebackAndInvalidate (s : State) : Out := .next (if !s.hostUp then s else s.hostInval)

/-! ### Back-invalidation (R335) -/

/-- BIRSP (R335): the host's answer to an outstanding BISnpInv or BISnpData: a line it held exclusive comes with its
dirty data, which is written as a host write; the line leaves the filter, or stays shared after BISnpData. -/
def execBirsp (line : Nat) (dirty : Option (BitVec 1024)) (s : State) : Out :=
  .next (
    match s.hif.snoops.filter (fun f => f.line == line) with
    | [] => s
    | sn =>
      let inv := sn.any (fun f => f.excl)
      let d := line * 128
      let excl := s.hif.filter.any (fun f => f.line == line && f.excl)
      let wr : Option State :=
        match dirty with
        | some v =>
          if excl && s.pageAns (d / 65536) == .ok then s.homeWrite none (.dev d) (natLe 128 v.toNat) none else some s
        | none => some s
      match wr with
      | none => s
      | some s =>
        let fl := if inv then s.hif.filter.filter (fun f => f.line != line)
          else s.hif.filter.map (fun f => if f.line = line then { f with excl := false } else f)
        ({ s with hif := { s.hif with filter := fl, snoops := s.hif.snoops.filter (fun f => f.line != line) } }).areaAll.pollAll)

/-! ### The HDM window -/

/-- R333: the device address behind a host physical address in the committed window. -/
def State.hdmAddr (s : State) (h : Nat) : Option Nat :=
  match s.hif.decoder with
  | some (b, n) =>
    if s.hostUp && decide (b ≤ h) && decide (h < b + n) then some (s.fld .CFG_HOST_hdm_dpn_base 0 * 65536 + (h - b)) else none
  | none => none

/-- R334: an access answered under the last row: recorded, reported by AER and the event vector. -/
def State.hdmError (s : State) (h : Nat) (write lost : Bool) : State :=
  let s := (s.satFld .HIF_HDM_COUNT_errors 0 1).setFlds 0 [(.HIF_HDM_ERR_hpa, h), (.HIF_HDM_ERR_write, b2n write),
    (.HIF_HDM_ERR_lost, b2n lost), (.HIF_HDM_ERR_valid, 1)]
  ({ s with hif := { s.hif with aer := s.hif.aer + 1 } }).event

/-- R335: a host read recorded in the filter of its home; the oldest entry of a full filter that is not called back
already is called back. -/
def State.filterAdd (s : State) (d : Nat) (excl : Bool) : State :=
  let line := d / 128
  match s.hif.filter.find? (fun f => f.line == line) with
  | some f =>
    let put := fun (x : FilterEnt) => if x.line = line then { x with excl := f.excl || excl } else x
    { s with hif := { s.hif with filter := s.hif.filter.map put } }
  | none =>
    let mine := s.hif.filter.filter (fun f =>
      homeOf (f.line * 128) == homeOf d && !s.hif.snoops.any (fun x => x.line == f.line && x.excl))
    let s := if mine.length ≥ 1048576 then (match mine with | f :: _ => s.biSnoop (.dev (f.line * 128)) true | [] => s) else s
    { s with hif := { s.hif with filter := s.hif.filter ++ [⟨line, excl⟩] } }

/-- Whether a shared cache holds the line of a target. -/
def State.scdHas (s : State) (t : Target) : Bool :=
  ((s.scd (homeOf t.addr)).wayOf (t.addr / 128 % 98304) 16 t.line).isSome

/-- All bytes 0xFF (R334). -/
def onesBytes (n : Nat) : List Byte := List.replicate n 0xFF

/-- MEMRD (R333 to R335, R431): a host read of 64 bytes through the HDM window. -/
def execMemrd (hpa : Nat) (excl : Bool) (a : ReadOutcome) (s : State) : Out :=
  let h := hpa / 64 * 64
  .next (
    match s.hdmAddr h with
    | none => s
    | some d =>
      if !s.serves then (s.hdmError h false false).respond rspMemData h (onesBytes 64)
      else
        match s.pageAns (d / 65536) with
        | .unalloc =>
          ((s.satFld .HIF_HDM_COUNT_unmapped 0 1).filterAdd d excl).respond rspMemData h (List.replicate 64 0)
        | .ok =>
          let r := if s.scdHas (.dev d) then (s, false) else s.readAt d a
          if r.2 then (r.1.hdmError h false false).respond rspMemData h (onesBytes 64)
          else ((r.1.homeTouch none (.dev d)).filterAdd d excl).respond rspMemData h (r.1.devBytes d 64)
        | _ => (s.hdmError h false true).respond rspMemData h (onesBytes 64))

/-- MEMWR (R333, R334, R431): a host write within one 64-byte line. -/
def execMemwr (hpa : Nat) (data : List Byte) (s : State) : Out :=
  let bs := data.take (64 - hpa % 64)
  .next (
    match s.hdmAddr hpa with
    | none => s
    | some d =>
      if bs.isEmpty then s
      else if !s.serves then s.hdmError hpa true false
      else
        match s.pageAns (d / 65536) with
        | .unalloc => s.satFld .HIF_HDM_COUNT_unmapped 0 1
        | .ok => (match s.homeWrite none (.dev d) bs none with | some s => s | none => s)
        | _ => s.hdmError hpa true true)

/-- HDM_DECODER_COMMIT (R324, R333): decoder 0 takes a base aligned to its size, one interleave way and a size within the
window; else Error Not Committed is set. -/
def execHdmDecoderCommit (base size ways : Nat) (s : State) : Out :=
  .next (
    if !s.hif.linkUp || s.hif.crs || s.hif.decoder.isSome then s
    else
      let win := s.fld .CFG_HOST_hdm_size_gib 0 * 2 ^ 30
      if size > 0 ∧ size ≤ win ∧ base % size = 0 ∧ ways = 1 then
        ({ s with hif := { s.hif with decoder := some (base, size), notComm := false } }).setFld .HIF_LINK_STATUS_mem_en 0 1
      else { s with hif := { s.hif with notComm := true } })

/-! ### MSI-X -/

/-- R336: a vector unmasked sends its pending message. -/
def State.unmask (s : State) (v : Nat) : State :=
  let m := s.vec v
  let m' : Msix :=
    if m.pending && !s.hif.d3hot && s.hif.msixEn && !s.hif.msixMask then
      { m with masked := false, pending := false, sent := m.sent + 1 }
    else { m with masked := false }
  { s with msix := mapSet Msix.init s.msix v m' }

/-- R336: the pending messages of unmasked vectors sent, once the function masks them no longer. -/
def State.msixFlush (s : State) : State :=
  s.each (s.msix.filter (fun e => e.2.pending && !e.2.masked)) (fun s e => s.unmask e.1)

/-- MSIX_UNMASK (R336). -/
def execMsixUnmask (v : Nat) (s : State) : Out :=
  .next (if v < 2048 ∧ !s.hif.d3hot then s.unmask v else s)

end Sys2Proof.Machine
end

