-- ==== Sys2Proof/Machine/Place.lean ====
section
/-! DEFINITION. The Placement Engine at work (R245 to R253): the scan, migrations, zeroing, evacuations; and the events
of the memory sites and far-tier ports (R219 to R230, R382). -/

namespace Sys2Proof.Machine

/-! ### The scan -/

/-- R247: the season after a scan. -/
def State.transition (s : State) (x : Season) (h dwell : Nat) : Season :=
  let warm := s.fld .PLE_SEASON_warm_thr 0
  let cool := s.fld .PLE_SEASON_cool_thr 0
  let min_ := s.fld .PLE_SEASON_min_dwell 0
  match x with
  | .winter => if h ≥ warm ∧ dwell ≥ min_ then .spring else .winter
  | .spring => if h < cool then .winter else .spring
  | .summer => if h < cool ∧ dwell ≥ min_ then .autumn else .summer
  | .autumn => if h ≥ warm then .summer else .autumn

/-- R246: the scan of an entry. -/
def State.scanEnt (s : State) (e : LocEnt) : LocEnt :=
  let h := e.heat
  let h := if e.hint = 1 then max h (s.fld .PLE_SEASON_warm_thr 0) else h
  let h := if e.hint = 2 then min h (s.fld .PLE_SEASON_cool_thr 0 - 1) else h
  let new := if e.pin = 0 ∧ e.state = .resident then s.transition e.season h e.dwell else e.season
  let dwell := if new = e.season then e.dwell else 0
  { e with
    season := new
    heat := e.heat - ceilDiv e.heat (2 ^ s.fld .PLE_SEASON_decay_shift 0)
    dwell := min (dwell + 1) 255 }

/-- Whether a page is one for the promotion queue: a Spring page that no pin holds. -/
def LocEnt.risen (e : LocEnt) : Bool := e.state == .resident && e.season == .spring && e.pin == 0

/-- A list of pages put in order of falling heat, ascending DPN at equal heat, by insertion of one. -/
def State.heatInsert (s : State) (d : Nat) : List Nat → List Nat
  | [] => [d]
  | x :: t =>
    let hd := (s.loc d).heat
    let hx := (s.loc x).heat
    if hd > hx ∨ (hd = hx ∧ d < x) then d :: x :: t else x :: s.heatInsert d t

/-- R247, R248: a scanned page joins its MID's promotion queue or leaves it: the queue holds the 1,024 hottest Spring
pages that scans have met; the others wait for a later scan. -/
def State.promoScan (s : State) (dpn : Nat) : State :=
  let k := dpn % 4
  let q := (mapGet [] s.promo k).filter (fun d => d != dpn && (s.loc d).risen)
  let q := q.foldr (fun d l => s.heatInsert d l) []
  { s with promo := mapSet [] s.promo k (if (s.loc dpn).risen then (s.heatInsert dpn q).take 1024 else q) }

/-- HEAT_SCAN (R246): the scan reaches a DPN's entry; a page passed over after an abandoned migration counts a scan. -/
def execHeatScan (dpn : Nat) (s : State) : Out :=
  let e := s.loc dpn
  .next (
    if !s.ready then s
    else if e.state = .resident ∨ e.state = .migrating then
      let s : State := { s with skip := mapSet 0 s.skip dpn (mapGet 0 s.skip dpn - 1) }
      (s.setLoc dpn (s.scanEnt e)).promoScan dpn
    else s)

/-! ### Migrations -/

/-- A range of a map copied to another place. -/
def mapMove {α : Type} (m : NMap α) (src dst n : Nat) : NMap α :=
  (mapRange m src (src + n)).foldl (fun a e => mapIns a (e.1 - src + dst) e.2) (mapClear m dst (dst + n))

/-- R251: one line of a page copied between frames (location × 2^26 + frame): data, check shadow, sync shadow. -/
def State.copyLine (s : State) (fs fd line : Nat) : State :=
  if line < 512 then { s with mem := mapMove s.mem (fs * 65536 + 128 * line) (fd * 65536 + 128 * line) 128 }
  else if line = 512 then { s with check := mapMove s.check (16 * fs) (16 * fd) 16 }
  else { s with full := mapMove s.full (8192 * fs + 1024 * (line - 513)) (8192 * fd + 1024 * (line - 513)) 1024 }

/-- A whole page copied between frames. -/
def State.copyPage (s : State) (fs fd : Nat) : State :=
  { s with
    mem := mapMove s.mem (fs * 65536) (fd * 65536) 65536
    check := mapMove s.check (16 * fs) (16 * fd) 16
    full := mapMove s.full (8192 * fs) (8192 * fd) 8192 }

/-- The lines of a page (R251): 512 data lines, the check-shadow line, for a sync page 8 sync-shadow lines. -/
def LocEnt.lineCount (e : LocEnt) : Nat := if e.sync then 521 else 513

/-- R251 step 1 and the copying of pass 1: a migration of a page to a frame; `room` where it uses a headroom frame. -/
def State.startMig (s : State) (dpn loc frame : Nat) (kind : MigKind) (pair : Option Nat) (room : Bool := false) : State :=
  let e := s.loc dpn
  let s := s.copyPage (e.loc * 2 ^ 26 + e.frame) (loc * 2 ^ 26 + frame)
  let s := s.addFld .PLE_MIG_STAT_bytes 0 (128 * e.lineCount)
  let m : Migration := ⟨dpn, loc, frame, [], 1, kind, pair, s.now, room⟩
  let s : State := { s with migs := s.migs ++ [m] }
  s.setLoc dpn { e with state := .migrating }

/-- Whether a page may be chosen for a migration. -/
def State.movable (s : State) (dpn : Nat) : Bool :=
  (s.loc dpn).state == .resident && mapGet 0 s.skip dpn == 0

/-- R224: migration traffic to a location stops at Severe Overload. -/
def State.locPaced (s : State) (l : Nat) : Bool := decide (l ≥ 12) && mapGet .light s.devLoad (l - 12) == .severe

/-- R255: whether a page is where its pin requires, or where an evacuation took it from there. -/
def State.inPlace (s : State) (dpn : Nat) (e : LocEnt) : Bool :=
  match e.pin with
  | 1 => decide (e.loc < 12) || mapFind s.want dpn == some e.loc
  | 2 => decide (e.loc ≥ 12) || mapFind s.want dpn == some e.loc
  | 3 => e.loc == s.wanted dpn e
  | _ => true

/-- The location of an evacuated unit. -/
def evacLoc : EvacUnit → Nat
  | .site i => i.val
  | .port p => 12 + p.val

/-- R230, R426: where a page leaves an evacuated unit for: close memory or an ONLINE port; a page pinned to the far tier
prefers a port. -/
def State.evacDest (s : State) (dpn : Nat) (e : LocEnt) : Option Nat :=
  if e.pin = 2 then (match s.farDest e.sync with | some l => some l | none => s.placeFree dpn e.sync)
  else s.placeFree dpn e.sync

/-- R243, R248: the low and high marks in frames. -/
def State.lowMark (s : State) : Nat := s.allocClose * s.fld .PLE_WATER_low_water_pm 0 / 1000
def State.highMark (s : State) : Nat := s.allocClose * s.fld .PLE_WATER_high_water_pm 0 / 1000

/-- The pages of a slice in a season, that may be chosen, outside pins. -/
def State.inSeason (s : State) (k : Nat) (x : Season) : List (Nat × LocEnt) :=
  s.loct.filter (fun e => e.1 % 4 == k && e.2.season == x && s.movable e.1 && e.2.pin == 0)

/-- R248: the coldest Autumn page of a slice. -/
def State.coldest (s : State) (k : Nat) : Option (Nat × LocEnt) := minBy (fun e => e.2.heat) (s.inSeason k .autumn)

/-- R248: the head of a MID's promotion queue: its hottest page that may be chosen, the lowest DPN at equal heat. -/
def State.hottest (s : State) (k : Nat) : Option (Nat × LocEnt) :=
  minBy (fun e => 2 ^ 36 * (255 - e.2.heat) + e.1)
    (((mapGet [] s.promo k).filter (fun d => (s.loc d).risen && s.movable d)).map (fun d => (d, s.loc d)))

/-- What a slice MID moves next: page, location, kind, paired demotion. -/
abbrev Move := Option (Nat × Nat × MigKind × Option Nat)

/-- R230, R426: the next page of a slice to leave an evacuated unit. -/
def State.nextEvac (s : State) (k : Nat) : Move :=
  s.loct.findSome? (fun e =>
    if e.1 % 4 == k && s.movable e.1 && s.evac.any (fun u => evacLoc u == e.2.loc) then
      (s.evacDest e.1 e.2).map (fun l => (e.1, l, .evac, none))
    else none)

/-- R255: the next page of a slice to go where its pin requires. -/
def State.nextPin (s : State) (k : Nat) : Move :=
  s.loct.findSome? (fun e =>
    if e.1 % 4 == k && s.movable e.1 && !s.inPlace e.1 e.2 then
      (s.pinDest e.1 e.2.pin (s.wanted e.1 e.2) e.2.sync).map (fun l => (e.1, l, .pin, none))
    else none)

/-- R248, R249: the next seasonal demotion of a slice: below the low mark, or one that gives a headroom frame back. A
demotion whose destinations are full waits. -/
def State.nextDemotion (s : State) (k : Nat) : Move :=
  if (s.demoting || decide (s.roomOwed > 0)) && s.farSpare then
    match s.coldest k with
    | some e => (s.farDest e.2.sync).map (fun l => (e.1, l, .demotion, none))
    | none => none
  else none

/-- R248, R249: whether some Autumn page can be demoted: an uncommitted far frame is free for it. -/
def State.canDemote (s : State) : Bool :=
  s.farSpare && (List.range 4).any (fun k =>
    match s.coldest k with | some e => (s.farDest e.2.sync).isSome | none => false)

/-- R248, R249: the next seasonal promotion of a slice: above the low mark into a free close frame, else into headroom,
paired with the demotion of a colder Autumn page; none while headroom is in use and no demotion is possible. -/
def State.nextPromotion (s : State) (k : Nat) : Move :=
  match s.hottest k with
  | none => none
  | some e =>
    match s.closeDest e.1 e.2.sync with
    | none => none
    | some l =>
      if s.headroomUsed > 0 ∧ !s.canDemote then none
      else if s.freeClose > s.lowMark then some (e.1, l, .promotion, none)
      else if s.headroomFree = 0 then none
      else
        match s.coldest k with
        | some a => if a.2.heat < e.2.heat then some (e.1, l, .promotion, some a.1) else none
        | none => none

/-- Whether seasonal migration runs: enabled, with an ONLINE far-tier port (R248, R252). -/
def State.seasonal (s : State) : Bool :=
  s.flag .PLE_CTL_migrate_en 0 && (List.range 4).any (fun p => s.fld .FTP_STATUS_state p == ftpOnline)

/-- The first of several moves. -/
def firstMove : List Move → Move
  | [] => none
  | some x :: _ => some x
  | none :: t => firstMove t

/-- R248: the hysteresis of demotions: they end at the high mark or when no Autumn page remains. -/
def State.waterMark (s : State) : State :=
  { s with demoting :=
      if s.freeClose ≥ s.highMark ∨ !s.loct.any (fun e => e.2.season == .autumn && e.2.pin == 0) then false
      else if s.freeClose < s.lowMark then true
      else s.demoting }

/-- R249: a migration that was chosen begins: a paired promotion takes a headroom frame, and a demotion that is owed for
one gives it back when it completes. -/
def State.beginMove (s : State) (dpn l f : Nat) (kind : MigKind) (pair : Option Nat) : State :=
  let owes := kind == .demotion && decide (s.roomOwed > 0)
  (if owes then { s with roomOwed := s.roomOwed - 1 } else s).startMig dpn l f kind pair (pair.isSome || owes)

/-- MIGRATION_START (R248 to R252): the slice MID starts its next migration; evacuations go first, then pins, demotions
and promotions (log entry 23). -/
def execMigrationStart (mid : Fin 4) (s : State) : Out :=
  let k := mid.val
  .next (
    if !s.ready || decide ((s.migs.filter (fun m => m.dpn % 4 == k)).length ≥ 16) then s
    else
      let s := s.waterMark
      let seas := if s.seasonal then [s.nextDemotion k, s.nextPromotion k] else []
      match firstMove ([s.nextEvac k, s.nextPin k] ++ seas) with
      | none => s
      | some (dpn, l, kind, pair) =>
        if s.locPaced l || s.locPaced (s.loc dpn).loc then s
        else
          match s.lowestFrame l (s.loc dpn).sync with
          | some f => s.beginMove dpn l f kind pair
          | none => s)

/-! ### Pins and their packets -/

/-- The pages that a PLACE_PIN packet names (R276). -/
def Pkt.pinPages (p : Pkt) : List Nat := (List.range (p.b 12 4)).map (fun i => p.b 8 4 % 2 ^ 28 + i)

/-- R255: a PLACE_PIN completes once every page is in place, and fails when a page that is not has no room. -/
def State.pinPkt (s : State) (p : Pkt) : State :=
  let out := (s.loct.filter (fun e => decide (p.b 8 4 % 2 ^ 28 ≤ e.1) && decide (e.1 < p.b 8 4 % 2 ^ 28 + p.b 12 4)
    && (e.2.state == .migrating || (e.2.state == .resident && !s.inPlace e.1 e.2))))
  let s' : State := { s with pinWait := s.pinWait.filter (fun x => x != (p.q, p.seq)) }
  if out.isEmpty then s'.endPkt p 0
  else if out.any (fun e => e.2.state == .resident && (s.pinDest e.1 e.2.pin (s.wanted e.1 e.2) e.2.sync).isNone) then
    s'.endPkt p fcPinNoRoom
  else s

/-- Every waiting PLACE_PIN looked at again. -/
def State.pinCheck (s : State) : State :=
  s.each s.pinWait (fun s x =>
    match s.pkt x.1 x.2 with
    | some p => s.pinPkt p
    | none => { s with pinWait := s.pinWait.filter (fun y => y != x) })

/-! ### The end of a pass -/

/-- R247, R251: the season of a page that arrives at a location by a seasonal move; another move leaves it, and so does
a pin, which has fixed it. -/
def arrivedPage (kind : MigKind) (e : LocEnt) : LocEnt :=
  if e.pin ≠ 0 then e
  else
    match kind with
    | .promotion => { e with season := .summer, dwell := 0 }
    | .demotion => { e with season := .winter, dwell := 0 }
    | _ => e

/-- R251: the length of a hold in ns. It is open within its bound, and by how much it is longer where more than 16 lines
are still dirty (log entry 2). -/
def State.holdNs (s : State) (m : Migration) (src : Nat) : Nat :=
  let b := if src < 12 then 2000 else 4000
  if m.dirty.length > 16 then b + 1 + s.freeAt 0 else s.freeAt 0 % (b + 1)

/-- R248, R252: whether the demotion paired with a promotion may begin, into the frame that the promotion left: its slot
must be free for a sync page. -/
def State.pairReady (s : State) (a l f : Nat) : Bool :=
  s.ready && s.seasonal && s.movable a && (s.loc a).season == .autumn && (s.loc a).pin == 0 && s.locTakes l
    && (!(s.loc a).sync || !(s.usedSlots l).contains (s.syncSlot l f))

/-- R248: the frame that a promotion into headroom left has been cleared: the demotion paired with the promotion begins
into it; where it cannot, the headroom frame is owed. -/
def State.pairStart (s : State) (k : Nat) : State :=
  match s.pairs.find? (fun x => x.1 == k) with
  | none => s
  | some (_, a) =>
    let s : State := { s with pairs := s.pairs.filter (fun x => x.1 != k) }
    if s.pairReady a (k / 2 ^ 26) (k % 2 ^ 26) then
      s.startMig a (k / 2 ^ 26) (k % 2 ^ 26) .demotion none true
    else { s with roomOwed := s.roomOwed + 1 }

/-- R251 steps 5 to 7: the last lines copied, the entry written, waiters moved, the source frame released for zeroing;
after it the demotion paired with a promotion takes it (R242, R248). -/
def State.remap (s : State) (m : Migration) : State :=
  let e := s.loc m.dpn
  let src := e.loc * 2 ^ 26 + e.frame
  let s := s.each m.dirty (fun s line => s.copyLine src (m.loc * 2 ^ 26 + m.frame) line)
  let hold := s.holdNs m e.loc
  let s := (s.drew 1).setFld .PLE_MIG_STAT_hold_max_ns 0
    (min (max hold (s.fld .PLE_MIG_STAT_hold_max_ns 0)) (2 ^ Fld.PLE_MIG_STAT_hold_max_ns.desc.width - 1))
  let s : State := { s with migs := s.migs.filter (fun x => x.dpn != m.dpn) }
  let s := s.setLoc m.dpn { arrivedPage m.kind e with state := .resident, loc := m.loc, frame := m.frame }
  let s : State := { s with waiters := s.waiters.map (fun w =>
      if w.word / 65536 = m.dpn then { w with die := s.feDie w.word } else w) }
  let s :=
    if e.loc ≥ 12 ∧ m.loc < 12 then s.addFld .PLE_MIG_STAT_promotions 0 1
    else if m.loc ≥ 12 then s.addFld .PLE_MIG_STAT_demotions 0 1
    else s
  let s := s.giveBack e.loc e.frame e.sync
  let s : State := match m.pair with
    | some a => { s with pairs := s.pairs ++ [(src, a)] }
    | none => s
  let s : State := if m.kind == .evac && e.pin != 0 && s.inPlace m.dpn e then { s with want := mapIns s.want m.dpn m.loc } else s
  s.pinCheck

/-- R222: what the memory of a page's location reports for one line of it, 0 to 511 data, then the shadows. -/
def State.lineRead (s : State) (dpn : Nat) (a : ReadOutcome) : State × Bool :=
  let e := s.loc dpn
  let x := readPlace a
  if e.loc < 12 then
    s.siteRead e.loc (siteLine e.frame (s.syncSlot e.loc e.frame) x.1) false (s.fld .CFG_MEMORY_crc_retry_limit 0) x.2
  else s.readAt (dpn * 65536) x.2

/-- MIGRATION_PASS_END (R251, R253): a pass over a migrating page ends: an uncorrectable source read abandons it; with 16
or fewer lines dirty, or after four passes, the final step follows, else another pass. -/
def execMigrationPassEnd (dpn : Nat) (a : ReadOutcome) (s : State) : Out :=
  .next (
    match s.migs.find? (fun (m : Migration) => m.dpn == dpn) with
    | none => s
    | some m =>
      let e := s.loc dpn
      if !s.alive || s.locPaced m.loc || s.locPaced e.loc then s
      else
        let r := s.lineRead dpn a
        if r.2 || (e.loc < 12 && s.badLines.any (fun x => x / 512 == e.loc * 2 ^ 26 + e.frame)) then
          (match r.1.migs.find? (fun (x : Migration) => x.dpn == dpn) with
            | some m => r.1.abandonMig m true
            | none => r.1).pinCheck
        else
          let s : State := r.1.addFld .PLE_MIG_STAT_bytes 0 (128 * m.dirty.length)
          if m.dirty.length ≤ 16 ∨ m.pass ≥ 4 then s.remap m
          else
            let s := s.each m.dirty (fun s line => s.copyLine (e.loc * 2 ^ 26 + e.frame) (m.loc * 2 ^ 26 + m.frame) line)
            let next := fun (x : Migration) => if x.dpn = dpn then { x with dirty := [], pass := x.pass + 1 } else x
            { s with migs := s.migs.map next })

/-! ### Zeroing and clearing -/

/-- A frame with its shadows cleared. -/
def State.clearFrame (s : State) (k : Nat) : State :=
  { s.feForget k with
    badLines := s.badLines.filter (fun x => x / 512 != k)
    mem := mapClear s.mem (k * 65536) (k * 65536 + 65536)
    check := mapClear s.check (16 * k) (16 * k + 16)
    full := mapClear s.full (8192 * k) (8192 * k + 8192) }

/-- FRAME_ZEROED (R242): a released frame has been cleared and counts free. -/
def execFrameZeroed (loc frame : Nat) (s : State) : Out :=
  let k := loc * 2 ^ 26 + frame
  .next (
    if !s.alive || !s.unclean.contains k || frame ≥ 2 ^ 26 then s
    else
      let t : State := { s with
        unclean := s.unclean.filter (fun x => x != k), unslot := s.unslot.filter (fun x => x != k) }
      ((t.clearFrame k).addFld .PLE_MIG_STAT_bytes 0 65536).pairStart k)

/-- The frames and shadows of a location cleared. -/
def State.clearLoc (s : State) (l : Nat) : State :=
  let n := 2 ^ 26
  { s with
    mem := mapClear s.mem (l * n * 65536) ((l + 1) * n * 65536)
    check := mapClear s.check (16 * l * n) (16 * (l + 1) * n)
    full := mapClear s.full (8192 * l * n) (8192 * (l + 1) * n)
    unclean := s.unclean.filter (fun k => k / n != l)
    unslot := s.unslot.filter (fun k => k / n != l)
    feLines := s.feLines.filterMap (fun e =>
      let q := e.2.filter (fun x => x.1 / 8 / n != l)
      if q.isEmpty then none else some (e.1, q)) }

/-- FAR_TIER_CLEAR (R382): an ONLINE port has cleared its frames; they are offered to pages. -/
def execFarTierClear (p : Fin 4) (s : State) : Out :=
  .next (
    if !s.ready || s.fld .FTP_STATUS_state p.val != ftpOnline || s.farClear.contains p.val then s
    else { s.clearLoc (12 + p.val) with farClear := p.val :: s.farClear })

/-! ### Evacuation -/

/-- The pages at a location. -/
def State.pagesAt (s : State) (l : Nat) : Nat := (s.loct.filter (fun e => e.2.on l)).length

/-- Whether the action of RAS_PRESET_CTL under way names a unit. -/
def State.presetIs (s : State) (kind i : Nat) : Bool :=
  s.flag .RAS_PRESET_STATUS_busy 0 && s.fld .RAS_PRESET_CTL_kind 0 == kind && s.fld .RAS_PRESET_CTL_index 0 == i

/-- The action of RAS_PRESET_CTL on a unit ends. -/
def State.presetEnd (s : State) (kind i : Nat) (f : Fld) (v : Nat) : State :=
  if s.presetIs kind i then (s.setFld .RAS_PRESET_STATUS_busy 0 0).setFld f 0 v else s

/-- EVACUATION_COMPLETE (R230, R426): an evacuated port that holds no page goes OFFLINE, an evacuated site stays out of
placement; where a page finds no room the unit returns to use with `evac_failed`. -/
def execEvacuationComplete (u : EvacUnit) (s : State) : Out :=
  let l := evacLoc u
  let stuck := s.loct.any (fun e => e.2.on l && e.2.state == .resident && (s.evacDest e.1 e.2).isNone)
  .next (
    if !s.alive || !s.evac.contains u then s
    else
      match u with
      | .site i =>
        if s.pagesAt l = 0 then s.presetEnd 0 i.val .RAS_PRESET_STATUS_evac_failed 0
        else if stuck then
          ({ s with evac := s.evac.erase u }).presetEnd 0 i.val .RAS_PRESET_STATUS_evac_failed 1
        else s
      | .port p =>
        if s.pagesAt l = 0 ∧ !s.migs.any (fun m => m.loc == l) then
          let s : State := { s with evac := s.evac.erase u }
          ((s.bumpEpoch (unitFar p.val)).setFlds p.val [(.FTP_STATUS_state, ftpOffline), (.FTP_CTL_offline_req, 0),
            (.FTP_STATUS_evac_failed, 0), (.FTP_STATUS_lanes, 0), (.FTP_STATUS_flit256, 0),
            (.FTP_STATUS_gts, 0)]).presetEnd 1 p.val .RAS_PRESET_STATUS_evac_failed 0
        else if stuck then
          (({ s with evac := s.evac.erase u }).setFlds p.val [(.FTP_STATUS_state, ftpOnline), (.FTP_CTL_offline_req, 0),
            (.FTP_STATUS_evac_failed, 1)]).presetEnd 1 p.val .RAS_PRESET_STATUS_evac_failed 1
        else s)

/-! ### Sites -/

/-- REFRESH (R219): a bank refreshed by its controller. -/
def execRefresh (site : Fin 12) (ch : Fin 4) (die bank : Nat) (s : State) : Out :=
  let k := (site.val * 4 + ch.val) * 64 + die % 4 * 16 + bank % 16
  .next (if s.alive && s.locUp site.val then { s with refresh := mapSet 0 s.refresh k (mapGet 0 s.refresh k + 1) } else s)

/-- RETRAIN (R219, R221, R425): a die retrained; a failed retraining puts the site in FAILED. -/
def execRetrain (site : Fin 12) (ch _die : Fin 4) (ok : Bool) (s : State) : Out :=
  let i := site.val
  .next (
    if !s.alive || !s.locUp i then s
    else if ok then s
    else
      let m := s.fld .MEM_SITE_STATUS_chan_ok i
      (s.setFld .MEM_SITE_STATUS_chan_ok i (if m.testBit ch.val then m - 2 ^ ch.val else m)).siteFail i)

/-- R212, R233: the period of a pass that goes through addresses in rising order, recorded in `m` for unit `i`: one
under way keeps its own; a read at or below the last one begins a pass, with the period now set (DESIGN CHOICE, log
entry 47). -/
def passPeriod (m last : NMap Nat) (i addr new : Nat) : Nat :=
  let per := mapGet 0 m i
  if per = 0 ∨ addr ≤ mapGet 0 last i then new else per

/-- R430: a line of the location table (R238) found uncorrectable in every copy of its slice. -/
def State.tableLost (s : State) (i addr : Nat) : State :=
  let c := mapGet (none, none) s.slices (i / 3)
  let up := ([c.1, c.2].filterMap id).filter s.locUp
  if decide (siteFrame 1020928 ≤ addr) && decide (addr < siteFrame 1029120) && up.contains i
      && up.all (fun j => s.badLines.contains ((j * 2 ^ 42 + addr) / 128)) then s.fatalStop 0x0203 (24 + i / 3)
  else s

/-- PATROL (R223, R233): a patrol read of a site address by the controller of its channel; none with a period of 0. A
data line found uncorrectable is left alone, and so for the next access to find (log entry 53); a line of the location
table so found in all its copies is a fatal stop (R430). -/
def execPatrol (site : Fin 12) (addr : Nat) (a : ReadOutcome) (s : State) : Out :=
  let i := site.val
  let ch := 4 * i + (locate addr).ch
  let per := passPeriod s.patrolPer s.patrolAt ch addr (s.fld .CFG_MEMORY_patrol_period_h 0)
  .next (
    if !s.alive || !s.locUp i || addr ≥ 2 ^ 36 then s
    else
      let s : State := { s with patrolPer := mapSet 0 s.patrolPer ch per }
      if per = 0 then s
      else
        let r := ({ s with patrolAt := mapSet 0 s.patrolAt ch addr } : State).siteRead i addr true
          (s.fld .CFG_MEMORY_crc_retry_limit 0) a
        let k := (i * 2 ^ 42 + addr) / 128
        if r.2 && r.1.locUp i && decide (addr < siteFrame 1045504) && !r.1.badLines.contains k then
          ({ r.1 with badLines := r.1.badLines ++ [k] } : State).tableLost i addr
        else r.1)

/-- SCRUB (R196, R212): what the scrubber of a shared-cache die finds in a line it holds; a period of 0 scrubs nothing.
-/
def execScrub (j : Fin 2) (line : Nat) (e : ScrubFinding) (s : State) : Out :=
  let jn := j.val
  let per := passPeriod s.scrubPer s.scrubAt jn line (s.fld .RAS_SCD_STATUS_scrub_period_h jn)
  let s : State := if s.alive then { s with scrubPer := mapSet 0 s.scrubPer jn per } else s
  .next (
    match (s.scd jn).lines.find? (fun x => x.2.addr == line) with
    | none => s
    | some (key, l) =>
      if !s.alive || per == 0 then s
      else
        let s : State := { s with scrubAt := mapSet 0 s.scrubAt jn line }
        let gone := fun (s : State) => s.setScd jn { s.scd jn with lines := mapErase (s.scd jn).lines key }
        match e with
        | .clean => s
        | .correctable => s.satFld .RAS_SCD_ECC_corrected jn 1
        | .uncorrectable =>
          if l.dirty.isEmpty then (gone s).satFld .RAS_SCD_ECC_refetched jn 1 else s.fatalStop 0x0202 (28 + jn)
        | .tagParity =>
          let s := s.satFld .RAS_SCD_ECC_tag_parity jn 1
          if l.dirty.isEmpty then gone s else s.fatalStop 0x0202 (28 + jn))

/-- TEMPERATURE_READING (R219): a die's temperature; above `refresh_hot_c` its refresh interval is halved. The site shows
its highest. -/
def execTemperatureReading (site : Fin 12) (ch die : Fin 4) (t : Int) (s : State) : Out :=
  let k := site.val * 16 + ch.val * 4 + die.val
  .next (
    if !s.alive || !s.locUp site.val then s
    else
      let hot := decide (t > (s.fld .CFG_MEMORY_refresh_hot_c 0 : Int))
      let s : State := { s with
        dieTemp := mapSet 0 s.dieTemp k t
        hotDies := if hot then (if s.hotDies.contains k then s.hotDies else k :: s.hotDies) else s.hotDies.erase k }
      let top := (List.range 16).foldl (fun a i => max a (mapGet 0 s.dieTemp (site.val * 16 + i))) 0
      s.setFld .MEM_SITE_STATUS_temp_c site.val top.toNat)

/-! ### Far-tier ports -/

/-- The Type 3 devices of a port mapped in order within its window (R225), in units of 256 MiB: (mapped, base, size). -/
def mapDevs : Nat → List Expander → List (Bool × Nat × Nat)
  | _, [] => []
  | b, d :: t =>
    let n := d.capacity / 2 ^ 28
    if n = 0 ∨ b + n > 16384 then (false, 0, 0) :: mapDevs b t else (true, b, n) :: mapDevs (b + n) t

/-- R224, R225: a port trained and enumerated: its decoders, status and frames; one that did not train, or whose
link the TAP holds down (R455), keeps trying. -/
def State.enumerate (s : State) (p : Nat) (e : PortEnum) : State :=
  if !e.trained || s.linksHeld then s.setFld .FTP_STATUS_state p 1
  else
    let ds := (e.devs.filter (fun d => d.type3)).take 8
    let ms := mapDevs 0 ds
    let s := s.each (List.range 8) (fun s n =>
      match ds[n]?, ms[n]? with
      | some d, some (true, b, z) =>
        s.setFlds (8 * p + n) [(.FTP_EXP_present, 1), (.FTP_EXP_behind_switch, b2n d.behindSw), (.FTP_EXP_mld, b2n d.mld),
          (.FTP_EXP_base_256m, b), (.FTP_EXP_size_256m, z)]
      | _, _ =>
        s.setFlds (8 * p + n) [(.FTP_EXP_present, 0), (.FTP_EXP_behind_switch, 0), (.FTP_EXP_mld, 0),
          (.FTP_EXP_base_256m, 0), (.FTP_EXP_size_256m, 0)])
    let s := s.setFlds p [(.FTP_STATUS_state, ftpOnline), (.FTP_STATUS_lanes, if e.lanes ≥ 16 then 16 else 8),
      (.FTP_STATUS_flit256, b2n e.flit256), (.FTP_STATUS_gts, if e.flit256 && decide (e.gts ≥ 64) then 64 else 32),
      (.FTP_STATUS_expanders, (ms.filter (fun m => m.1)).length), (.FTP_STATUS_switch, b2n e.switch),
      (.FTP_STATUS_capacity_gib, (ms.map (fun m => m.2.2)).sum / 4), (.FTP_CTL_online_req, 0)]
    { s with
      farClear := s.farClear.erase p
      ports := mapIns s.ports p e
      devLoad := mapErase s.devLoad p }

/-- Whether a port waits to be enumerated: OFFLINE or FAILED (R230), or already begun. -/
def State.canEnumerate (s : State) (p : Nat) : Bool :=
  let st := s.fld .FTP_STATUS_state p
  st == ftpOffline || st == ftpFailed || (st == 1 && s.flag .FTP_CTL_online_req p)

/-- FAR_PORT_FAILURE (R229). -/
def execFarPortFailure (p : Fin 4) (_c : PortFailCause) (s : State) : Out :=
  .next (if s.alive then s.portFail p.val else s)

/-- R228: an access that a port (its number) or an expander (4 + 8 × port + expander) could not serve: the next one
there is answered as uncorrectable. The command does not say which access it was; log entry 48. -/
def State.portBad (s : State) (p : Nat) : State := { s with ftBad := s.ftBad ++ [p] }

/-- The lanes of cells' requests that wait at an expander of a far-tier port: cell, request, lane, when they reach the
time limit they were issued with (R233), line. -/
def State.waitsAt (s : State) (p exp : Nat) : List (Nat × Nat × Nat × Nat × Nat) :=
  s.cells.flatMap (fun c => c.2.reqs.flatMap (fun r => r.lanes.filterMap (fun l =>
    match l.st, l.tgt with
    | .todo, .dev d =>
      let e := s.loc (d / 65536)
      if e.on (12 + p) && s.expOf p e.frame == some exp && s.goesOut c.1 l then
        some (c.1, r.id, l.lane, r.start + r.cxlLim * 1000000, d / 128)
      else none
    | _, _ => none)))

/-- R228, R233: whether a migration or a step under way may be what an expander has not answered in time. -/
def State.farBusy (s : State) (p : Nat) : Bool :=
  let lim := s.fld .CFG_FAR_TIER_completion_timeout_ms 0 * 1000000
  s.migs.any (fun m => (m.loc == 12 + p || (s.loc m.dpn).loc == 12 + p) && decide (s.now ≥ m.start + lim))
    || s.pool.any (fun x => x.st == .running && decide (s.now ≥ x.start + x.cxlLim * 1000000))

/-- R228: one request that has waited to its limit, a line of one cell's request, answered as uncorrectable. -/
def State.failLate (s : State) (w : Nat × Nat × Nat × Nat × Nat) (l : List (Nat × Nat × Nat × Nat × Nat)) : State :=
  let mine := l.filter (fun x => x.1 == w.1 && x.2.1 == w.2.1 && x.2.2.2.2 == w.2.2.2.2)
  (s.setLanes w.1 w.2.1 (mine.map (fun x => x.2.2.1)) (.failed hrEcc)).settle w.1 w.2.1

/-- CXL_MEM_TIMEOUT (R228): one request to an expander unanswered for `completion_timeout_ms`; three within one second on
one expander fail the port. It is the oldest request of a cell that has waited so long there, else one of a step or of a
migration. -/
def execCxlMemTimeout (p : Fin 4) (exp : Nat) (s : State) : Out :=
  let pn := p.val
  let k := 8 * pn + exp % 8
  let ws := s.waitsAt pn (exp % 8)
  let late := ws.filter (fun w => decide (s.now ≥ w.2.2.2.1))
  .next (
    if !s.alive || !(s.fld .FTP_STATUS_state pn == ftpOnline || s.fld .FTP_STATUS_state pn == ftpEvacuating)
        || (!ws.isEmpty && late.isEmpty && !s.farBusy pn) then s
    else
      let ts := (s.now :: (mapGet [] s.ftTimes k)).filter (fun t => decide (t + 1000000000 ≥ s.now))
      let s := ({ s with ftTimes := mapSet [] s.ftTimes k ts }).satFld .FTP_ERR_timeouts pn 1
      if ts.length ≥ 3 then s.portFail pn
      else match minBy (fun w => w.2.2.2.1) late with | some w => s.failLate w late | none => s.portBad (4 + k))

/-- MEMDATA (R224, R228): a data response; poison is counted, and the access it answers is uncorrectable. -/
def execMemdata (p : Fin 4) (poison : Bool) (s : State) : Out :=
  .next (if s.alive && poison then (s.satFld .FTP_ERR_poison p.val 1).portBad p.val else s)

/-- EXPANDER_INSERTION (R230): with `hot_add` an OFFLINE or FAILED port is enumerated again. -/
def execExpanderInsertion (p : Fin 4) (e : PortEnum) (s : State) : Out :=
  .next (
    if s.alive && !s.january && !s.linksHeld && s.flag .CFG_FAR_TIER_hot_add 0 && s.canEnumerate p.val then s.enumerate p.val e else s)

/-- NDR_CMP (R224): a completion with the port's load. -/
def execNdrCmp (p : Fin 4) (load : DevLoad) (s : State) : Out :=
  .next (if s.alive then { s with devLoad := mapSet .light s.devLoad p.val load } else s)

/-- EXPANDER_EVENT_RECORD (R224, R228): an event record of an uncorrectable media error: the access it concerns is
answered uncorrectable; the port stays ONLINE. It is counted in FTP_ERR with the poison, the only field of it for media
errors (DESIGN CHOICE, log entry 48). -/
def execExpanderEventRecord (p : Fin 4) (exp : Nat) (s : State) : Out :=
  .next (if s.alive then (s.satFld .FTP_ERR_poison p.val 1).portBad (4 + 8 * p.val + exp % 8) else s)

/-- FAR_TIER_LINK_UP (R379): a port that had not reached ONLINE at start-up trains and is enumerated. -/
def execFarTierLinkUp (p : Fin 4) (e : PortEnum) (s : State) : Out :=
  .next (
    let st := s.fld .FTP_STATUS_state p.val
    if s.alive && !s.linksHeld && (st == 1 || st == 2) then s.enumerate p.val e else s)

/-- R230: an orderly removal begins. -/
def State.beginEvac (s : State) (u : EvacUnit) : State :=
  let s : State := { s with evac := if s.evac.contains u then s.evac else s.evac ++ [u] }
  match u with
  | .port p => s.setFlds p.val [(.FTP_STATUS_state, ftpEvacuating), (.FTP_CTL_offline_req, 1), (.FTP_STATUS_evac_failed, 0)]
  | .site _ => s

/-- R232: whether a write of 1 to a request bit of a port is discarded. -/
def State.ftpBusy (s : State) (p : Nat) (off : Bool) : Bool :=
  let st := s.fld .FTP_STATUS_state p
  (if off then s.flag .FTP_CTL_online_req p else s.flag .FTP_CTL_offline_req p) || st == 1 || st == 2 || st == ftpEvacuating

/-- OFFLINE_REQ (R230, R232). -/
def execOfflineReq (p : Fin 4) (s : State) : Out :=
  .next (
    if !s.ready || s.ftpBusy p.val true || s.fld .FTP_STATUS_state p.val != ftpOnline then s else s.beginEvac (.port p))

/-- ONLINE_REQ (R230, R232): an OFFLINE or FAILED port is enumerated again. -/
def execOnlineReq (p : Fin 4) (e : PortEnum) (s : State) : Out :=
  .next (if !s.ready || !s.canEnumerate p.val then s else (s.setFld .FTP_CTL_online_req p.val 1).enumerate p.val e)

end Sys2Proof.Machine
end

