-- ==== Sys2Proof/Machine/Dpn.lean ====
section
/-!
DEFINITION. Creating and releasing device pages (R241 to R244), hints and pins (R254, R255).
-/

namespace Sys2Proof.Machine

/-- The answer of a DPN_ALLOC that waits for a released frame or slot to be cleared: no fault code. -/
def allocWaits : Nat := 1

/-- R382: whether an ONLINE port counts in the capacity and has not cleared its frames yet. -/
def State.farDue (s : State) : Bool :=
  (List.range 4).any (fun p => s.fld .FTP_STATUS_state p == ftpOnline && !s.farClear.contains p)

/-- R241: pages allocated, or the code of the failure; a sync page needs its frame and slot at once, for which it waits
while released ones or a port's are being cleared; without any to wait for it has no capacity (log entry 49). -/
def State.allocPages (s : State) (d n : Nat) (sync : Bool) : State × Nat :=
  if s.loct.any (fun e => decide (d ≤ e.1) && decide (e.1 < d + n) && e.2.state != .unallocated) then (s, fcDpnState)
  else if s.committed + n > s.allocClose + s.allocFar then (s, fcNoCapacity)
  else
    let r := (List.range n).foldl (fun (r : Option State) i =>
      match r with
      | none => none
      | some s =>
        let e : LocEnt := { LocEnt.init with state := .zero, sync := sync }
        let s := s.setLoc (d + i) e
        if sync then s.place (d + i) else some s) (some s)
    match r with
    | some s => (s, 0)
    | none => (s, if s.unclean.isEmpty && !s.farDue then fcNoCapacity else allocWaits)

/-- The first line of a page range that the host may hold (R335). -/
def State.pagesHeld (s : State) (d n : Nat) : List Nat :=
  (s.hif.filter.filter (fun f => decide (d ≤ f.line / 512) && decide (f.line / 512 < d + n))).map (·.line)

/-- R335: BISnpInv for lines by number. -/
def State.snoopLines (s : State) (ls : List Nat) : State := s.each ls (fun s l => s.biSnoop (.dev (128 * l)) true)

/-- The lines of a page dropped from both shared caches without write-back. -/
def State.dropPage (s : State) (dpn : Nat) : State :=
  s.each s.scds (fun s e => s.setScd e.1 { e.2 with lines := e.2.lines.filter (fun x =>
    match lineTarget x.2.addr with
    | .dev d => d / 65536 != dpn
    | _ => true) })

/-- R241, R253: a page released. -/
def State.freePage (s : State) (dpn : Nat) : State :=
  if (s.loc dpn).state = .unallocated then s
  else
    let s := s.dropPage dpn
    let s := s.feFail .translation (statusOf .translation) fcStepTranslation (fun w => w.word / 65536 == dpn)
    let s := s.each (s.migs.filter (fun m => m.dpn == dpn)) (fun s m => s.abandonMig m false)
    let e := s.loc dpn
    let s : State := { (if e.state = .resident then s.giveBack e.loc e.frame e.sync else s) with
      skip := mapErase s.skip dpn
      want := mapErase s.want dpn }
    s.setLoc dpn LocEnt.init

/-- The pages of a range that are allocated. -/
def State.pagesIn (s : State) (d n : Nat) : List Nat :=
  (s.loct.filter (fun e => decide (d ≤ e.1) && decide (e.1 < d + n))).map (·.1)

/-- R241: every page of a range released. -/
def State.freePages (s : State) (d n : Nat) : State := (s.each (s.pagesIn d n) State.freePage).pinCheck

/-- R254: a hint set on the device page that an address leads to, if there is one with a frame; false while the host
holds a line of a table on the way (R335). -/
def State.hintPage (s : State) (asc va hint : Nat) : State × Bool :=
  match s.translate 24 asc va with
  | (.ok (l, lf), s) =>
    (match lf.at l va with
      | .dev d =>
        let e := s.loc (d / 65536)
        if e.state = .resident ∨ e.state = .migrating then s.setLoc (d / 65536) { e with hint := hint } else s
      | _ => s, true)
  | (.error (.wait _), s) => (s, false)
  | (.error _, s) => (s, true)

/-- R247: the season that a pin gives a page that has a frame: Summer for close memory, Winter for the far tier. -/
def pinSeason (e : LocEnt) (pin loc : Nat) : LocEnt :=
  let x : Season := if pin = 1 ∨ (pin = 3 ∧ loc < 12) then .summer else .winter
  if pin = 0 ∨ (e.state ≠ .resident ∧ e.state ≠ .migrating) ∨ e.season = x then e else { e with season := x, dwell := 0 }

/-- R239, R255: the pins of a range set; a ZERO page pinned to a location has it in its entry. -/
def State.setPins (s : State) (d n pin loc : Nat) : State :=
  s.each (s.pagesIn d n) (fun s k =>
    let e := s.loc k
    let s : State := { s with want := if pin = 3 then mapIns s.want k loc else mapErase s.want k }
    s.setLoc k { pinSeason e pin loc with
      pin := pin, loc := if pin = 3 ∧ e.state = .zero then loc else e.loc })

end Sys2Proof.Machine
end

