-- ==== Sys2Proof/Machine/Coll.lean ====
section
/-!
DEFINITION. The bookkeeping of collective steps: ring neighbours, digests, aborts (R365, R369 to R371).
-/

namespace Sys2Proof.Machine

/-- Member `i` of a collective group (R365). -/
def State.member (s : State) (g i : Nat) : Nat := bits (s.fld .FAB_CGRP_MEMBERS_member g) (16 * i) 16

/-- The ring neighbours of this device in a group: the next member and the previous one. -/
def State.collNext (s : State) (g : Nat) : Nat :=
  let n := s.fld .FAB_CGRP_n g
  s.member g ((s.fld .FAB_CGRP_rank g + 1) % max n 1)
def State.collPrev (s : State) (g : Nat) : Nat :=
  let n := s.fld .FAB_CGRP_n g
  s.member g ((s.fld .FAB_CGRP_rank g + n - 1) % max n 1)

/-- The header of a collective frame (R346): `coll_seq` and group. -/
def collAddr (g cseq : Nat) : DWord := BitVec.ofNat 64 (cseq % 2 ^ 32 + 2 ^ 32 * g)

/-- A collective frame sent to a member, its payload charged to the step's tag (R364). -/
def State.collSend (s : State) (tag : Option Nat) (type dst g cseq arg : Nat) (data : List Byte) : State :=
  let f := { Frame.blank with
    dst := BitVec.ofNat 16 dst, vc := type == ftCollCredit, addr := collAddr g cseq, arg := BitVec.ofNat 32 arg
    data := data }
  (s.sendOrDrop type f).fabricBytes tag dst data.length

/-- R370: COLL_ABORT to both neighbours. -/
def State.collAbortOut (s : State) (g cseq : Nat) : State :=
  let a := s.collNext g
  let b := s.collPrev g
  let s := s.collSend none ftCollAbort a g cseq 0 []
  if a = b then s else s.collSend none ftCollAbort b g cseq 0 []

/-- R370: the digest of a COLLECTIVE packet. -/
def Pkt.digest (p : Pkt) : Nat := crc32c (natLe 6 (p.b 8 6) ++ natLe 8 (p.b 32 8))

/-- The collective step of a packet. -/
def State.collOf (s : State) (q seq : Nat) : Option CollStep := s.colls.find? (fun x => x.q == q && x.seq == seq)

/-- A collective step stopped with an abort to both neighbours (R312, R370). -/
def State.collStop (s : State) (q seq : Nat) : State :=
  match s.collOf q seq with
  | none => s
  | some x =>
    let s : State := { s with colls := s.colls.filter (fun y => !(y.q == q && y.seq == seq)) }
    s.collAbortOut x.group x.cseq

/-- R371: `a` is greater than `b` by signed 32-bit difference. -/
def seqAfter (a b : Nat) : Bool := decide (sgn 32 (a + (2 ^ 32 - b % 2 ^ 32)) > 0)

end Sys2Proof.Machine
end

