-- ==== Sys2Proof/Machine/Queue.lean ====
section
/-!
DEFINITION. Completion records (R301 to R304), forced aborts (R312, R422), and the draining of queues and contexts
(R287, R302, R313).
-/

namespace Sys2Proof.Machine

/-! ### Records -/

/-- R302, R304: a record written to its history slot and then to LAST; its vector follows the acknowledgement. -/
def State.writeRecord (s : State) (d : DonePkt) : State :=
  let irq := d.irq && s.hasVec d.q
  let st := statusWord (d.code != 0) d.stopped irq false d.locked d.cap d.stale d.drain d.opcode
  let bs := recordBytes d.seq d.ns st d.code d.q d.acct d.fstep
  s.areaPut d.q [(0x800 + 32 * (d.seq % 64), bs), (0, bs)] irq

/-- The record of a queue that is due next (R302): the lowest `seq` at or below `done_seq`. -/
def State.nextRecord (s : State) (q : Nat) : Option DonePkt :=
  minBy (·.seq) (s.done.filter (fun d => d.q == q && decide (d.seq ≤ s.fld .CFE_Q_DONE_done_seq q)))

/-- The due record of a queue written. -/
def State.recordOut (s : State) (q : Nat) : State :=
  match s.nextRecord q with
  | none => s
  | some d => ({ s with done := s.done.erase d }).writeRecord d

/-- Every due record of a queue written, in order. -/
def State.recordsOut (s : State) (q : Nat) : State :=
  s.each (s.done.filter (fun d => d.q == q)) (fun s _ => s.recordOut q)

/-! ### Draining -/

/-- The code a drain ends packets with (R287, R313). -/
def Drain.code : Drain → Nat
  | .asc => fcAscDestroyed
  | _ => fcQueueReset

/-- R302: a packet ended by a drain: it completes without a record of its own, and waits for nothing any more. -/
def State.dropPkt (s : State) (p : Pkt) : State :=
  (({ s with
    pool := s.pool.filter (fun x => !(x.q == p.q && x.seq == p.seq))
    pinWait := s.pinWait.filter (fun x => x != (p.q, p.seq))
    sec := { s.sec with ends := s.sec.ends.filter (fun x => x.2 != (p.q, p.seq)) }
    drainAt := if p.st = PktSt.running ∧ p.opcode = 0x87 ∧ p.b 8 1 = 4 then mapErase s.drainAt (p.b 9 1) else s.drainAt
    }).countLaunch p).seqDone p.q p.seq

/-- R302: the drain record of a queue, written after the records still due. -/
def State.drainRecord (s : State) (q : Nat) : State :=
  let code := (s.queue q).drain.code
  (s.recordsOut q).writeRecord
    { q := q, seq := s.fld .CFE_Q_SEQ_fetched_seq q, ns := s.now, code := code, fstep := 0xFFFFFFFF
      acct := s.fld .CFE_Q_CFG_acct q, opcode := 0, record := true, irq := true, stopped := false
      locked := s.fld .TIM_STATUS_state 0 == 2, cap := false, stale := false, drain := true }

/-- A running packet that waits for a drain: QUEUE_CTL RESET or DESTROY of a queue, ASC_DESTROY of an ASC. -/
def Pkt.awaitsQueue (q : Nat) (p : Pkt) : Bool :=
  p.st == .running && p.opcode == 0x83 && (p.b 8 1 == 1 || p.b 8 1 == 5) && p.b 10 2 == q
def Pkt.awaitsAsc (a : Nat) (p : Pkt) : Bool := p.st == .running && p.opcode == 0x82 && p.b 9 1 == a

/-- The region of a REGION_CTL packet, and whether its action on a region is in progress (R277). -/
def Pkt.rgn (p : Pkt) : Nat := p.b 9 1
def Pkt.onRegion (r : Nat) (p : Pkt) : Bool := p.st == .running && p.fault == 0 && p.opcode == 0x87 && p.rgn == r

/-- Whether a packet is a POWER_DOWN of a region whose drain is under way. -/
def Pkt.powersDown (r : Nat) (p : Pkt) : Bool := p.onRegion r && p.b 8 1 == 4

/-- Whether a packet's action on a region goes on by itself: a reset that has begun, or the ramp of POWER_UP. -/
def Pkt.midAction (p : Pkt) : Bool := p.st == .running && p.fault == 0 && p.opcode == 0x87 && p.pos != 0

/-- The packets that a test picks complete without a fault. -/
def State.endAwaiting (s : State) (p : Pkt → Bool) : State :=
  s.each (s.pool.filter (fun x => p x && x.fault == 0)) (fun s x => s.endPkt x 0)

/-- A queue returned to its state after creation or DISABLED (R262, R288). -/
def State.queueOff (s : State) (q : Nat) : State :=
  ((s.setFld .CFE_Q_STATUS_state q qDisabled).setFlds q [(.CFE_Q_STATUS_doorbell_latch, 0), (.CFE_Q_STATUS_idle, 0),
    (.CFE_Q_STATUS_in_chain, 0), (.CFE_Q_CHAIN_LEFT_left, 0), (.CFE_Q_STATUS_fault_code, 0)]).setQueue q Queue.init

/-- The queues of an ASC that are not DISABLED. -/
def State.ascQueues (s : State) (a : Nat) : List Nat :=
  (List.range 4096).filter (fun q => s.qState q != qDisabled && s.fld .CFE_Q_CFG_asc q == a)

/-- R313 steps 3 to 5: an ASC's destruction ends once none of its packets is left; a RESET or DESTROY of one of its
queues that it overtook has left DRAINING with it (R287). -/
def State.ascCheck (s : State) (a : Nat) : State :=
  let qs := s.ascQueues a
  if s.fld .CFE_ASC_STATE_state a ≠ 2 ∨ s.pool.any (fun p => qs.contains p.q) then s
  else
    let s := (s.tlbInval a 0 0).each qs (fun s q => (s.drainRecord q).queueOff q)
    let s := (s.setFld .CFE_ASC_STATE_state a 0).setFlds a [(.CFE_ASC_ROOT_root, 0), (.CFE_ASC_STATE_root_valid, 0)]
    (s.each qs (fun s q => s.endAwaiting (Pkt.awaitsQueue q))).endAwaiting (Pkt.awaitsAsc a)

/-- R287: a drain ends once none of the queue's packets is left. -/
def State.drainCheck (s : State) (q : Nat) : State :=
  let x := s.queue q
  if s.qState q ≠ qDraining ∨ s.pool.any (fun p => p.q == q) then s
  else
    match x.drain with
    | .none => s
    | .asc => s.ascCheck (s.fld .CFE_Q_CFG_asc q)
    | .destroy => ((s.drainRecord q).queueOff q).endAwaiting (Pkt.awaitsQueue q)
    | .reset =>
      (((s.drainRecord q).setFlds q [(.CFE_Q_STATUS_state, qActive), (.CFE_Q_STATUS_fault_code, 0)]).setQueue q
        { x with drain := .none, needB := true, refetch := none, w := s.fld .CFE_Q_RPTR_rptr q }).endAwaiting
        (Pkt.awaitsQueue q)

/-! ### Forced abort -/

/-- The cells that hold a thread block of a kernel. -/
def State.cellsOf (s : State) (k : Nat) : List Nat :=
  s.cells.filterMap (fun e => if e.2.tbs.any (fun t => t.kern == k) then some e.1 else none)

/-- R312 steps 1 to 3: a kernel aborted with a code, kept if it has one already: its cells halt with KERNEL_ABORTED and
its blocks turn to their kernel end. `short` cuts its store waits (R186), those of a block already in its kernel end too
(R313). -/
def State.abortKernel (s : State) (k code : Nat) (short : Bool) : State :=
  let s := s.modKernel k (fun x => { x with
    aborted := true, short := x.short || short, code := if x.code = 0 then code else x.code })
  let cs := s.cellsOf k
  let s := s.each cs (fun s c => s.haltOwn c hrAborted 0 none)
  let lim := s.now + s.deadNs short
  let s := s.each (cs.map blockOf).eraseDups (fun s b => s.modBlock b (fun x =>
    if x.owes then x else { x with owes := true, endAt := lim }))
  if short then
    { s with blocks := s.blocks.map (fun e =>
        if e.2.owes && e.2.kern == k then (e.1, { e.2 with endAt := min e.2.endAt lim }) else e) }
  else s

/-- The kernel of a LAUNCH packet. -/
def State.kernelOf (s : State) (q seq : Nat) : Option Kernel := s.kernels.find? (fun k => k.q == q && k.seq == seq)

/-- The copy engine that holds a step. -/
def State.copyHas (s : State) (q seq : Nat) : Bool := s.copyEng.any (fun e => e.2.contains (q, seq))

/-- R186, R313: the waits for the stores of a copy or fill under way cut short. -/
def State.shorten (s : State) (p : Pkt) : State :=
  let lim := s.now + s.deadNs true
  ({ s with remote := s.remote.map (fun (r : RemReq) => match r.svc with
      | .piece q n _ => if q = p.q ∧ n = p.seq then { r with lim := min r.lim (lim - r.since) } else r
      | _ => r) }).modPkt p.q p.seq (fun x => { x with held := min x.held (lim + 1) })

/-- R287, R312: one packet of a draining queue ends or is aborted. A copy or fill whose piece is under way ends with
it, its waits cut short, and a region's reset goes on to its end. -/
def State.abortPkt (s : State) (p : Pkt) (code : Nat) : State :=
  if p.st = .fetched ∨ p.fault ≠ 0 then s.dropPkt p
  else
    match s.kernelOf p.q p.seq with
    | some k => s.abortKernel k.id code true
    | none =>
      if s.copyHas p.q p.seq then s.shorten p
      else if p.midAction then s
      else
        let s := s.feWithdraw (fun w => w.src == .packet p.q p.seq)
        let s := s.each (s.remote.filter (fun r => match r.svc with
            | .piece q n _ => q == p.q && n == p.seq
            | .fence q n => q == p.q && n == p.seq
            | _ => false)) (fun s r => if r.type = ftFeReq then s.withdrawRemote r else s.endReq r.tid true)
        (s.collStop p.q p.seq).dropPkt p

/-- R287, R313: a queue becomes DRAINING: nothing further of it is fetched or started; a packet that RESUME was to fetch
again completes; a RESET takes `wptr` over as `rptr`. -/
def State.drainMark (s : State) (q : Nat) (d : Drain) : State :=
  let seq := s.fld .CFE_Q_SEQ_fetched_seq q
  let s := if (s.queue q).refetch.isSome && (s.pkt q seq).isNone then s.seqDone q seq else s
  let s := s.setFlds q [(.CFE_Q_STATUS_state, qDraining), (.CFE_Q_STATUS_idle, 0), (.CFE_Q_STATUS_in_chain, 0),
    (.CFE_Q_CHAIN_LEFT_left, 0)]
  if d = .reset then
    let w := s.fld .CFE_Q_WPTR_wptr q
    (s.setFld .CFE_Q_RPTR_rptr q w).setQueue q { s.queue q with drain := d, refetch := none, w := w }
  else s.setQueue q { s.queue q with drain := d, refetch := none }

/-- The packets of a queue ended or aborted. -/
def State.drainAbort (s : State) (q : Nat) (d : Drain) : State :=
  s.each (s.pool.filter (fun p => p.q == q)) (fun s p => s.abortPkt p d.code)

/-- R287: a queue drains. -/
def State.startDrain (s : State) (q : Nat) (d : Drain) : State := ((s.drainMark q d).drainAbort q d).drainCheck q

/-- R313: an ASC is destroyed. -/
def State.ascDrain (s : State) (a : Nat) : State :=
  let qs := s.ascQueues a
  let s := (s.setFld .CFE_ASC_STATE_state a 2).each qs (fun s q => s.drainMark q .asc)
  (s.each qs (fun s q => s.drainAbort q .asc)).ascCheck a

end Sys2Proof.Machine
end

