-- ==== Sys2Proof/Machine/Qctl.lean ====
section
/-!
DEFINITION. Creating, stopping, starting, resuming and resetting queues (R287), doorbells (R263), and the bootstrap of
queue 0 (R289).
-/

namespace Sys2Proof.Machine

/-- The fields with which a queue is created (R276). -/
structure QueueCfg where
  kernel   : Bool
  ringHost : Bool
  size     : Nat
  asc      : Nat
  prio     : Nat
  acct     : Nat
  base     : Nat
  cmpl     : Nat
  cmplHost : Bool
  vector   : Option Nat
  budget   : Nat
deriving DecidableEq, Repr

/-- R287 CREATE: the queue ACTIVE with the given fields, pointers, sequence and `done_seq` zero, its completion area
written (R300). -/
def State.createQueue (s : State) (q : Nat) (c : QueueCfg) : State :=
  let s := s.setFlds q [(.CFE_Q_CFG_kernel, b2n c.kernel), (.CFE_Q_CFG_ring_host, b2n c.ringHost),
    (.CFE_Q_CFG_size_log2, c.size), (.CFE_Q_CFG_asc, c.asc), (.CFE_Q_CFG_prio, c.prio), (.CFE_Q_CFG_acct, c.acct),
    (.CFE_Q_BASE_base, c.base), (.CFE_Q_CMPL_cmpl_base, c.cmpl), (.CFE_Q_CMPL_cmpl_host, b2n c.cmplHost),
    (.CFE_Q_IRQ_vector, c.vector.getD 0), (.CFE_Q_IRQ_vector_en, b2n c.vector.isSome),
    (.CFE_Q_BUDGET_budget_ms, c.budget)]
  let s := s.setFlds q [(.CFE_Q_STATUS_state, qActive), (.CFE_Q_WPTR_wptr, 0), (.CFE_Q_RPTR_rptr, 0),
    (.CFE_Q_SEQ_fetched_seq, 0), (.CFE_Q_DONE_done_seq, 0), (.CFE_Q_STATUS_doorbell_latch, 0), (.CFE_Q_STATUS_idle, 0),
    (.CFE_Q_STATUS_in_chain, 0), (.CFE_Q_CHAIN_LEFT_left, 0), (.CFE_Q_STATUS_fault_code, 0)]
  ({ s with fails := s.fails.filter (fun f => f.q != q) }.setQueue q Queue.init).areaInit q

/-- R287 RESUME: ACTIVE again. Without `retry` the packet that stopped the queue completes failed; with it, the pooled
copy may start again, and one that faulted at fetch is fetched again under its sequence number. -/
def State.resumeQueue (s : State) (q : Nat) (retry : Bool) : State :=
  let x := s.queue q
  let s := s.setFlds q [(.CFE_Q_STATUS_state, qActive), (.CFE_Q_STATUS_fault_code, 0)]
  match s.pool.find? (fun p => p.q == q && p.fault != 0) with
  | none => s
  | some p =>
    if !retry then
      (s.setQueue q (if x.refetch.isSome then { x.after p with refetch := none } else x)).finishPkt p p.fault p.step false
        true
    else if x.refetch.isSome then { s with pool := s.pool.filter (fun y => !(y.q == q && y.seq == p.seq)) }
    else s.modPkt q p.seq (fun y => { y with st := .fetched, fault := 0, since := none, pos := 0 })

/-- R287: whether RESET and DESTROY are legal. -/
def State.canDrain (s : State) (q : Nat) : Bool :=
  s.qState q == qActive || s.qState q == qStopped || s.qState q == qFaulted

/-- Whether a host write to a BAR reaches the device (R322, R430). -/
def State.barUp (s : State) : Bool := s.pwr.pwrgood && !s.pwr.regsOff && s.hif.linkUp && !s.hif.d3hot

/-! ### Queue 0 -/

/-- R289 `enable`. -/
def State.bootEnable (s : State) : State :=
  let size := s.fld .CFE_BOOTQ_CFG_size_log2 0
  let ast := s.fld .CFE_ASC_STATE_state 0
  if s.qState 0 ≠ qDisabled ∨ size < 6 ∨ size > 16 ∨ ast = 2 then s
  else
    let s :=
      if ast = 0 then s.setFlds 0 [(.CFE_ASC_STATE_state, 1), (.CFE_ASC_ROOT_root, 0), (.CFE_ASC_STATE_root_valid, 0)]
      else s
    s.createQueue 0
      { kernel := true, ringHost := s.flag .CFE_BOOTQ_CFG_ring_host 0, size := size, asc := 0, prio := 7, acct := 0
        base := s.fld .CFE_BOOTQ_BASE_base 0, cmpl := s.fld .CFE_BOOTQ_CMPL_cmpl_base 0
        cmplHost := s.flag .CFE_BOOTQ_CMPL_cmpl_host 0
        vector := if s.flag .CFE_BOOTQ_CFG_vector_en 0 then some (s.fld .CFE_BOOTQ_CFG_vector 0) else none
        budget := 0xFFFFFFFF }

/-- R289 `resume` and `reset`: discarded where R287 does not allow them. -/
def State.bootResume (s : State) (retry : Bool) : State :=
  if s.qState 0 = qFaulted then s.resumeQueue 0 retry else s
def State.bootReset (s : State) : State := if s.canDrain 0 then s.startDrain 0 .reset else s

/-- R289, R380: whether a write to CFE_BOOTQ_CTL is heard. -/
def State.bootCtl (s : State) : Bool := s.ready && s.barUp

/-- BOOTQ_ENABLE, BOOTQ_RESUME, BOOTQ_RESET: R289. -/
def execBootqEnable (s : State) : Out := .next (if s.bootCtl then s.bootEnable else s)
def execBootqResume (retry : Bool) (s : State) : Out := .next (if s.bootCtl then s.bootResume retry else s)
def execBootqReset (s : State) : Out := .next (if s.bootCtl then s.bootReset else s)

/-! ### Doorbells -/

/-- R263: a doorbell rung with a value. An overrun faults the queue in every state that hears doorbells; in a queue that
a RESET drains the fault is recorded and the RESET goes on (DEDUCED, log entry 35). -/
def State.ring (s : State) (q v : Nat) : State :=
  let st := s.qState q
  let d := (s.queue q).drain
  let w := s.fld .CFE_Q_WPTR_wptr q
  if st = qDisabled ∨ (st = qDraining ∧ d ≠ .reset) then s
  else if v < w then s.addFld .CFE_Q_DB_STALE_db_stale q 1
  else if v - s.fld .CFE_Q_RPTR_rptr q > 2 ^ s.fld .CFE_Q_CFG_size_log2 q then
    let s := s.stopQueue q none fcOverrun 0xFFFF 0 []
    if st = qDraining then s.setFld .CFE_Q_STATUS_state q qDraining else s
  else s.setFlds q [(.CFE_Q_WPTR_wptr, v), (.CFE_Q_STATUS_doorbell_latch, 1), (.CFE_Q_STATUS_idle, 0)]

/-- DOORBELL: R263, R380. -/
def execDoorbell (q : Fin 4096) (v : DWord) (s : State) : Out :=
  .next (if s.ready && s.barUp then s.ring q v.toNat else s)

end Sys2Proof.Machine
end

