-- ==== Sys2Proof/Machine/Sha.lean ====
section
/-!
DEFINITION. The signature scheme of R398: SHA-512, MGF1 and the verification of RSASSA-PSS with a 4,096-bit modulus. The
algorithms are those of the standards that the rule names (FIPS 180-4, RFC 8017), log entry 26.
-/

namespace Sys2Proof.Machine

/-! ### SHA-512 -/

/-- The largest number below 2^`n` + `r` whose `e`-th power is at most `x`, from one `r` on, by halving. -/
def rootFloor (e x : Nat) : Nat → Nat → Nat
  | 0, r => r
  | n + 1, r => rootFloor e x n (if (r + 2 ^ n) ^ e ≤ x then r + 2 ^ n else r)

/-- The first 64 bits of the fractional part of the `e`-th root of a number below 512. -/
def rootFrac (e p : Nat) : Nat := rootFloor e (p * 2 ^ (64 * e)) 69 0 % 2 ^ 64

/-- The primes below a number. -/
def primesBelow (n : Nat) : List Nat :=
  (List.range n).filter (fun p => decide (p ≥ 2) && (List.range p).all (fun d => decide (d < 2) || p % d != 0))

/-- The round constants: cube roots of the first 80 primes. -/
def shaK : List Nat := (primesBelow 410).map (rootFrac 3)

/-- The initial hash value: square roots of the first 8 primes. -/
def shaInit : List Nat := (primesBelow 20).map (rootFrac 2)

/-- A 64-bit number rotated right. -/
def rotr (n x : Nat) : Nat := x / 2 ^ n + 2 ^ (64 - n) * (x % 2 ^ n)

/-- The exclusive or of a word's rotations and, where `sh` is not 0, of the word shifted right. -/
def shaMix (rots : List Nat) (sh x : Nat) : Nat := rots.foldl (fun a n => a ^^^ rotr n x) (if sh = 0 then 0 else x / 2 ^ sh)

/-- The message schedule with `n` more words, the newest first. -/
def shaMore : Nat → List Nat → List Nat
  | 0, w => w
  | n + 1, w =>
    shaMore n ((shaMix [19, 61] 6 (w.getD 1 0) + w.getD 6 0 + shaMix [1, 8] 7 (w.getD 14 0) + w.getD 15 0) % 2 ^ 64 :: w)

/-- One round on the eight working variables. -/
def shaRound (v : List Nat) (kw : Nat) : List Nat :=
  let x := fun i => v.getD i 0
  let pick := (x 4 &&& x 5) ^^^ ((2 ^ 64 - 1 - x 4) &&& x 6)
  let most := (x 0 &&& x 1) ^^^ (x 0 &&& x 2) ^^^ (x 1 &&& x 2)
  let t := x 7 + shaMix [14, 18, 41] 0 (x 4) + pick + kw
  let top := (t + shaMix [28, 34, 39] 0 (x 0) + most) % 2 ^ 64
  top :: (v.take 3 ++ (x 3 + t) % 2 ^ 64 :: (v.drop 4).take 3)

/-- A big-endian number of bytes, and its bytes. -/
def beNat (l : List Byte) : Nat := l.foldl (fun a b => 256 * a + b.toNat) 0
def natBe (n v : Nat) : List Byte := (natLe n v).reverse

/-- The words of a message, one after another. -/
def shaWords : Nat → List Byte → List Nat
  | 0, _ => []
  | n + 1, l => beNat (l.take 8) :: shaWords n (l.drop 8)

/-- The hash value after one block of 128 bytes. -/
def shaBlock (h : List Nat) (b : List Byte) : List Nat :=
  let w := (shaMore 64 (shaWords 16 b).reverse).reverse
  let v := (List.zipWith (· + ·) shaK w).foldl shaRound h
  List.zipWith (fun x y => (x + y) % 2 ^ 64) h v

/-- The blocks of a message. -/
def shaBlocks : Nat → List Nat → List Byte → List Nat
  | 0, h, _ => h
  | n + 1, h, l => shaBlocks n (shaBlock h (l.take 128)) (l.drop 128)

/-- SHA-512. -/
def sha512 (m : List Byte) : List Byte :=
  let n := (m.length + 17 + 127) / 128
  let p := m ++ [0x80] ++ List.replicate (128 * n - m.length - 17) 0 ++ natBe 16 (8 * m.length)
  (shaBlocks n shaInit p).flatMap (natBe 8)

/-! ### RSASSA-PSS -/

/-- MGF1 with SHA-512. -/
def mgf1 (seed : List Byte) (n : Nat) : List Byte :=
  ((List.range (ceilDiv n 64)).flatMap (fun i => sha512 (seed ++ natBe 4 i))).take n

/-- A power modulo a number, the exponent's low `k` bits. -/
def powMod : Nat → Nat → Nat → Nat → Nat
  | 0, _, _, m => 1 % m
  | k + 1, b, e, m =>
    let r := powMod k (b * b % m) (e / 2) m
    if e % 2 = 1 then r * b % m else r

/-- R398: whether a 512-byte signature verifies over a message under a key: the encoded message of the standard, its
salt 64 bytes. Numbers of 512 bytes are little-endian (R6). -/
def pssVerify (n e : Nat) (msg sig : List Byte) : Bool :=
  let x := leNat sig
  if n < 2 ^ 4095 ∨ n ≥ 2 ^ 4096 ∨ x ≥ n then false
  else
    let em := natBe 512 (powMod 32 x e n)
    let masked := em.take 447
    let h := (em.drop 447).take 64
    let db := List.zipWith (· ^^^ ·) masked (mgf1 h 447)
    let db := (match db with | b :: t => (b &&& 0x7F) :: t | [] => [])
    let top := (match masked with | b :: _ => b.msb | [] => true)
    !top && em.drop 511 == [0xBC] && db.take 382 == List.replicate 382 0 && (db.drop 382).take 1 == [1]
      && sha512 (List.replicate 8 0 ++ sha512 msg ++ db.drop 383) == h

end Sys2Proof.Machine
end

