-- ==== Sys2Proof/Machine/Sec.lean ====
section
/-!
DEFINITION. Limhel (R397 to R403): the boot flash and its directory (R384), the manifest (R400), the acceptance of a set
(R401), slot seals (R402), and the choice of a slot at start-up (R403).
-/

namespace Sys2Proof.Machine

/-! ### The boot flash -/

/-- Bytes of the boot flash; an erased byte is 0xFF. Log entry 4. -/
def State.flashBytes (s : State) (a n : Nat) : List Byte :=
  let r := mapRange s.flash a (a + n)
  (List.range n).map (fun i => mapGet 0xFF r (a + i))

/-- A little-endian number in the boot flash. -/
def State.flashNum (s : State) (a n : Nat) : Nat := leNat (s.flashBytes a n)

/-- Bytes programmed into the boot flash, its erase units erased as needed. -/
def putFlash : NMap Byte → Nat → List Byte → NMap Byte
  | m, _, [] => m
  | m, a, b :: t => putFlash (mapSet 0xFF m a b) (a + 1) t
def State.program (s : State) (a : Nat) (bs : List Byte) : State := { s with flash := putFlash s.flash a bs }

/-- Bytes of the boot flash erased. -/
def State.eraseFlash (s : State) (a n : Nat) : State := { s with flash := mapClear s.flash a (a + n) }

/-- R383: whether a flash meets the rules of the boot flash. -/
def flashMeets (d : FlashDev) : Bool :=
  decide (d.size ≥ 64 * 2 ^ 20) && decide (d.revision ≥ 4) && d.fourByte && (d.erase == 4096 || d.erase == 65536)

/-- R383: the mode in which the ROM reads a flash, and its clock in MHz. -/
inductive FlashMode where
  | s1 (mhz : Nat)
  | s144 (mhz : Nat)
  | d8 (mhz : Nat)
deriving DecidableEq, Repr
def flashMode (d : FlashDev) : FlashMode := if d.xspi then .d8 200 else if d.quad then .s144 100 else .s1 50

/-- The erase size of the boot flash. -/
def State.eraseSize (s : State) : Nat := match s.flashDev with | some d => d.erase | none => 4096

/-- R384: the least size of a partition of a type. -/
def partMin (ptype : Nat) : Nat := if ptype = 0x10 then 65536 else if ptype = 0x11 then 262144 else 0

/-- R384: the directory's entries, (`ptype`, `offset`, `size`); none where it fails. -/
def State.directory (s : State) : Option (List (Nat × Nat × Nat)) :=
  let d := s.flashBytes 0 4096
  let at_ := fun o n => leNat ((d.drop o).take n)
  let n := at_ 4 2
  let entry := fun i => (d.drop (16 + 16 * i)).take 16
  let zero := fun (l : List Byte) => l.all (· == 0)
  let es := (List.range n).map entry
  if at_ 0 4 = 0x5249444B ∧ n ≥ 1 ∧ n ≤ 32 ∧ zero ((d.drop 6).take 10) ∧ zero ((d.drop (16 + 16 * n)).take (512 - 16 * n))
      ∧ at_ 528 4 = crc32c (d.take 528) ∧ zero (d.drop 532)
      ∧ es.all (fun e => zero ((e.drop 2).take 2) && zero (e.drop 12) && leNat ((e.drop 4).take 4) % 4096 == 0
        && leNat ((e.drop 8).take 4) % s.eraseSize == 0 && decide (partMin (leNat (e.take 2)) ≤ leNat ((e.drop 8).take 4)))
  then some (es.map (fun e => (leNat (e.take 2), leNat ((e.drop 4).take 4), leNat ((e.drop 8).take 4))))
  else none

/-- The first partition of a type: (offset, size). -/
def State.partition (s : State) (ptype : Nat) : Option (Nat × Nat) :=
  match s.directory with
  | none => none
  | some l => (l.find? (fun e => e.1 == ptype)).map (·.2)

/-- A firmware slot's partition: 0 is slot A, 1 slot B. -/
def State.slotPart (s : State) (slot : Nat) : Option (Nat × Nat) := s.partition (slot + 1)

/-! ### Acceptance of a set -/

/-- What R401 finds wrong. -/
inductive SetFault where
  | format
  | signature
  | rollback
deriving DecidableEq, Repr

/-- R400: a component entry's fields. -/
structure Comp where
  ctype  : Nat
  target : Nat
  offset : Nat
  size   : Nat
  hash   : List Byte
deriving DecidableEq, Repr

/-- A field of a manifest. -/
def mnum (m : List Byte) (o n : Nat) : Nat := leNat ((m.drop o).take n)

/-- The component entries of a manifest. -/
def components (m : List Byte) : List Comp :=
  (List.range 5).map (fun i =>
    let e := (m.drop (0x80 + 96 * i)).take 96
    ⟨mnum e 0 2, mnum e 2 2, mnum e 8 4, mnum e 12 4, (e.drop 16).take 64⟩)

/-- Bytes `[lo, hi)` of a manifest are zero. -/
def mzero (m : List Byte) (lo hi : Nat) : Bool := ((m.drop lo).take (hi - lo)).all (· == 0)

/-- R401 step 1: the manifest meets R400. `room` is what the slot holds before its seal (R399). -/
def manifestOk (m : List Byte) (room : Nat) : Bool :=
  let cs := components m
  let len := mnum m 8 4
  mnum m 0 4 == 0x4E414D4B && mnum m 4 2 == 0x4812 && mnum m 6 2 == 1 && decide (len ≤ 32 * 2 ^ 20)
    && decide (len ≤ room) && mnum m 0xC 2 == 5 && decide (mnum m 0xE 2 < 2) && decide (mnum m 0x18 4 ≤ 255)
    && mzero m 0x1E 0x80 && mzero m 0x260 0x800 && mzero m 0xE10 0x1000
    && mnum m 0x800 4 == 0x54524543 && decide (mnum m 0x804 2 < 16) && mzero m 0x806 0x808 && mzero m 0x80C 0x810
    && (List.range 5).all (fun i => mzero m (0x80 + 96 * i + 80) (0x80 + 96 * i + 96))
    && [1, 2, 3, 4, 5].all (fun t => cs.countP (fun c => c.ctype == t) == 1)
    && cs.all (fun c => c.target == (if c.ctype = 4 then 0x3F else 1) && c.offset % 4096 == 0 && decide (c.size ≥ 1)
      && decide (c.offset ≥ 4096) && decide (c.offset + c.size ≤ len))
    && (List.range 5).all (fun i => (List.range i).all (fun j =>
      let a := cs.getD i ⟨0, 0, 0, 0, []⟩
      let b := cs.getD j ⟨0, 0, 0, 0, []⟩
      decide (a.offset + a.size ≤ b.offset) || decide (b.offset + b.size ≤ a.offset)))

/-- R401: the acceptance of the set in a slot: none where every check passes. -/
def State.accept (s : State) (slot : Nat) : Option SetFault :=
  match s.slotPart slot with
  | none => some .format
  | some (off, size) =>
    let m := s.flashBytes off 4096
    let key := mnum m 0x804 2
    if !manifestOk m (size - 4096) then some .format
    else if !pssVerify s.sec.rootKey 65537 ((m.drop 0x800).take 528) ((m.drop 0xA10).take 512)
        || s.fuses.revoked.testBit key then some .signature
    else if !pssVerify (mnum m 0x810 512) (mnum m 0x808 4) (m.take 0xC10) ((m.drop 0xC10).take 512) then some .signature
    else if !(components m).all (fun c => sha512 (s.flashBytes (off + c.offset) c.size) == c.hash) then some .signature
    else if mnum m 0x18 4 < s.fuses.svn then some .rollback
    else if (mnum m 0x1C 2).testBit key then some .format
    else none

/-- The manifest of a slot, and its version. -/
def State.manifest (s : State) (slot : Nat) : List Byte :=
  match s.slotPart slot with
  | some (off, _) => s.flashBytes off 4096
  | none => []
def State.setVersion (s : State) (slot : Nat) : Nat := mnum (s.manifest slot) 0x10 8

/-! ### Seals -/

/-- R402: the `seal_seq` of a slot's seal, if it is valid. -/
def State.sealSeq (s : State) (slot : Nat) : Option Nat :=
  match s.slotPart slot with
  | none => none
  | some (off, size) =>
    let b := s.flashBytes (off + size - 4096) 96
    if mnum b 0 4 = 0x4C414553 ∧ mnum b 92 4 = crc32c (b.take 92) ∧ (b.drop 16).take 64 = sha512 (s.flashBytes off 4096)
    then some (mnum b 8 8) else none

/-- R402: the bytes of a seal. -/
def sealBytes (seq : Nat) (manifest : List Byte) : List Byte :=
  let b := natLe 4 0x4C414553 ++ natLe 4 0 ++ natLe 8 seq ++ sha512 manifest ++ List.replicate 12 0
  b ++ natLe 4 (crc32c b)

/-- A slot sealed, and its seal erased. -/
def State.writeSeal (s : State) (slot seq : Nat) : State :=
  match s.slotPart slot with
  | some (off, size) => s.program (off + size - 4096) (sealBytes seq (s.flashBytes off 4096))
  | none => s
def State.eraseSeal (s : State) (slot : Nat) : State :=
  match s.slotPart slot with
  | some (off, size) => s.eraseFlash (off + size - 4096) 4096
  | none => s

/-- The highest `seal_seq` of a valid seal, 0 where there is none. -/
def State.topSeal (s : State) : Nat := max ((s.sealSeq 0).getD 0) ((s.sealSeq 1).getD 0)

/-! ### The choice of R403 -/

/-- The sealed slots, the highest seal first, A before B on a tie. -/
def State.candidates (s : State) : List Nat :=
  match s.sealSeq 0, s.sealSeq 1 with
  | some a, some b => if b > a then [1, 0] else [0, 1]
  | some _, none => [0]
  | none, some _ => [1]
  | none, none => []

/-- R403: the slot that starts and whether it was the first candidate; the start reports of the accepted candidates come
in order. Without one, the cause of R414. -/
def State.chooseSet (s : State) (starts : List Bool) : Except Nat (Nat × Bool) :=
  let rec go : List Nat → List Bool → Bool → Bool → Except Nat (Nat × Bool)
    | [], _, _, tried => .error (if tried then 4 else 3)
    | c :: t, rs, first, tried =>
      if s.accept c ≠ none then go t rs false tried
      else
        match rs with
        | true :: _ => .ok (c, first)
        | _ => go t rs.tail false true
  go s.candidates starts true false

/-- The slot that does not run (R404); in January mode A, or B where A holds the higher valid seal (R416). -/
def State.inactive (s : State) : Nat :=
  if s.fld .SEC_FW_STATE_running_slot 0 = 0 then 1
  else if s.fld .SEC_FW_STATE_running_slot 0 = 1 then 0
  else
    match s.sealSeq 0, s.sealSeq 1 with
    | some a, some b => if a > b then 1 else 0
    | some _, none => 1
    | _, _ => 0

end Sys2Proof.Machine
end

