-- ==== Sys2Proof/Machine/Kernel.lean ====
section
/-!
DEFINITION. Kernels in progress: placement of thread blocks (R41 to R44, R256, R257, R283), their retirement (R45, R88),
the kernel end on a block (R151), the retirement of a kernel (R72, R152, R188, R316), halt reports (R68) and budgets
(R284).
-/

namespace Sys2Proof.Machine

/-! ### Room -/

/-- R41: thread blocks of a kernel that one cell holds. -/
def Kernel.perCell (k : Kernel) : Nat :=
  if k.tile then 1
  else if k.pages > 0 then min (16 / max k.groups 1) (64 / k.pages)
  else 16 / max k.groups 1

/-- The thread blocks of a kernel's grid. -/
def Kernel.total (k : Kernel) : Nat := k.gx * k.gy * k.gz

/-- R41: whether a cell that runs a kernel has room for another thread block of it. -/
def Cell.room (x : Cell) (k : Kernel) : Bool :=
  x.state != .halted && x.tbs.all (fun t => t.kern == k.id) && decide (x.tbs.length < k.perCell)

/-- The physical cells of a block. -/
def cellsOfBlock (b : Nat) : List Nat := (List.range 9).map (9 * b + ·)

/-- Whether a block holds a resident thread block. -/
def State.blockBusy (s : State) (b : Nat) : Bool := (cellsOfBlock b).any (fun c => !(s.cell c).tbs.isEmpty)

/-- R43 rule 1: the lowest logical cell with room of a block that runs the kernel. -/
def State.roomIn (s : State) (b : Nat) (k : Kernel) : Option Nat :=
  if (s.block b).kern = k.id ∧ !(s.block b).owes ∧ s.blockBusy b then
    firstBelow 8 (fun l => (s.cell (s.physOfLogical b l)).room k)
  else none

/-- R43 rule 2: whether a block may be opened for a kernel. -/
def State.openable (s : State) (b : Nat) : Bool :=
  s.flag .REG_BLOCK_MAP_block_enabled b && (s.block b).kern == 0 && !s.blockBusy b
    && (cellsOfBlock b).all (fun c => (s.cell c).state != .halted)

/-- R43: the physical cell on which a region would place a thread block of a kernel. -/
def State.regionRoom (s : State) (r : Nat) (k : Kernel) : Option Nat :=
  let bs := (List.range 12).map (12 * r + ·)
  match bs.findSome? (fun b => (s.roomIn b k).map (fun l => s.physOfLogical b l)) with
  | some c => some c
  | none => (bs.find? s.openable).map (fun b => s.physOfLogical b 0)

/-! ### The region of a thread block (R256, R257) -/

/-- R256: what one address of an affinity range counts towards the quadrants, doubled; none while the host holds a line
of the tables (R335). -/
def State.quadrants (s : State) (asc va : Nat) : State × Option (List Nat) :=
  match s.access 24 asc va .read with
  | (.ok (.dev d), s) =>
    let e := s.loc (d / 65536)
    (s, some (
      if e.state = .resident ∨ e.state = .migrating then
        if e.loc < 12 then [e.loc / 3, e.loc / 3] else if e.loc < 14 then [0, 1] else [2, 3]
      else []))
  | (.error (.wait t), s) => (s.biSnoop t false, none)
  | (_, s) => (s, some [])

/-- R256: what the addresses of a list count. -/
def State.quadrantsOf (asc : Nat) : List Nat → State → State × Option (List Nat)
  | [], s => (s, some [])
  | va :: t, s =>
    match s.quadrants asc va with
    | (s, none) => (s, none)
    | (s, some l) =>
      match State.quadrantsOf asc t s with
      | (s, none) => (s, none)
      | (s, some r) => (s, some (l ++ r))

/-- R256: the counts of the four quadrants for a kernel's affinity range. -/
def State.shares (s : State) (k : Kernel) : State × Option (List Nat) :=
  let n := k.affin % 64
  let base := bits k.affin 16 41 * 65536
  match State.quadrantsOf k.asc (if n = 0 then [] else (List.range 16).map (fun i => base + i * 2 ^ (n - 4))) s with
  | (s, none) => (s, none)
  | (s, some l) => (s, some ((List.range 4).map (fun q => (l.filter (· == q)).length)))

/-- Thread blocks resident on a region. -/
def State.tbsOn (s : State) (r : Nat) : Nat :=
  (s.cells.map (fun e => if regionOf e.1 = r then e.2.tbs.length else 0)).sum

/-- R257: the weight under the cost of a region, as a numerator over 4 × (sum of counts). -/
def State.placeWeight (s : State) (r : Nat) (sh : List Nat) : Nat :=
  let tot := sh.sum
  s.fld .REG_STATUS_enabled_cells r * s.fld .REG_SPEED_token_rate_mtps r
    * (if tot = 0 then 1 else 4 * tot + sh.getD (r / 6) 0 * s.fld .PLE_WP_aff_weight 0)

/-- R257: the cheaper of the best region so far and region `r`, each with its cell. -/
def State.cheaper (s : State) (sh : List Nat) (best : Option (Nat × Nat)) (r c : Nat) : Option (Nat × Nat) :=
  match best with
  | none => some (r, c)
  | some (r0, c0) =>
    if (s.tbsOn r + 1) * s.placeWeight r0 sh < (s.tbsOn r0 + 1) * s.placeWeight r sh then some (r, c) else some (r0, c0)

/-- R257: the region and cell for the next thread block of a kernel. -/
def State.placeOn (s : State) (k : Kernel) (sh : List Nat) : Option (Nat × Nat) :=
  (List.range 24).foldl (fun best r =>
    if s.rgnUp r && !s.pool.any (Pkt.powersDown r) then
      (match s.regionRoom r k with | some c => s.cheaper sh best r c | none => best)
    else best) none

/-! ### Placement -/

/-- A group at its start (R44). -/
def Group.start (entry tb gid : Nat) : Group :=
  { pc := BitVec.ofNat 64 entry, active := 0xFFFFFFFF, exited := 0, stack := [], v := [], p := [], u := []
    wait := .none, tb := tb, gid := gid, storeLost := 0, next := none }

/-- A stream at the residence of a thread block (R74, R75). -/
def StreamSt.start (tile : Bool) (entry : Nat) : StreamSt :=
  if tile then { StreamSt.init with started := true, mpc := entry, append := entry == 0 } else StreamSt.init

/-- R150: a kernel starts on a block. -/
def State.openBlock (s : State) (b k : Nat) : State :=
  if (s.block b).kern = k then s
  else
    (s.modBlock b (fun x => { x with kern := k, owes := false })).each (cellsOfBlock b)
      (fun s c => (s.l1Inval c).icInval c)

/-- The lowest scratchpad share that no resident thread block of the cell has. -/
def Cell.freeShare (x : Cell) (size : Nat) : Nat :=
  ((firstBelow 64 (fun i => x.tbs.all (fun t => t.scrBase != i * size))).getD 0) * size

/-- R43, R44, R75, R126, R135, R203: a thread block of a kernel becomes resident on a cell. The watchdog interval (R71)
of a cell begins with the first thread block that becomes resident on it (DESIGN CHOICE, log entry 51). -/
def Cell.enter (x : Cell) (k : Kernel) (until_ : Nat) : Cell :=
  let size := if k.tile then 0x40000 else k.pages * 4096
  let base := if k.tile then 0 else x.freeShare size
  let slots := ((List.range 16).filter (fun i => (mapFind x.groups i).isNone)).take k.groups
  let tb : ThreadBlock :=
    { n := x.nextTb, kern := k.id, x := k.next % max k.gx 1, y := k.next / max k.gx 1 % max k.gy 1
      z := k.next / max (k.gx * k.gy) 1, slots := slots, scrBase := base, scrSize := size }
  { x with
    state := .running
    scr := if x.lastKern ≠ k.id ∨ x.needZero then [] else x.scr
    lastKern := k.id
    needZero := false
    nextTb := x.nextTb + 1
    tbs := x.tbs ++ [tb]
    groups := slots.zipIdx.foldl (fun m e => mapIns m e.1 (Group.start k.entry x.nextTb e.2)) x.groups
    sa := StreamSt.start k.tile k.aEntry
    sx := StreamSt.start k.tile k.xEntry
    aq := []
    xq := []
    arr := ArrSt.init
    luts := []
    progress := if x.tbs.isEmpty then until_ else x.progress }

/-- R283: the effective priority of a kernel. -/
def State.kernelPrio (s : State) (k : Kernel) : Nat :=
  if s.now > k.due + s.fld .CFE_SCHED_CFG_age_us 0 * 1000 then 7 else k.prio

/-- Kernels with thread blocks left to place, in the order R283 offers them. -/
def State.offered (s : State) : List Kernel :=
  let l := s.kernels.filter (fun k => !k.aborted && decide (k.next < k.total))
  ([7, 6, 5, 4, 3, 2, 1, 0].map (fun p => l.filter (fun k => s.kernelPrio k == p))).flatten

/-- R283: whether a kernel has been passed over for longer than `age_us`. -/
def State.passedLong (s : State) (k : Kernel) : Bool :=
  match k.passed with
  | some t => decide (s.now > t + s.fld .CFE_SCHED_CFG_age_us 0 * 1000)
  | none => false

/-- The counts with which a kernel is placed: fixed when its first thread block is placed (R256); none while a line that
the host holds keeps its addresses from being translated. -/
def State.sharesFor (s : State) (k : Kernel) : State × Option (List Nat) :=
  match k.share with
  | some l => (s, some l)
  | none => s.shares k

/-- A thread block's place: the kernel, the region, the physical cell, the counts of R256, the kernels passed over. -/
structure Place where
  kern    : Kernel
  region  : Nat
  cell    : Nat
  share   : List Nat
  skipped : List Nat

/-- R283: the kernel whose thread block is placed next, and its place. -/
def State.choosePlace : List Kernel → List Nat → State → State × Option Place
  | [], _, s => (s, none)
  | k :: t, skipped, s =>
    match s.sharesFor k with
    | (s, none) => (s, none)
    | (s, some sh) =>
      match s.placeOn k sh with
      | some (r, c) => (s, some ⟨k, r, c, sh, skipped⟩)
      | none => if s.passedLong k then (s, none) else State.choosePlace t (k.id :: skipped) s

/-- R43, R257, R283: a thread block put in its place. -/
def State.placeTb (s : State) (p : Place) : State :=
  let s := s.openBlock (blockOf p.cell) p.kern.id
  let s := s.modCell p.cell (fun x => x.enter p.kern s.wdUntil)
  let s : State := { s with kernels := s.kernels.map (fun x =>
      if p.skipped.contains x.id ∧ x.passed.isNone then { x with passed := some s.now } else x) }
  let s := s.modKernel p.kern.id (fun x => { x with
    next := x.next + 1, due := s.now, passed := none, share := some p.share
    first := if x.first.isNone then some s.now else x.first })
  s.addFld .PLE_RGN_TB_placed p.region 1

/-- THREAD_BLOCK_PLACEMENT (R42 to R44, R257, R283): the next thread block is placed, if one fits. -/
def execThreadBlockPlacement (s : State) : Out :=
  .next (
    if !s.alive then s
    else
      match State.choosePlace s.offered [] s with
      | (s, none) => s
      | (s, some p) => s.placeTb p)

/-! ### Retirement of a thread block -/

/-- R45, R88: whether a thread block can retire. -/
def Cell.tbDone (x : Cell) (t : ThreadBlock) (tile : Bool) : Bool :=
  t.slots.all (fun i => match mapFind x.groups i with | some g => g.ended | none => true)
    && x.reqs.all (fun r => !t.slots.contains r.slot)
    && (!tile || (x.sa.ended && x.sx.ended && x.sa.prog.isEmpty && x.sx.prog.isEmpty))

/-- THREAD_BLOCK_RETIRE (R45, R88). The last of a block's begins its kernel end (R151). -/
def execThreadBlockRetire (c : CellId) (tb : Nat) (s : State) : Out :=
  let c := cellNo c
  let x := s.cell c
  .next (
    match x.tbs.find? (fun t => t.n == tb) with
    | none => s
    | some t =>
      if !s.alive || x.state != .running || !x.tbDone t (((s.kernel? t.kern).map (·.tile)).getD false) then s
      else
        let tbs := x.tbs.filter (fun y => y.n != tb)
        let s := s.setCell c { x with
          groups := x.groups.filter (fun e => !t.slots.contains e.1)
          tbs := tbs
          state := if tbs.isEmpty then .idle else .running }
        let s := s.dropResv (fun r => r.cell == c && t.slots.contains r.slot)
        let s := s.modKernel t.kern (fun k => { k with retired := k.retired + 1 })
        let b := blockOf c
        if s.blockBusy b then s else s.modBlock b (fun y => { y with owes := true, endAt := s.now + s.deadNs false }))

/-! ### The kernel end on a block -/

/-- Whether a cell has a store left in its store buffer. -/
def Cell.storesLeft (x : Cell) : Bool :=
  x.reqs.any (fun r => match r.kind with | .store _ => true | .storeNt _ => true | _ => false)

/-- The store requests of a cell that await a peer, flushes included. -/
def State.remoteStores (s : State) (c : Nat) : List RemReq := s.remote.filter (fun r => r.ofCell c && r.type == ftWrReq)

/-- The thread blocks of an aborted kernel leave a cell; a request that still awaits its answer is given up (R423). -/
def State.clearCell (s : State) (c : Nat) : State :=
  let s := s.each (s.remote.filter (RemReq.ofCell c)) (fun s r => s.endReq r.tid true)
  s.modCell c (fun x => { x with tbs := [], groups := [], reqs := [], comb := [] })

/-- KERNEL_END (R151): as far as stores and write-backs allow; at the end the block reports. -/
def execKernelEnd (b : BlockId) (s : State) : Out :=
  let b := blockNo b
  let cs := cellsOfBlock b
  .next (
    if !s.alive || !(s.block b).owes then s
    else
      let s := s.each cs (fun s c => (s.combFlushAll c).1)
      if cs.any (fun c => (s.cell c).storesLeft || !(s.cell c).comb.isEmpty) then s
      else
        let r := s.l2Clean b 511 (s.block b).l2.lines
        let s := r.1
        if !r.2 then s
        else
        let s := s.modBlock b (fun x => { x with l2 := { x.l2 with lines := [] } })
        if cs.any (fun c => !(s.remoteStores c).isEmpty) then s
        else (s.each cs State.clearCell).modBlock b (fun x => { x with kern := 0, owes := false }))

/-! ### The retirement of a kernel -/

/-- R73: the wait code of a group's slot. -/
def Cell.waitCode (x : Cell) (now slot : Nat) : Nat :=
  match mapFind x.groups slot with
  | none => 0xF
  | some g =>
    if g.ended then 9
    else if x.state = .halted then 8
    else if x.feOut slot then 4
    else
      match g.wait with
      | .barrier => 5
      | .twait _ _ => 6
      | .membar _ _ _ _ => 7
      | .none => match g.next with | some n => x.stallOf now slot n | none => 1

/-- R311: the engine entry of a cell: its halt, or its lowest occupied slot. -/
def State.cellEntry (s : State) (c : Nat) : List Byte :=
  let x := s.cell c
  let who := (s.logicalOf c).getD 0 + 8 * (blockOf c % 12) + 128 * regionOf c
  let halted := decide (x.state = .halted)
  let slot := if halted then x.halt.group else (x.groups.head?.map (·.1)).getD 0
  let pc := if halted then x.halt.pc else ((mapFind x.groups slot).map (fun g => g.pc.toNat)).getD 0
  engineEntry 1 (who + 2 ^ 16 * (if halted then x.halt.reason else 0)
    + 2 ^ 24 * (slot + 16 * (if halted then x.halt.source else 0)) + 2 ^ 32 * (if halted then 8 else x.waitCode s.now slot)) pc

/-- R72, R312 step 5: the cells a failed kernel halted return to IDLE; each was HALTED (R203). -/
def State.teardown (s : State) (k : Nat) : State :=
  { s with cells := s.cells.map (fun e =>
      if e.2.state = .halted ∧ e.2.lastKern = k ∧ e.2.tbs = [] then (e.1, { e.2 with state := .idle, needZero := true })
      else e) }

/-- KERNEL_RETIRE (R152, R188, R308, R312, R316): once every block has ended the kernel, its LAUNCH completes with its
code. -/
def execKernelRetire (k : Nat) (s : State) : Out :=
  .next (
    match s.kernel? k with
    | none => s
    | some x =>
      let fin := x.aborted || (x.next == x.total && x.retired == x.total)
      if !s.alive || !fin || s.blocks.any (fun e => e.2.kern == k) then s
      else
        let entries := if x.code / 256 = 0x50 ∨ x.code = fcBudget then x.cells.map s.cellEntry else []
        let code := if x.code ≠ 0 then x.code else if x.lost then fcStoreLost else 0
        let s := s.teardown k
        let s : State := { s with kernels := s.kernels.filter (fun y => y.id != k) }
        match s.pkt x.q x.seq with
        | none => s
        | some p =>
          if s.qState x.q = qDraining then (s.dropPkt p).drainCheck x.q
          else if code = 0 then s.finishPkt p 0 0 false false
          else s.failPkt p code x.epoch entries)

/-- HALT_REPORT (R68, R312): the front end fails the kernel with the first halt it receives and aborts it. -/
def execHaltReport (c : CellId) (s : State) : Out :=
  let c := cellNo c
  let x := s.cell c
  .next (
    if !s.alive || x.state != .halted || x.reported then s
    else
      let s := s.setCell c { x with reported := true }
      match s.cellKernel c with
      | none => s
      | some k =>
        let s := if k.code = fcBudget then s else s.modKernel k.id (fun y => { y with cells := y.cells ++ [c] })
        if k.aborted then s else s.abortKernel k.id (0x5000 + x.halt.reason) false)

/-- R311: the cells that a budget expiry's capture describes: the lowest of each region with a thread block. -/
def State.budgetCells (s : State) (k : Nat) : List Nat :=
  let cs := s.cellsOf k
  (List.range 24).filterMap (fun r => cs.find? (fun c => regionOf c == r))

/-- BUDGET_EXPIRY (R284, R309): a capture, then the forced abort. -/
def execBudgetExpiry (k : Nat) (s : State) : Out :=
  .next (
    match s.kernel? k with
    | none => s
    | some x =>
      match x.first with
      | none => s
      | some t =>
        if !s.alive || x.aborted || x.budget == 0 || decide (s.now < t + x.budget * 1000000) then s
        else
          let cs := s.budgetCells k
          let r := s.capture x.q (s.pkt x.q x.seq) fcBudget true x.epoch (cs.map s.cellEntry)
          let s := r.1.areaWrite x.q 0x100 r.2
          (s.modKernel k (fun y => { y with cells := cs })).abortKernel k fcBudget false)

end Sys2Proof.Machine
end

