-- ==== Sys2Proof/Machine/AtomOp.lean ====
section
/-!
DEFINITION. What an atomic operation computes (R52, R66): one step, and the run of the lanes of one address.
-/

namespace Sys2Proof.Machine

/-- F2 operations of the atomic class (R52). -/
def opAdd : Nat := 0x10
def opMin : Nat := 0x11
def opMax : Nat := 0x12
def opAnd : Nat := 0x13
def opOr : Nat := 0x14
def opXor : Nat := 0x15
def opExch : Nat := 0x16
def opCas : Nat := 0x17
def opFadd : Nat := 0x18

/-- The bits of an atomic's word: 32 at size 2, 64 at size 3. -/
def atomBits (size : Nat) : Nat := if size = 2 then 32 else 64

/-- R50: `a ≤ b`, signed where `sign` is set. -/
def atomLe (size : Nat) (sign : Bool) (a b : Nat) : Bool :=
  if sign then decide (sgn (atomBits size) a ≤ sgn (atomBits size) b) else decide (a ≤ b)

/-- R66: the word after one lane's operation with operand `a`, and `b` the new value of a compare-and-swap. -/
def atomNew (op size : Nat) (sign : Bool) (old a b : Nat) : Nat :=
  match op with
  | 0x10 => (old + a) % 2 ^ atomBits size
  | 0x11 => if atomLe size sign old a then old else a
  | 0x12 => if atomLe size sign a old then old else a
  | 0x13 => old &&& a
  | 0x14 => old ||| a
  | 0x15 => old ^^^ a
  | 0x16 => a
  | 0x17 => if old = a then b else old
  | _ => fAdd (if size = 2 then .fp32 else .fp64) .ne old a

/-- R66: the operations of one address in lane order: the final word, and what each lane receives. -/
def atomRun (op size : Nat) (sign : Bool) : Nat → List (Nat × Nat) → Nat × List Nat
  | v, [] => (v, [])
  | v, (a, b) :: t =>
    let r := atomRun op size sign (atomNew op size sign v a b) t
    (r.1, v :: r.2)

/-- The operations whose step changes the word, by their place. -/
def atomChangers (op size : Nat) (sign : Bool) : Nat → Nat → List (Nat × Nat) → List Nat
  | _, _, [] => []
  | i, v, (a, b) :: t =>
    let v' := atomNew op size sign v a b
    let r := atomChangers op size sign (i + 1) v' t
    if v' = v then r else i :: r

end Sys2Proof.Machine
end

