-- ==== Sys2Proof/Machine/LoadStore.lean ====
section
/-!
DEFINITION. The memory instructions, format F2, and ULD (R50 to R52, R56, R58, R65, R146, R157 to R163, R169, R359,
R463): what is checked before anything leaves the cell, the request that an instruction leaves, its sending to peers and
its performance at the homes.
-/

namespace Sys2Proof.Machine

/-! ### Checks before an operation leaves the cell -/

/-- What an F2 operation allows and uses: its sizes, whether `hint` 1, `sign` and `pd` may be set and vd is used, the
registers it reads and writes from vd on, what it needs of a leaf. -/
structure MemSpec where
  sizes : List Nat
  hint  : Bool := false
  sign  : Bool := false
  pd    : Bool := false
  vd    : Bool := true
  src   : Nat → Nat := fun _ => 0
  dst   : Nat → Nat := fun _ => 0
  need  : Need := .read
  local_ : Bool := false

/-- R50, R51: whether the fields of an F2 instruction are legal for its operation. -/
def MemSpec.legal (p : MemSpec) (i : MemI) : Bool :=
  guardOk i.g && p.sizes.contains i.size.toNat && (i.hint == 0 || (p.hint && i.hint == 1)) && (p.sign || !i.sign)
    && (p.pd || i.pd == 0) && (p.vd || i.vd == 0) && (!i.ubase || decide (i.va.toNat < 32))

/-- R46: the registers an F2 instruction names wrongly. -/
def MemSpec.range (p : MemSpec) (i : MemI) : Bool :=
  let sz := i.size.toNat
  (!i.ubase && misReg 2 i.va.toNat) || (p.vd && misReg (sizeRegs sz) i.vd.toNat)
    || decide (i.vd.toNat + p.src sz > 128)

/-- The registers an F2 instruction reads or writes. -/
def MemSpec.uses (p : MemSpec) (i : MemI) : Uses :=
  let n := max (p.src i.size.toNat) (p.dst i.size.toNat)
  ⟨(if i.ubase then [] else regRun i.va.toNat 2) ++ regRun i.vd.toNat n,
    guardPreds i.g ++ (if p.pd then [i.pd.toNat] else []), if i.ubase then [i.va.toNat] else []⟩

/-- R50: the data address of a lane. -/
def memVa (g : Group) (i : MemI) (lane : Nat) : Nat :=
  let base := if i.ubase then g.ur i.va.toNat else g.rd 2 i.va.toNat lane
  (BitVec.ofNat 64 base + i.off.signExtend 64).toNat

/-- The outcome of the checks of R158. -/
inductive MemChk where
  | ok (s : State) (l : List (Nat × Nat × Target))
  | bad (s : State) (reason va : Nat)
  | wait (s : State)

/-- R158: the acting lanes translated in ascending order, to the first fault. `local_` refuses a peer's memory. -/
def State.memXlate (s : State) (c : Nat) (need : Need) (local_ : Bool) : List (Nat × Nat) → MemChk
  | [] => .ok s []
  | (ln, va) :: t =>
    match s.access (regionOf c) (s.cellAsc c) va need with
    | (.error (.wait _), s) => .wait s
    | (.error f, s) => .bad s f.halt va
    | (.ok tg, s) =>
      if local_ && tg.isPeer then .bad s hrProtection va
      else
        match s.memXlate c need local_ t with
        | .ok s l => .ok s ((ln, va, tg) :: l)
        | r => r

/-- R158: alignment in every acting lane, then translation. Of several lanes that fail the one granted (R69) is the
lowest, one that is misaligned before one that has no translation, `more` clear (DESIGN CHOICE, log entry 52). -/
def State.memChk (s : State) (c size : Nat) (need : Need) (local_ : Bool) (l : List (Nat × Nat)) : MemChk :=
  match l.find? (fun e => e.2 % 2 ^ size != 0) with
  | some e => .bad s hrMisaligned e.2
  | none => s.memXlate c need local_ l

/-! ### Requests -/

/-- Whether two lanes of requests touch common bytes, by words of 8 where a home operation is among them (R146, R157). -/
def laneMeets (word : Bool) (n m : Nat) (a b : LaneOp) : Bool :=
  if word then decide (a.va / 8 ≤ (b.va + m - 1) / 8) && decide (b.va / 8 ≤ (a.va + n - 1) / 8)
  else decide (a.va < b.va + m) && decide (b.va < a.va + n)

/-- The bytes each lane of a request names. -/
def ReqKind.bytes : ReqKind → Nat
  | .load _ size _ _ => 2 ^ size
  | .store size => 2 ^ size
  | .storeNt size => 2 ^ size
  | .ldres _ size => 2 ^ size
  | .stcond _ size => 2 ^ size
  | .atom _ _ size _ => 2 ^ size
  | .fe _ _ => 8
  | .uload _ => 8

/-- R146, R171: whether an older request must be answered before a younger one's overlapping bytes are touched. -/
def orders (same : Bool) (old new : Nat) : Bool :=
  if old = 2 ∧ new = 2 then true
  else same && !(old == 2 && (new == 0 || new == 1)) && !(new == 2 && (old == 0 || old == 1))

/-- R183: whether a store waits in the store buffer for an older instruction of its group that may still halt the cell.
-/
def staysBuffered (same : Bool) (old new : Nat) : Bool := same && (old == 0 || old == 3) && (new == 1 || new == 2)

/-- Whether a request waits for an older one of its cell. -/
def Cell.reqBlocked (x : Cell) (r : Req) : Bool :=
  x.reqs.any (fun q => decide (q.id < r.id) && q.lanes.any (fun a => !a.final &&
    (staysBuffered (q.slot == r.slot) q.kind.cls r.kind.cls ||
      (orders (q.slot == r.slot) q.kind.cls r.kind.cls && r.lanes.any (fun b =>
        laneMeets (q.kind.cls == 3 || r.kind.cls == 3) q.kind.bytes r.kind.bytes a b)))))

/-- R185: whether a store of a drain waits for an older store of its cell to the same bytes. -/
def Cell.storeBlocked (x : Cell) (r : Req) : Bool :=
  x.reqs.any (fun q => decide (q.id < r.id) && (q.kind.cls == 1 || q.kind.cls == 2) &&
    orders (q.slot == r.slot) q.kind.cls r.kind.cls && q.lanes.any (fun a => !a.final &&
      r.lanes.any (fun b => laneMeets false q.kind.bytes r.kind.bytes a b)))

/-- The lanes of a request still to be performed in this device, or to be sent to a peer. -/
def Req.todoHere (r : Req) : List LaneOp := r.lanes.filter (fun l => l.st == .todo && !l.tgt.isPeer)
def Req.todoAway (r : Req) : List LaneOp := r.lanes.filter (fun l => l.st == .todo && l.tgt.isPeer)

/-- The request of a cell with an identity. -/
def State.req (s : State) (c id : Nat) : Option Req := (s.cell c).reqs.find? (fun r => r.id == id)

/-- A lane taken out of its request: an operation of a halted cell that was withdrawn (R68). -/
def State.dropLane (s : State) (c id lane : Nat) : State :=
  s.modCell c (fun x => { x with reqs := x.reqs.map (fun r =>
    if r.id = id then { r with lanes := r.lanes.filter (fun l => l.lane != lane) } else r) })

/-! ### Sending to peers (R359, R362) -/

/-- The last transaction number given out. -/
def State.lastTid (s : State) : Nat := (s.remote.getLast?.map (·.tid)).getD 0

/-- One frame of a request sent for lanes; without a usable route the lanes fail (R360, R463) or, for a store, one unit
is lost (R187). Nothing is sent while an overlapping write or atomic of the cell is unacknowledged (R362). -/
def State.sendFor (s : State) (c : Nat) (r : Req) (type dev : Nat) (f : Frame) (len : Nat) (lanes : List Nat) : State :=
  let busy := (type == ftWrReq || type == ftAtomReq) && s.remoteBusy (RemReq.ofCell c) dev f.addr.toNat len
  if busy then s
  else
    match s.sendReq (some (unitRgn (regionOf c))) (s.cellAcct c) type { f with dst := BitVec.ofNat 16 dev }
        (.lane c r.id (lanes.headD 0)) with
    | some s => (s.flits (regionOf c) len).setLanes c r.id lanes (.sent s.lastTid)
    | none =>
      if type = ftWrReq then (s.lostUnit [c] [(c, r.slot)]).setLanes c r.id lanes (.done 0)
      else s.setLanes c r.id lanes (.failed hrTranslation)

/-- The peer and address of a remote lane. -/
def LaneOp.away (l : LaneOp) : Nat × Nat := match l.tgt with | .peer i d => (i, d) | _ => (0, 0)

/-- The bytes that remote lanes of one store write at one peer, in address order; the highest lane wins (R146). -/
def awayBytes (size : Nat) (l : List LaneOp) : NMap Byte :=
  l.foldl (fun m x => (natLe (2 ^ size) x.a).zipIdx.foldl (fun m e => mapIns m (x.away.2 + e.2) e.1) m) []

/-- R146, R359: the stores of remote lanes: one WR_REQ for each contiguous run at each peer; the L1 lines go. -/
def State.sendStores (s : State) (c : Nat) (r : Req) (size : Nat) : State :=
  let todo := r.todoAway
  s.each ((todo.map (fun l => l.away.1)).eraseDups) (fun s dev =>
    let mine := todo.filter (fun l => l.away.1 == dev)
    s.each (runsOf (awayBytes size mine)) (fun s run =>
      let lanes := mine.filter (fun l => decide (run.1 ≤ l.away.2) && decide (l.away.2 < run.1 + run.2.length))
      let s := s.each lanes (fun s l => s.l1Drop c l.va)
      s.sendFor c r ftWrReq dev { Frame.blank with addr := BitVec.ofNat 64 run.1, data := run.2 } run.2.length
        (lanes.map (·.lane))))

/-- R359: the loads of remote lanes: L1 hits at once, one RD_REQ for each 128-byte line else. -/
def State.sendLoads (s : State) (c : Nat) (r : Req) (n : Nat) : State :=
  let hits := r.todoAway.filter (fun l => ((s.cell c).l1Find l.va).isSome)
  let s := s.each hits (fun s l =>
    match (s.cell c).l1Find l.va with
    | some (_, x) => s.setLane c r.id l.lane (.done (leNat (x.bytes (l.va % 128) n)))
    | none => s)
  let rest := r.todoAway.filter (fun l => !(hits.contains l))
  s.each ((rest.map (fun l => (l.away.1, l.away.2 / 128))).eraseDups) (fun s k =>
    let mine := rest.filter (fun l => l.away.1 == k.1 && l.away.2 / 128 == k.2)
    let f := { Frame.blank with addr := BitVec.ofNat 64 (128 * k.2), arg := 128 }
    (s.cellPmc c 0x04 1).sendFor c r ftRdReq k.1 f 128 (mine.map (·.lane)))

/-- R65, R359: the atomics of remote lanes: one ATOM_REQ for each distinct address. -/
def State.sendAtoms (s : State) (c : Nat) (r : Req) (op size : Nat) (sign : Bool) : State :=
  let todo := r.todoAway
  s.each ((todo.map LaneOp.away).eraseDups) (fun s k =>
    let mine := todo.filter (fun l => l.away == k)
    let data := mine.flatMap (fun l => natLe 8 l.a ++ (if op = opCas then natLe 8 l.b else []))
    let s := s.each mine (fun s l => s.l1Drop c l.va)
    s.sendFor c r ftAtomReq k.1
      { Frame.blank with
        addr := BitVec.ofNat 64 k.2, size := BitVec.ofNat 3 size, sign := sign, aop := BitVec.ofNat 4 (op % 16)
        arg := BitVec.ofNat 32 mine.length, data := data } (2 ^ size) (mine.map (·.lane)))

/-- R359: the full/empty operations of remote lanes: one FE_REQ each. -/
def State.sendFes (s : State) (c : Nat) (r : Req) (op : Nat) : State :=
  s.each r.todoAway (fun s l =>
    let f := { Frame.blank with
      addr := BitVec.ofNat 64 l.away.2, size := 3, aop := BitVec.ofNat 4 (op % 16)
      data := if op = fePutOp ∨ op = feUpdateOp then natLe 8 l.a else [] }
    let s := (s.l1Drop c l.va).sendFor c r ftFeReq l.away.1 f 8 [l.lane]
    if (s.cell c).state == .running then s
    else
      (s.each (s.remote.filter (fun q => q.type == ftFeReq && (match q.svc with
        | .lane c' id ln => c' == c && id == r.id && ln == l.lane
        | _ => false))) State.withdrawRemote).dropLane c r.id l.lane)

/-- The remote lanes of a request sent. -/
def State.sendReq1 (s : State) (c : Nat) (r : Req) : State :=
  match r.kind with
  | .load _ size _ _ => s.sendLoads c r (2 ^ size)
  | .uload _ => s.sendLoads c r 8
  | .store size => s.sendStores c r size
  | .storeNt _ => s
  | .ldres _ _ => s
  | .stcond _ _ => s
  | .atom op _ size sign => s.sendAtoms c r op size sign
  | .fe op _ => s.sendFes c r op

/-- The remote lanes of a request sent as far as its order allows. -/
def State.sendReqs (s : State) (c id : Nat) : State :=
  match s.req c id with
  | none => s
  | some r => if r.todoAway.isEmpty || (s.cell c).reqBlocked r then s else s.sendReq1 c r

/-! ### Performing the lanes of this device -/

/-- R157: what a home operation finds at its home. -/
inductive HomeAns where
  | ok (s : State)
  | fault (s : State) (f : MFault)
  | wait (s : State)

/-- R157, R335: the preparation of a home operation: the L1 line and the block L2 line go, the page answers, the host
gives the line up. -/
def State.homePrep (s : State) (c va : Nat) (t : Target) : HomeAns :=
  match s.l2Evict c t with
  | .wait s => .wait s
  | .done s =>
    let s := s.l1Drop c va
    match s.answerOf t with
    | some f => .fault s f
    | none => if s.biHeld t true then .wait (s.biSnoop t true) else .ok (s.flits (regionOf c) 8)

/-- A lane's load (R150, R190). -/
def State.doLoad (s : State) (c id n : Nat) (alloc : Bool) (l : LaneOp) : State :=
  match (if ((s.cell c).l1Find l.va).isSome || s.l2Fresh c l.tgt then none else s.answerOf l.tgt) with
  | some f => s.setLane c id l.lane (.failed f.halt)
  | none =>
    match s.l1Load c l.va l.tgt n alloc with
    | .done bs s => s.setLane c id l.lane (.done (leNat bs))
    | .wait s => s

/-- A lane's store (R149, R150). -/
def State.doStore (s : State) (c id slot n : Nat) (l : LaneOp) : State :=
  match (if s.l2Fresh c l.tgt then none else s.answerOf l.tgt) with
  | some f => s.setLane c id l.lane (.failed f.halt)
  | none =>
    match s.l1Store c (writerNo c slot l.lane) l.va l.tgt (natLe n l.a) with
    | .done s => s.setLane c id l.lane (.done 0)
    | .wait s => s

/-- A lane's non-temporal store (R169). -/
def State.doStoreNt (s : State) (c id slot n : Nat) (l : LaneOp) : State :=
  match s.combStore c slot l.lane l.va l.tgt (natLe n l.a) with
  | some s => s.setLane c id l.lane (.done 0)
  | none => (match (s.cell c).comb with | e :: _ => s.biSnoop e.tgt true | [] => s)

/-- A lane's reserved load (R159). -/
def State.doLdres (s : State) (c id slot n : Nat) (l : LaneOp) : State :=
  match s.homePrep c l.va l.tgt with
  | .wait s => s
  | .fault s f => s.setLane c id l.lane (.failed f.halt)
  | .ok s =>
    ((s.homeTouch (s.cellAcct c) l.tgt).reserve1 l.tgt c slot l.lane).setLane c id l.lane
      (.done (leNat (s.targetBytes l.tgt n)))

/-- Whether a lane holds a reservation on the granule of a target (R161). -/
def State.reserved (s : State) (t : Target) (c slot lane : Nat) : Bool :=
  s.resv.any (fun r => r.isOf (some (c, slot, lane)) && r.granule == t.granule)

/-- A lane's conditional store (R161): the write-back before it may cost the lane its reservation (R160). -/
def State.doStcond (s : State) (c id slot n : Nat) (l : LaneOp) : State :=
  let clr := fun (s : State) => s.dropResv (fun r => r.isOf (some (c, slot, l.lane)))
  if !s.reserved l.tgt c slot l.lane then (clr s).setLane c id l.lane (.done 0)
  else
    match s.homePrep c l.va l.tgt with
    | .wait s => s
    | .fault s f => (clr s).setLane c id l.lane (.failed f.halt)
    | .ok s =>
      if !s.reserved l.tgt c slot l.lane then (clr s).setLane c id l.lane (.done 0)
      else
        match s.homeWrite (s.cellAcct c) l.tgt (natLe n l.a) (some (c, slot, l.lane)) with
        | some s => (clr (s.hostDrop (s.cellQueue c) l.tgt)).setLane c id l.lane (.done 1)
        | none => s

/-- R65, R66, R160: the atomics of the lanes that name one address, as one operation at its home. -/
def State.doAtom (s : State) (c id slot op size : Nat) (sign : Bool) (ls : List LaneOp) : State :=
  match ls with
  | [] => s
  | l :: _ =>
    match s.homePrep c l.va l.tgt with
    | .wait s => s
    | .fault s f => s.setLanes c id (ls.map (·.lane)) (.failed f.halt)
    | .ok s =>
      let s := s.each ls (fun s x => s.l1Drop c x.va)
      let old := leNat (s.targetBytes l.tgt (2 ^ size))
      let ops := ls.map (fun x => (x.a, x.b))
      let r := atomRun op size sign old ops
      let who := match atomChangers op size sign 0 old ops with
        | [i] => (ls[i]?).map (fun x => (c, slot, x.lane))
        | _ => none
      let out := if r.1 = old then some (s.homeTouch (s.cellAcct c) l.tgt)
        else s.homeWrite (s.cellAcct c) l.tgt (natLe (2 ^ size) r.1) who
      match out with
      | none => s
      | some s => (if r.1 = old then s else s.hostDrop (s.cellQueue c) l.tgt).each (ls.zip r.2) (fun s e => s.setLane c id e.1.lane (.done e.2))

/-- A lane's full/empty operation (R163, R165, R167). -/
def State.doFe (s : State) (c id slot op : Nat) (l : LaneOp) : State :=
  match l.tgt with
  | .dev d =>
    (match s.homePrep c l.va l.tgt with
      | .wait s => s
      | .fault s f => s.setLane c id l.lane (.failed f.halt)
      | .ok s =>
        let lim := s.fld .CFG_SYNC_TIMEOUTS_fe_wait_timeout_ms 0 * 1000000
        match s.feArrive d op l.a (.cell c slot id l.lane) s.now (s.cellAsc c) with
        | (s, .fault f) => s.setLane c id l.lane (.failed f.halt)
        | (s, .notSync) => s.setLane c id l.lane (.failed hrProtection)
        | (s, .served) => s
        | (s, .waits) =>
          if (s.cell c).state == .running then s.setLane c id l.lane (.waiting s.now lim)
          else (s.feWithdraw (fun w => w.src == .cell c slot id l.lane)).dropLane c id l.lane
        | (s, .returned) =>
          if (s.cell c).state == .running then s.setLane c id l.lane (.returned s.now lim) else s.dropLane c id l.lane)
  | _ => s.setLane c id l.lane (.failed hrProtection)

/-- R35: an access of a cell that went out from the block L2 and was answered with a fault: a miss, its flits. -/
def State.faultMiss (s : State) (c : Nat) : State := (s.cellPmc c 0x05 1).flits (regionOf c) 0

/-- The lanes of a load performed: each L1 line that was missing and has its answer counts as one miss, and each of them
that failed as one in the block L2 (R35). -/
def State.doLoads (s : State) (c id n : Nat) (alloc : Bool) (l : List LaneOp) : State :=
  let miss := l.filter (fun x => ((s.cell c).l1Find x.va).isNone)
  let s := s.each l (State.doLoad · c id n alloc ·)
  let now := fun (p : LaneSt → Bool) (x : LaneOp) => match s.req c id with
    | some r => r.lanes.any (fun y => y.lane == x.lane && p y.st)
    | none => false
  let lines := fun (p : LaneSt → Bool) => ((miss.filter (now p)).map (fun x => x.va / 128)).eraseDups
  let bad := fun (x : LaneSt) => match x with | .failed _ => true | _ => false
  let got := fun (x : LaneSt) => match x with | .done _ => true | x => bad x
  (s.cellPmc c 0x04 (lines got).length).each (lines bad) (fun s _ => s.faultMiss c)

/-- Every lane of a request in this device performed as far as it can be, once its port has accepted it. -/
def State.performReq (s : State) (c id : Nat) : State :=
  match s.req c id with
  | none => s
  | some r =>
    let todo := r.todoHere
    let s := s.modCell c (fun x => x.l1Accept id (2 * x.l1Grants))
    match r.kind with
    | .load _ size _ alloc => s.doLoads c id (2 ^ size) alloc todo
    | .uload _ => s.doLoads c id 8 true todo
    | .store size => s.each todo (State.doStore · c id r.slot (2 ^ size) ·)
    | .storeNt size => s.each (r.lanes.filter (fun l => l.st == .todo)) (State.doStoreNt · c id r.slot (2 ^ size) ·)
    | .ldres _ size => s.each todo (State.doLdres · c id r.slot (2 ^ size) ·)
    | .stcond _ size => s.each todo (State.doStcond · c id r.slot (2 ^ size) ·)
    | .atom op _ size sign =>
      s.each ((todo.map (·.tgt)).eraseDups) (fun s t => s.doAtom c id r.slot op size sign (todo.filter (fun l => l.tgt == t)))
    | .fe op _ => s.each todo (State.doFe · c id r.slot op ·)

/-! ### Issue of the memory instructions -/

/-- What the issue stage checks of an F2 instruction, and whether it waits on a translation. -/
def memArg (i : MemI) (p : MemSpec) : IssueArg :=
  { guard := i.g
    bad := firstBad [badIf (!p.legal i) hrIllegal, badIf (p.range i) hrRegRange]
    uses := p.uses i
    mem := true
    pre := fun s c _ g m =>
      match s.memChk c i.size.toNat p.need p.local_ ((lanesOf m).map (fun ln => (ln, memVa g i ln))) with
      | .wait s => some s
      | _ => none }

/-- A request entered for a group that moves on; its remote lanes leave at once. -/
def State.newReq (s : State) (c slot : Nat) (g : Group) (k : ReqKind) (l : List LaneOp) : State :=
  let s := s.setGroup c slot g.adv
  if l.isEmpty then s
  else
    let id := (s.cell c).nextReq
    let s := s.modCell c (fun x => { x with
      nextReq := x.nextReq + 1, reqs := x.reqs ++ [⟨id, slot, k, l, s.now, g.pc.toNat, false,
        s.fld .CFG_MEMORY_crc_retry_limit 0, s.fld .CFG_FAR_TIER_completion_timeout_ms 0, false⟩] })
    (s.sendReqs c id).settle c id

/-- An F2 instruction that accesses memory: checked in every acting lane, then a request of kind `k`; `opnd` gives a
lane's operands. -/
def State.memOp (s : State) (t : GTgt) (i : MemI) (p : MemSpec) (k : ReqKind)
    (opnd : Group → Nat → Nat × Nat) : State :=
  s.issue t (memArg i p) (fun s c slot g m =>
    match s.memChk c i.size.toNat p.need p.local_ ((lanesOf m).map (fun ln => (ln, memVa g i ln))) with
    | .wait s => s
    | .bad s r va => s.haltGroup c slot r (some va)
    | .ok s l =>
      let s := match k with | .storeNt _ => s.each l (fun s e => s.l1Drop c e.2.1) | _ => s
      s.newReq c slot g k (l.map (fun e =>
        let o := opnd g e.1
        ⟨e.1, e.2.1, e.2.2, o.1, o.2, .todo⟩)))

/-- The data operand of a lane: the registers from vd on. -/
def dataOf (i : MemI) (g : Group) (lane : Nat) : Nat × Nat := (g.rd (sizeRegs i.size.toNat) i.vd.toNat lane, 0)

/-- No operand. -/
def noData (_ : Group) (_ : Nat) : Nat × Nat := (0, 0)

/-- What loads, stores, reserved loads and conditional stores allow. -/
def specLd : MemSpec := { sizes := [0, 1, 2, 3, 4], hint := true, sign := true, dst := sizeRegs }
def specSt : MemSpec := { sizes := [0, 1, 2, 3, 4], hint := true, src := sizeRegs, need := .write }
def specLdres : MemSpec := { sizes := [2, 3], dst := sizeRegs, local_ := true }
def specStcond : MemSpec := { sizes := [2, 3], pd := true, src := sizeRegs, need := .write, local_ := true }

/-- LD (R146, R150). -/
def execLd (t : GTgt) (i : MemI) (s : State) : Out :=
  .next (s.memOp t i specLd (.load i.vd.toNat i.size.toNat i.sign (i.hint == 0)) noData)

/-- ST (R146, R149). -/
def execSt (t : GTgt) (i : MemI) (s : State) : Out := .next (s.memOp t i specSt (.store i.size.toNat) (dataOf i))

/-- STNT (R169 to R171). -/
def execStnt (t : GTgt) (i : MemI) (s : State) : Out := .next (s.memOp t i specSt (.storeNt i.size.toNat) (dataOf i))

/-- LDRES (R159): a page that it may read is enough, and on a peer's memory it halts (DEDUCED, DESIGN CHOICE, log entry
22). -/
def execLdres (t : GTgt) (i : MemI) (s : State) : Out :=
  .next (s.memOp t i specLdres (.ldres i.vd.toNat i.size.toNat) noData)

/-- STCOND (R161). -/
def execStcond (t : GTgt) (i : MemI) (s : State) : Out :=
  .next (s.memOp t i specStcond (.stcond i.pd.toNat i.size.toNat) (dataOf i))

/-- ULD (R52): u[ud] takes the 8 bytes at u[ua] + `imm24`. -/
def execUld (t : GTgt) (i : UniI) (s : State) : Out :=
  let legal := guardOk i.g && !i.g.ge && !i.rsv && i.ub == 0 && i.sr == 0
  let va := fun (g : Group) => (BitVec.ofNat 64 (g.ur i.ua.toNat) + i.imm.signExtend 64).toNat
  let a : IssueArg :=
    { guard := i.g
      bad := badIf (!legal) hrIllegal
      uses := ⟨[], [], [i.ud.toNat, i.ua.toNat]⟩
      mem := true
      pre := fun s c _ g _ => match s.memChk c 3 .read false [(0, va g)] with | .wait s => some s | _ => none }
  .next (s.issue t a (fun s c slot g _ =>
    match s.memChk c 3 .read false [(0, va g)] with
    | .wait s => s
    | .bad s r va => s.haltGroup c slot r (some va)
    | .ok s l => s.newReq c slot g (.uload i.ud.toNat) (l.map (fun e => ⟨e.1, e.2.1, e.2.2, 0, 0, .todo⟩))))

/-! ### The scratchpad (R56) -/

/-- The share of the thread block of a group (R56): base and size. -/
def Cell.shareOf (x : Cell) (g : Group) : Nat × Nat := match x.tbOf g with | some t => (t.scrBase, t.scrSize) | none => (0, 0)

/-- R56: the checks of LDS and STS in the acting lanes: alignment first, then the share. -/
def scrBad (sh : Nat × Nat) (size : Nat) (l : List (Nat × Nat)) : Option (Nat × Nat) :=
  match l.find? (fun e => e.2 % 2 ^ size != 0) with
  | some e => some (hrMisaligned, e.2)
  | none => (l.find? (fun e => decide (e.2 < sh.1) || decide (e.2 + 2 ^ size > sh.1 + sh.2))).map (fun e => (hrScratchRange, e.2))

/-- LDS and STS: their turn at the scratchpad ports (R59), then performed; both lie in the command that issues them (log
entry 44). -/
def State.scrOp (s : State) (t : GTgt) (i : MemI) (p : MemSpec) (act : Cell → Group → List (Nat × Nat) → Cell × Group) :
    State :=
  s.issue t { memArg i p with pre := fun _ _ _ _ _ => none } (fun s c slot g m =>
    let l := (lanesOf m).map (fun ln => (ln, memVa g i ln))
    match scrBad ((s.cell c).shareOf g) i.size.toNat l with
    | some (r, a) => s.haltGroup c slot r (some a)
    | none =>
      let r := act (s.cell c).scrGrant g.adv l
      (s.setCell c r.1).setGroup c slot r.2)

/-- LDS (R56). -/
def execLds (t : GTgt) (i : MemI) (s : State) : Out :=
  let n := i.size.toNat
  .next (s.scrOp t i { sizes := [0, 1, 2, 3, 4], sign := true, dst := sizeRegs } (fun x g l =>
    (x, g.wrs (sizeRegs n) i.vd.toNat (l.map (fun e => (e.1, loadVal n i.sign (leNat (bytesAt x.scr e.2 (2 ^ n)))))))))

/-- STS (R56). -/
def execSts (t : GTgt) (i : MemI) (s : State) : Out :=
  let n := i.size.toNat
  .next (s.scrOp t i { sizes := [0, 1, 2, 3, 4], src := sizeRegs } (fun x g l =>
    (l.foldl (fun x e => x.scrPut e.2 (natLe (2 ^ n) (dataOf i g e.1).1)) x, g)))

/-! ### Atomics and full/empty operations -/

/-- What an atomic allows: `sign` for the minimum and maximum; a compare-and-swap reads two operands. -/
def specAtom (op : Nat) : MemSpec :=
  { sizes := [2, 3], sign := op == opMin || op == opMax, need := .write, dst := sizeRegs
    src := fun n => if op = opCas then 2 * sizeRegs n else sizeRegs n }

/-- An atomic instruction (R65, R66). -/
def State.atomic (s : State) (t : GTgt) (i : MemI) (op : Nat) : State :=
  let n := sizeRegs i.size.toNat
  s.memOp t i (specAtom op) (.atom op i.vd.toNat i.size.toNat i.sign)
    (fun g ln => (g.rd n i.vd.toNat ln, if op = opCas then g.rd n (i.vd.toNat + n) ln else 0))

/-- ATOM_ADD (R66). -/
def execAtomAdd (t : GTgt) (i : MemI) (s : State) : Out := .next (s.atomic t i opAdd)
/-- ATOM_MIN (R66). -/
def execAtomMin (t : GTgt) (i : MemI) (s : State) : Out := .next (s.atomic t i opMin)
/-- ATOM_MAX (R66). -/
def execAtomMax (t : GTgt) (i : MemI) (s : State) : Out := .next (s.atomic t i opMax)
/-- ATOM_AND (R66). -/
def execAtomAnd (t : GTgt) (i : MemI) (s : State) : Out := .next (s.atomic t i opAnd)
/-- ATOM_OR (R66). -/
def execAtomOr (t : GTgt) (i : MemI) (s : State) : Out := .next (s.atomic t i opOr)
/-- ATOM_XOR (R66). -/
def execAtomXor (t : GTgt) (i : MemI) (s : State) : Out := .next (s.atomic t i opXor)
/-- ATOM_EXCH (R66). -/
def execAtomExch (t : GTgt) (i : MemI) (s : State) : Out := .next (s.atomic t i opExch)
/-- ATOM_CAS (R66). -/
def execAtomCas (t : GTgt) (i : MemI) (s : State) : Out := .next (s.atomic t i opCas)
/-- ATOM_FADD (R66). -/
def execAtomFadd (t : GTgt) (i : MemI) (s : State) : Out := .next (s.atomic t i opFadd)

/-- A full/empty instruction (R163, R165). -/
def State.fullEmpty (s : State) (t : GTgt) (i : MemI) (op : Nat) : State :=
  let w := op == fePutOp || op == feUpdateOp
  s.memOp t i
    { sizes := [3], vd := w || feReturns op, src := fun _ => if w then 2 else 0
      dst := fun _ => if feReturns op then 2 else 0, need := if feWrites op then .write else .read }
    (.fe op i.vd.toNat) (fun g ln => if w then (g.rd 2 i.vd.toNat ln, 0) else (0, 0))

/-- FE_TAKE (R163). -/
def execFeTake (t : GTgt) (i : MemI) (s : State) : Out := .next (s.fullEmpty t i feTakeOp)
/-- FE_PEEK (R163). -/
def execFePeek (t : GTgt) (i : MemI) (s : State) : Out := .next (s.fullEmpty t i fePeekOp)
/-- FE_PUT (R163). -/
def execFePut (t : GTgt) (i : MemI) (s : State) : Out := .next (s.fullEmpty t i fePutOp)
/-- FE_UPDATE (R163). -/
def execFeUpdate (t : GTgt) (i : MemI) (s : State) : Out := .next (s.fullEmpty t i feUpdateOp)
/-- FE_CLEAR (R163). -/
def execFeClear (t : GTgt) (i : MemI) (s : State) : Out := .next (s.fullEmpty t i feClearOp)

end Sys2Proof.Machine
end

