-- ==== Sys2Proof/Machine/CellEvents.lean ====
section
/-!
DEFINITION. What reaches a cell from outside its program: answers to its requests and the findings of its arrays (R192 to
R195, R222, R428, R463), resent full/empty operations (R167), and its timeouts (R71, R168, R170, R186).
-/

namespace Sys2Proof.Machine

/-! ### Findings of the arrays -/

/-- R195: every cell of a block that runs the block's kernel halts with ECC_UNCORRECTABLE; where none runs it any more,
the front end fails the kernel that ends there. -/
def State.haltBlock (s : State) (b : Nat) : State :=
  let cs := (cellsOfBlock b).filter (fun c => !(s.cell c).tbs.isEmpty)
  if cs.isEmpty then s.abortKernel (s.block b).kern (0x5000 + hrEcc) false
  else s.each cs (fun s c => s.haltOwn c hrEcc 0 none)

/-- R194, R195: a block L2 line invalidated: its dirty bytes are written back; while that has to wait, the line stays
with them alone, stale for every cell. -/
def State.l2Refetch (s : State) (b key : Nat) (l : CLine) : State :=
  match s.lineOut b ((s.kernel? (s.block b).kern).map (·.acct)) l with
  | .done s => s.l2Put b key none
  | .wait s =>
    let data := l.dirty.foldl (fun d e => mapSet 0 d e.1 (mapGet 0 l.data e.1)) (lineData (s.homeLine (lineTarget l.addr)))
    s.l2Put b key (some { l with data := data, stale := 511 })

/-- R194, R195: dirty words of a block L2 line lost (those with a byte that `bad` picks), each counted; the others are
written back, the line is invalidated, the address of the last word recorded, the block's cells halt. -/
def State.l2DirtyLost (s : State) (b : Nat) (t : Target) (bad : Nat → Bool) : State :=
  match s.l2Find b t with
  | none => s
  | some (key, l) =>
    let words := ((l.dirty.filter (fun e => bad e.1)).map (fun e => e.1 / 8)).eraseDups
    match words.getLast? with
    | none => s
    | some w =>
      let s := s.l2Refetch b key { l with dirty := l.dirty.filter (fun e => !bad e.1) }
      let base := (lineTarget l.addr)
      let s := s.satFld .BLK_L2_ECC_dirty_lost b words.length
      let s := s.setFlds b [(.BLK_L2_ERR_ADDR_addr, base.addr + 8 * w),
        (.BLK_L2_ERR_ADDR_host, match base with | .host _ => 1 | _ => 0), (.BLK_L2_ERR_ADDR_valid, 1)]
      s.haltBlock b

/-- The target of the line of a block L2 by its number (R190), a host line from 2^45 on. -/
def l2Line (n : Nat) : Target := lineTarget n

/-- R70, R419: a cell halts for an uncorrectable error of its own arrays and is marked for isolation. -/
def State.haltArray (s : State) (c slot : Nat) (addr : Option Nat) : State :=
  (s.haltOwn c hrEcc slot addr).markIsolate c

/-- R194: a block L2 way with a tag parity error, counted: its line is invalidated, and dirty bytes in it are lost. -/
def State.l2TagBad (s : State) (b key : Nat) : State :=
  let s := s.satFld .BLK_L2_ECC_tag_parity b 1
  match mapFind (s.block b).l2.lines key with
  | none => s
  | some l => if l.dirty.isEmpty then s.l2Put b key none else s.l2DirtyLost b (l2Line l.addr) (fun _ => true)

/-- R194, R195: a shared-cache line in error dropped where it is clean; a dirty one is a fatal stop. -/
def State.scdBad (s : State) (j key : Nat) : State :=
  match mapFind (s.scd j).lines key with
  | none => s
  | some l =>
    if l.dirty.isEmpty then s.setScd j { s.scd j with lines := mapErase (s.scd j).lines key } else s.fatalStop 0x0202 (28 + j)

/-- R193 to R195: what the home shared-cache die finds on its lookup of a target's line. -/
def State.scdFinding (s : State) (t : Target) (a : Answer) : State :=
  let j := homeOf t.addr
  let set := t.addr / 128 % 98304
  match a with
  | .scdCorrected => s.satFld .RAS_SCD_ECC_corrected j 1
  | .scdTagParity way => (s.satFld .RAS_SCD_ECC_tag_parity j 1).scdBad j (set * 16 + way.val)
  | .scdUncorrectable =>
    (match (s.scd j).wayOf set 16 t.line with
      | some w =>
        let clean := match mapFind (s.scd j).lines (set * 16 + w) with | some l => l.dirty.isEmpty | none => true
        (if clean then s.satFld .RAS_SCD_ECC_refetched j 1 else s).scdBad j (set * 16 + w)
      | none => s)
  | _ => s

/-- R193 to R195: what an array finding does: `l1` drops the line in the cell's own cache, or a way of its set; `t` is
the line in the block L2 and in its home shared cache. -/
def State.finding (s : State) (c : Nat) (l1 : Option Nat → State → State) (t : Option Target) (a : Answer) : State :=
  let b := blockOf c
  let found := t.bind (fun t => s.l2Find b t)
  match a with
  | .l1Corrected => s.satFld .CEL_ECC_COUNT_corrected c 1
  | .regfileCorrected => s.satFld .CEL_ECC_COUNT_corrected c 1
  | .l1TagParity => (l1 none s).satFld .CEL_ECC_COUNT_tag_parity c 1
  | .l1TagParityWay w => (l1 (some w.val) s).satFld .CEL_ECC_COUNT_tag_parity c 1
  | .l1Refetched => (l1 none s).satFld .CEL_ECC_COUNT_refetched c 1
  | .l1RefetchFailed => (l1 none s).haltArray c 0 none
  | .l2Corrected => s.satFld .BLK_L2_ECC_corrected b 1
  | .l2TagParityClean => (match found with | some x => s.l2TagBad b x.1 | none => s.satFld .BLK_L2_ECC_tag_parity b 1)
  | .l2TagParityDirty n =>
    (s.satFld .BLK_L2_ECC_tag_parity b 1).l2DirtyLost b (l2Line n) (fun _ => true)
  | .l2TagParityWay w => (match t with | some t => s.l2TagBad b (t.addr / 128 % 1024 * 8 + w.val) | none => s)
  | .l2Refetched =>
    (match found with | some x => s.l2Refetch b x.1 x.2 | none => s).satFld .BLK_L2_ECC_refetched b 1
  | .l2DirtyUncorrectable n w => s.l2DirtyLost b (l2Line n) (fun o => o / 8 == w)
  | .scdCorrected => (match t with | some t => s.scdFinding t a | none => s)
  | .scdTagParity _ => (match t with | some t => s.scdFinding t a | none => s)
  | .scdUncorrectable => (match t with | some t => s.scdFinding t a | none => s)
  | .scratchCorrected => s.satFld .CEL_ECC_COUNT_corrected c 1
  | .scratchUncorrectable addr => s.haltArray c 0 (some addr)
  | .regfileUncorrectable slot => s.haltArray c slot.val none
  | .ok _ => s
  | .targetReset => s
  | .staleEpoch => s

/-! ### Answers -/

/-- R428: the halt reason of a TARGET_RESET from the location of a target. -/
def State.resetReason (s : State) (t : Target) : Nat :=
  match t with
  | .dev d => if (s.loc (d / 65536)).loc < 12 then hrEcc else hrFarTier
  | _ => hrTranslation

/-- The requests of a cell tried again: remote lanes that may now leave, and what ends. -/
def State.retryReqs (s : State) (c : Nat) : State :=
  s.each ((s.cell c).reqs.map (·.id)) (fun s id => (s.sendReqs c id).settle c id)

/-- Requests, barriers and streams of a cell looked at again. -/
def State.cellPoll (s : State) (c : Nat) : State := (s.retryReqs c).streamPoll planOf c

/-- What follows an answer in a cell: the watchdog restarts (R71), requests, barriers and streams are looked at again. -/
def State.cellAnswered (s : State) (c : Nat) : State :=
  (s.modCell c (fun x => { x with progress := s.wdUntil })).cellPoll c

/-- R35: the misses and flits of a request's line that was read uncorrectably. -/
def State.badMiss (s : State) (c : Nat) (q : Req) : State :=
  let s := if q.kind.cls = 0 then s.cellPmc c 0x04 1 else s
  (if q.kind.cls = 3 then s else s.cellPmc c 0x05 1).flits (regionOf c) 0

/-- The result of a read of a line, `bad` where it is uncorrectable: then the lanes that wait for the line fail. -/
def State.reqLineRead (c : Nat) (q : Req) (line : Nat) (x : State × Bool) : State :=
  if x.2 then
    (x.1.badMiss c q).setLanes c q.id ((q.todoHere.filter (fun y => y.tgt.line == line)).map (·.lane)) (.failed hrEcc)
  else x.1

/-- R222: what the memory reports for one of the lines, in the order of lanes, that a request still waits for and that
go to memory; of the others those found uncorrectable before (log entry 53); lanes of a line read uncorrectably fail. -/
def State.memReport (s : State) (c : Nat) (q : Req) (r : ReadOutcome) : State :=
  let todo := q.todoHere.filter (s.goesOut c)
  let lines := (todo.map (·.tgt.line)).eraseDups
  let p := readPlace r
  s.each lines (fun s n =>
    match todo.find? (fun l => l.tgt.line == n) with
    | none => s
    | some l => State.reqLineRead c q n (if lines[p.1]? = some n then s.readTarget l.tgt p.2 q.crcLim else s.takeBad1 l.tgt))

/-- The answer to a request of a cell. -/
def State.replyData (s : State) (c id : Nat) (a : Answer) : State :=
  let l := (s.req c id).bind (fun q => q.todoHere.head?)
  let drop := fun (w : Option Nat) (s : State) =>
    match l, w with
    | some x, some w => s.modCell c (fun y => { y with l1 := { y.l1 with lines := mapErase y.l1.lines (x.va / 128 % 128 * 4 + w) } })
    | some x, none => s.l1Drop c x.va
    | none, _ => s
  match a with
  | .staleEpoch => s
  | .ok r =>
    (match s.req c id with
      | none => s
      | some q =>
        if (s.cell c).reqBlocked q then s
        else ((((s.memReport c q r).performReq c id).sendReqs c id).settle c id).cellAnswered c)
  | .targetReset =>
    (match s.req c id, l with
      | some q, some x =>
        let hit := q.todoHere.filter (fun y => s.resetReason y.tgt == s.resetReason x.tgt)
        ((s.setLanes c id (hit.map (·.lane)) (.failed (s.resetReason x.tgt))).settle c id).cellAnswered c
      | _, _ => s)
  | a => (s.finding c drop (l.map (·.tgt)) a).cellPoll c

/-! ### Instruction and macro-op fetch -/

/-- A line brought into the instruction cache through the block L2 (R190, R198). -/
def State.icFill (s : State) (c va : Nat) (t : Target) : State :=
  if (s.cell c).ic.lines.any (fun e => e.2.addr == va / 128) then s
  else
    match s.l2Ensure c t with
    | .wait s => s
    | .done s =>
      let bs := match s.l2Find (blockOf c) t with | some (_, l) => l.bytes 0 128 | none => []
      s.modCell c (fun x =>
        let set := va / 128 % 64
        let p := x.ic.pick set 4
        { x with ic := ⟨p.2, mapIns x.ic.lines (set * 4 + p.1) ⟨va / 128, lineData bs, [], 0, 0⟩⟩ })

/-- The instruction-cache line of an address invalidated, or a way of its set. -/
def State.icDrop (s : State) (c va : Nat) (way : Option Nat) : State :=
  s.modCell c (fun x => { x with ic := { x.ic with lines :=
    match way with
    | some w => mapErase x.ic.lines (va / 128 % 64 * 4 + w)
    | none => x.ic.lines.filter (fun e => e.2.addr != va / 128) } })

/-- How a fetch of an address ends (R235, R236, R240, R359, R428). -/
inductive FetchAns where
  | ok (s : State)
  | bad (s : State) (reason : Nat)
  | wait (s : State)

/-- A fetch of an address by a cell: translated for execution, answered, and brought into the instruction cache. -/
def State.fetchAt (s : State) (c va : Nat) (a : Answer) : FetchAns :=
  match s.access (regionOf c) (s.cellAsc c) va .exec with
  | (.error (.wait _), s) => .wait s
  | (.error f, s) => .bad s f.halt
  | (.ok t, s) =>
    if t.isPeer then .bad s hrProtection
    else
      let cached := (s.cell c).ic.lines.any (fun e => e.2.addr == va / 128)
      let held := cached || s.l2Fresh c t
      match (if held then none else s.answerOf t) with
      | some f => .bad (s.faultMiss c) f.halt
      | none =>
        match a with
        | .ok r =>
          let x := if held then (s, false) else s.readTarget t r
          if x.2 then .bad (x.1.faultMiss c) hrEcc else .ok (x.1.icFill c va t)
        | .targetReset => .bad s (s.resetReason t)
        | .staleEpoch => .wait s
        | a => .wait (s.finding c (fun w s => s.icDrop c va w) (some t) a)

/-- R51, R52: whether an operation is listed for a format. -/
def opListed (fmt op : Nat) : Bool :=
  match fmt with
  | 0 => decide (op ≤ 0x14) || (decide (0x20 ≤ op) && decide (op ≤ 0x2E)) || (decide (0x38 ≤ op) && decide (op ≤ 0x3C))
      || (decide (0x40 ≤ op) && decide (op ≤ 0x47)) || op == 0x50 || op == 0x58 || op == 0x59
  | 1 => decide (op ≤ 0x14) || (decide (0x20 ≤ op) && decide (op ≤ 0x2D)) || (decide (0x38 ≤ op) && decide (op ≤ 0x3C))
      || (decide (0x60 ≤ op) && decide (op ≤ 0x62))
  | 2 => decide (op ≤ 6) || (decide (0x10 ≤ op) && decide (op ≤ 0x18)) || (decide (0x20 ≤ op) && decide (op ≤ 0x24))
  | 3 => decide (op ≤ 6)
  | 4 => decide (op ≤ 6)
  | 5 => decide (op ≤ 4) || (decide (8 ≤ op) && decide (op ≤ 0x0B)) || (decide (0x10 ≤ op) && decide (op ≤ 0x13))
      || op == 0xF0 || op == 0xF1
  | _ => false

/-- The answer to a group's instruction fetch: a fault halts the cell, and so does a word with no listed operation
(R51). -/
def State.replyFetch (s : State) (c slot : Nat) (w : DWord) (a : Answer) : State :=
  let x := s.cell c
  match s.group c slot with
  | none => s
  | some g0 =>
    if x.state != .running || g0.ended || g0.wait != .none || x.feOut slot then s
    else
      let g := g0.reconv
      match s.fetchAt c g.pc.toNat a with
      | .wait s => s
      | .bad s r =>
        s.haltCell c ⟨r, if r = hrEcc then 3 else 0, slot, g.active, g.pc.toNat, some g.pc.toNat, false, x.nextReq⟩
      | .ok s =>
        if opListed (bits w.toNat 0 3) (bits w.toNat 3 8) then s.cellAnswered c
        else s.haltCell c ⟨hrIllegal, 0, slot, g.active, g.pc.toNat, none, false, x.nextReq⟩

/-- The answer to a stream's macro-op fetch (R76): a fault halts the cell, and so does a word whose operation is not
listed (R80). A stream whose END is in progress with a push held still fetches, with these halts (DESIGN CHOICE, log
entry 43). -/
def State.replyMacro (s : State) (c : Nat) (st : Stream) (op : Nat) (a : Answer) : State :=
  let y := s.stream c st
  if (s.cell c).state != .running || !y.started || y.ended || y.append || y.head.isSome then s
  else
    match s.fetchAt c y.mpc a with
    | .wait s => s
    | .bad s r => s.haltStream c st y.mpc r (some y.mpc) false
    | .ok s =>
      if (macroFields op).isSome then s.cellAnswered c
      else s.haltStream c st y.mpc hrTileBad none false

/-- MEMORY_REPLY (R193 to R195, R222, R428, R463): an answer reaches a cell; in an orderly power-down that of a store,
which is drained (R185). -/
def execMemoryReply (c : CellId) (r : Reply) (s : State) : Out :=
  let c := cellNo c
  let store := match r with
    | .data id _ => (match s.req c id with | some q => q.kind.cls == 1 || q.kind.cls == 2 | none => false)
    | _ => false
  .next (
    if !s.alive && !(s.serves && store) then s
    else
      match r with
      | .data id a => s.replyData c id a
      | .ifetch slot w a => s.replyFetch c slot.val w a
      | .mfetch st op a => s.replyMacro c st op.toNat a)

/-! ### Full/empty operations sent again, and their timeout -/

/-- FE_RESEND (R167): the returned lanes of a request sent again; their timeout runs on. The watchdog interval restarts,
since a full/empty wait was outstanding until now (R71). -/
def execFeResend (c : CellId) (id : Nat) (s : State) : Out :=
  let c := cellNo c
  .next (
    match s.req c id with
    | none => s
    | some q =>
      match q.kind with
      | .fe op _ =>
        let back := q.lanes.filter (fun l => match l.st with | .returned _ _ => true | _ => false)
        if !s.alive then s
        else
          ((s.each back (fun s l =>
            match l.st, l.tgt with
            | .returned since lim, .dev d =>
              (match s.homePrep c l.va l.tgt with
                | .wait s => s
                | .fault s f => s.setLane c id l.lane (.failed f.halt)
                | .ok s =>
                  match s.feArrive d op l.a (.cell c q.slot id l.lane) since (s.cellAsc c) with
                    | (s, .fault f) => s.setLane c id l.lane (.failed f.halt)
                    | (s, .notSync) => s.setLane c id l.lane (.failed hrProtection)
                    | (s, .served) => s
                    | (s, .waits) => s.setLane c id l.lane (.waiting since lim)
                    | (s, .returned) => s)
            | _, _ => s)).settle c id).cellAnswered c
      | _ => s)

/-- R168: whether a lane's full/empty wait has run out. -/
def State.feLate (s : State) (l : LaneOp) : Bool :=
  match l.st with
  | .waiting since lim => decide (lim ≠ 0) && decide (s.now ≥ since + lim)
  | .returned since lim => decide (lim ≠ 0) && decide (s.now ≥ since + lim)
  | .sent tid => s.remote.any (fun r => r.tid == tid && decide (r.lim ≠ 0) && decide (s.now ≥ r.since + r.lim))
  | _ => false

/-- FE_WAIT_TIMEOUT (R168): the cell halts; its waiting operations are withdrawn. -/
def execFeWaitTimeout (c : CellId) (id : Nat) (s : State) : Out :=
  let c := cellNo c
  .next (
    match s.req c id with
    | none => s
    | some q =>
      match q.kind, q.lanes.find? s.feLate with
      | .fe _ _, some l =>
        if !s.alive then s
        else
          let m := match s.group c q.slot with | some g => g.active | none => 0
          s.haltCell c ⟨hrFeTimeout, 0, q.slot, m, q.pc, some l.va, false, id⟩
      | _, _ => s)

/-! ### Watchdog -/

/-- WATCHDOG (R71, R419): a cell with resident groups halts when its interval runs out; the second time it is marked for
isolation. -/
def execWatchdog (c : CellId) (s : State) : Out :=
  let c := cellNo c
  let x := s.cell c
  .next (
    if !s.alive || x.state != .running || x.tbs.isEmpty || (List.range 16).any x.feOut || decide (s.now < x.progress)
    then s
    else
      let s := (s.haltOwn c hrWatchdog 0 none).modCell c (fun x => { x with wdogs := x.wdogs + 1 })
      if (s.cell c).wdogs ≥ 2 then s.markIsolate c else s)

/-! ### Timeouts of stores -/

/-- COMBINING_ENTRY_IDLE_FLUSH (R170): an entry that has received no store for 2 µs flushes. -/
def execCombiningEntryIdleFlush (c : CellId) (line : Nat) (s : State) : Out :=
  let c := cellNo c
  .next (
    match (s.cell c).comb.find? (fun e => e.va / 128 == line) with
    | none => s
    | some e =>
      if !s.alive || decide (s.now < e.last + 2000) then s
      else
        match s.combFlush c e with
        | some s => s.streamPoll planOf c
        | none => s.biSnoop e.tgt true)

/-- R186: whether a wait for certain stores of a cell, which began at `at` or were there before the wait, has reached
its limit: the barrier of a group, by its slot, its scope and the first request that came after it, where `on` says that
it waits for them; its block's kernel end; the drain of its region or of the device. -/
def State.storeDue (s : State) (c : Nat) (on : Nat → Nat → Nat → Bool) (at_ : Nat := 0) : Bool :=
  let bars := (s.cell c).groups.filterMap (fun e =>
    match e.2.wait with | .membar n t u b => if on e.1 n u then some (max b at_ + (t - b)) else none | _ => none)
  let ends := if (s.block (blockOf c)).owes then [(s.block (blockOf c)).endAt] else []
  let down := match mapGet 0 s.drainAt (regionOf c) with | 0 => [] | t + 1 => [t]
  let off := if s.pwr.offReq && !s.pwr.offRdy then [s.pwr.offLim] else []
  (bars ++ ends ++ down ++ off).any (fun t => decide (s.now ≥ t))

/-- R154, R186: whether a barrier waits for the stores of a request: those still here, those at a peer. -/
def Req.heldBy (q : Req) (slot scope upto : Nat) : Bool :=
  slot == q.slot || (decide (q.id < upto) &&
    ((decide (scope ≥ 3) && q.lanes.any (fun l => l.tgt.isPeer))
      || (decide (scope ≥ 2) && q.lanes.any (fun l => match l.tgt with | .host _ => true | _ => false))))
def Req.sentFor (q : Req) (_slot scope upto : Nat) : Bool := decide (scope ≥ 3) && decide (q.id < upto)

/-- R186, R187: the stores of a request that no answer has reached are lost, those at a peer and those still here: one
unit for each unanswered WR_REQ and for each line of this device. -/
def State.loseStores (s : State) (c : Nat) (q : Req) (away here : Bool) : State :=
  let sent := fun (l : LaneOp) => away && (match l.st with | .sent _ => true | _ => false)
  let tids := (q.lanes.filterMap (fun l => match l.st with | .sent tid => if away then some tid else none | _ => none)).eraseDups
  let s := s.each tids (fun s tid => (s.lostUnit [c] [(c, q.slot)]).endReq tid true)
  let s := s.setLanes c q.id ((q.lanes.filter sent).map (·.lane)) (.done 0)
  let todo := if here then (q.lanes.filter (fun l => l.st == .todo)).map (·.lane) else []
  (s.setLanes c q.id todo (.failed hrTranslation)).settle c q.id

/-- R186, R187: the combining entries of a cell that have waited to a limit and cannot leave are lost. -/
def State.loseComb (s : State) (c : Nat) (due : Nat → Bool) : State :=
  s.each ((s.cell c).comb.filter (fun e => due e.first)) (fun s e =>
    match s.combFlush c e with
    | some s => s
    | none =>
      let s := s.modCell c (fun x => { x with comb := x.comb.filter (fun y => y.va != e.va) })
      ((s.mayLand e.lostBytes).lostUnit [c] (e.groups c)).l1Drop c e.va)

/-- R186, R187: the dirty bytes of the block L2 lines that a cell wrote to, that have waited to a limit and that cannot
leave are lost. -/
def State.loseL2 (s : State) (c : Nat) (due : Nat → Bool) : State :=
  let b := blockOf c
  s.each ((s.block b).l2.lines.filter (fun e => due e.2.time && e.2.dirty.any (fun x => x.2.testBit (c % 9)))) (fun s e =>
    match s.lineOut b (s.cellAcct c) e.2 with
    | .done s => s.l2Put b e.1 (some { e.2 with dirty := [] })
    | .wait s =>
      let m := e.2.dirty.foldl (fun a x => a ||| x.2) 0
      let cs := ((List.range 9).filter (fun i => m.testBit i)).map (fun i => 9 * b + i)
      ((s.l2Put b e.1 (some { e.2 with dirty := [] })).mayLand e.2.lostBytes).lostUnit cs (cs.flatMap s.groupsOf))

/-- A TSTORE whose bytes have not all been accepted; it has read them when it started (log entry 15). -/
def InProg.storing (p : InProg) : Bool := p.sw.op == 0x11 && !p.tiles.isEmpty

/-- R186, R187: the TSTOREs of a cell that have waited to a limit and cannot be accepted are lost. -/
def State.loseTiles (s : State) (c : Nat) (due : Nat → Bool) : State :=
  s.each ((s.cell c).sa.prog.filter (fun p => p.storing && due p.time)) (fun s p => s.storeLose c .access p)

/-- R186: what waits of a cell have waited for to their limit is lost: combining entries, dirty L2 bytes, and TSTOREs
past their completion point. -/
def State.loseHeld (s : State) (c : Nat) : State :=
  let any := fun (a : Nat) => s.storeDue c (fun _ _ _ => true) a
  let far := fun (a : Nat) => s.storeDue c (fun _ n _ => decide (n ≥ 1)) a
  let done := (s.cell c).sa.prog.filter (fun p => p.storing && p.done && far p.time)
  ((s.loseComb c any).loseL2 c far).each done (fun s p => s.storeLose c .access p)

/-- The groups that a flush at a peer is charged to (R187). -/
def RemReq.charged (r : RemReq) : List (Nat × Nat) :=
  match r.svc with
  | .flush c _ m => ((List.range 16).filter (fun i => m.testBit i)).map (fun i => (c, i))
  | _ => []

/-- R186: the flush of a combining entry that its peer has not acknowledged lost. -/
def State.loseFlush (s : State) (c : Nat) (r : RemReq) : State := (s.endReq r.tid true).lostUnit [c] r.charged

/-! ### Draining a cell (R185) -/

/-- R185: the buffers of a cell drained as far as they go: its store buffer, its combining buffer, its TSTOREs. An older
load holds nothing back, since the drain waits for no answer but a store's. -/
def State.drainCell (s : State) (c : Nat) : State :=
  let s := s.each ((s.cell c).reqs.filter (fun r => r.kind.cls == 1 || r.kind.cls == 2)) (fun s r =>
    match s.req c r.id with
    | some q =>
      if (s.cell c).storeBlocked q then s
      else
        let s := s.performReq c q.id
        (match s.req c q.id with | some q => s.sendReq1 c q | none => s).settle c q.id
    | none => s)
  let s := (s.combFlushAll c).1
  s.each ((s.cell c).sa.prog.filter InProg.storing) (fun s p => s.storeEnd c .access p)

/-- Whether nothing is left in a cell's buffers, at peers included. -/
def State.cellDrained (s : State) (c : Nat) : Bool :=
  !(s.cell c).storesLeft && (s.cell c).comb.isEmpty && (s.remoteStores c).isEmpty && !(s.cell c).sa.prog.any InProg.storing

/-- R185, R186: what is left in a cell's buffers lost. -/
def State.drainLose (s : State) (c : Nat) : State :=
  let s := s.each ((s.cell c).reqs.filter (fun r => r.kind.cls == 1 || r.kind.cls == 2)) (fun s q => s.loseStores c q true true)
  let s := s.each ((s.remoteStores c).filter (fun r => match r.svc with | .flush _ _ _ => true | _ => false)) (fun s r =>
    s.loseFlush c r)
  ((s.loseComb c (fun _ => true)).loseL2 c (fun _ => true)).loseTiles c (fun _ => true)

/-- Lanes at a peer that have waited too long fail (R360). -/
def State.failAway (s : State) (c : Nat) (q : Req) (late : LaneOp → Bool) : State :=
  let ls := q.lanes.filter late
  let s := s.each ls (fun s l => match l.st with | .sent tid => s.endReq tid true | _ => s)
  (s.setLanes c q.id (ls.map (·.lane)) (.failed hrTranslation)).settle c q.id

end Sys2Proof.Machine
end

