-- ==== Sys2Proof/Machine/Fence.lean ====
section
/-!
DEFINITION. Fences: signals, forces, waits (R291 to R298).
-/

namespace Sys2Proof.Machine

/-- R294: whether a wait for a value is satisfied by a fence: the signed 64-bit difference is at least zero. -/
def fenceSat (fence value : Nat) : Bool := decide ((fence + (2 ^ 64 - value % 2 ^ 64)) % 2 ^ 64 < 2 ^ 63)

/-- R294: every waiter of a fence is tested; the satisfied ones complete. -/
def State.fenceTest (s : State) (f : Nat) : State :=
  let v := s.fld .CFE_FENCE_VALUE_value f
  s.each (s.pool.filter (fun p => p.waitsFence f && fenceSat v (p.b 16 8))) (fun s p => s.endPkt p 0)

/-- A fence takes a value, and its waiters are tested. -/
def State.fenceSet (s : State) (f v : Nat) : State := (s.setFld .CFE_FENCE_VALUE_value f v).fenceTest f

/-- R293: a signal applied to a fence of this device, and whether it was stale. -/
def State.fenceSignal (s : State) (f v : Nat) : State × Bool :=
  let d := sgn 64 (v + (2 ^ 64 - s.fld .CFE_FENCE_VALUE_value f))
  if d > 0 then (s.fenceSet f v, false)
  else if d = 0 then (s, false)
  else ((s.addFld .CFE_FENCE_STALE_COUNT_count 0 1).satFld .CFE_FENCE_STATUS_stale f 1, true)

/-- FENCE_FORCE: R296. -/
def execFenceForce (f : Fin 4096) (v : DWord) (s : State) : Out :=
  if s.alive then .next ((s.setFld .CFE_FENCE_FORCE_value f v.toNat).fenceSet f v.toNat) else .next s

end Sys2Proof.Machine
end

