-- ==== Sys2Proof/Machine/Steps.lean ====
section
/-!
DEFINITION. Steps that read and write memory: their accesses (R308), their writes (R153), the pieces of COPY and FILL
(R211, R275, R282), and the replies of peers to them (R360).
-/

namespace Sys2Proof.Machine

/-- How a part of a step ends: done, waiting for the host, or failed with a code. -/
inductive StepAns where
  | ok (s : State)
  | wait (s : State)
  | fail (s : State) (code : Nat)

/-- The code of a step whose peer answers with a status (R360). -/
def stepStatus (st : Nat) : Nat :=
  if st = 1 ∨ st = 6 then fcRemoteDenied else if st = 4 then fcRemoteUnreachable else fcRemoteError

/-- The tag that a step's bytes are charged to: dumps and firmware are charged to none (R314). -/
def Pkt.tag (p : Pkt) : Option Nat := if p.opcode = 0x88 ∨ p.opcode = 0x8A then none else some p.acct

/-- R186: whether a step's completion waits for its writes up to a limit: COPY, FILL, COLLECTIVE. -/
def Pkt.limited (p : Pkt) : Bool := p.opcode == 0x02 || p.opcode == 0x03 || p.opcode == 0x0B

/-- R186: a write of a step begins to wait for the host to give up a line, where it does not yet. -/
def State.holdMark (s : State) (p : Pkt) : State :=
  if p.limited then
    s.modPkt p.q p.seq (fun x => if x.held = 0 then { x with held := s.now + s.deadNs (s.qState p.q == qDraining) + 1 } else x)
  else s

/-- R186: whether a step's held write has waited to its limit. -/
def State.holdOver (s : State) (p : Pkt) : Bool := p.held != 0 && decide (s.now + 1 ≥ p.held)

/-- What a part of a step that has to wait leaves: the snoops it caused (R335) and the beginnings of its waits (R186). -/
def State.waited (s s' : State) : State :=
  { s with
    hif := s'.hif
    pool := s.pool.map (fun p => match s'.pkt p.q p.seq with | some x => { p with held := x.held } | none => p) }

/-- The MMU that translates for the front end and the copy engines. -/
def feMmu : Nat := 24

/-- The first line that `n` bytes at a target touch which the host must give up first (R335). -/
def State.heldLine (s : State) (t : Target) (n : Nat) (write : Bool) : Option Target :=
  let a := t.addr % 128
  ((List.range ((a + n + 127) / 128)).map (fun i => if i = 0 then t else t.plus (128 * i - a))).find?
    (fun x => s.biHeld x write)

/-- Where an address of a step leads: a target that answers and that the host does not hold. -/
inductive StepTgt where
  | tgt (s : State) (t : Target)
  | wait (s : State)
  | fail (s : State) (code : Nat)

/-- A step's access to `n` bytes within one page (R308); a write that the host has held up to its limit goes on, to lose
the lines that are still held (R186). -/
def State.stepAccess (s : State) (p : Pkt) (va n : Nat) (need : Need) : StepTgt :=
  let write := match need with | .write => true | _ => false
  match s.access feMmu (s.fld .CFE_Q_CFG_asc p.q) va need with
  | (.error (.wait t), s) => .wait (s.biSnoop t false)
  | (.error f, s) => .fail s (stepCode f)
  | (.ok t, s) =>
    match s.stepAnswer t with
    | some c => .fail s c
    | none =>
      match s.heldLine t n write with
      | some x =>
        if write && s.holdOver p then .tgt s t
        else .wait (if write then (s.biSnoop x write).holdMark p else s.biSnoop x write)
      | none => .tgt s t

/-- The traffic of the lines that `n` bytes at a target touch, at their home. -/
def State.touchSpan (s : State) (tag : Option Nat) (t : Target) (n : Nat) (write : Bool) : State :=
  let a := t.addr % 128
  s.each (List.range ((a + n + 127) / 128)) (fun s i => s.scdTouch tag (if i = 0 then t else t.plus (128 * i - a)) write)

/-- Bytes written at one page of this device or the host: a whole tile with its check transition (R207), or non-tile
bytes; none while a ZERO page finds no frame. -/
def State.spanPut (s : State) (tag : Option Nat) (t : Target) (bs : List Byte) (whole : Option (Option Nat)) :
    Option State :=
  match t with
  | .dev d =>
    (s.place (d / 65536)).map fun s =>
      let s := (s.touchSpan tag t bs.length true).putDev d bs none
      match whole with
      | some crc => s.chkWhole d crc
      | none => s.chkNonTiles d bs.length
  | .host h => some ((s.touchSpan tag t bs.length true).putHost h bs none)
  | .peer _ _ => none

/-- R350: the longest payload towards a device. -/
def State.maxPay (s : State) (dst : Nat) : Nat :=
  match s.route dst with
  | some (p, _) => if s.fld .FAB_PORT_CFG_mode p = modeEncap ∧ !s.flag .FAB_PORT_CFG_jumbo p then 1024 else 4096
  | none => 4096

/-- Cuts of `n` bytes into parts of at most `m`: (offset, length). -/
def cuts (m n : Nat) : List (Nat × Nat) :=
  (List.range (ceilDiv n m)).map (fun i => (i * m, min m (n - i * m)))

/-- WR_REQs for bytes at a peer (R359); the last of a verified tile carries its `crc` (R372). -/
def State.stepSend (s : State) (p : Pkt) (dev a : Nat) (bs : List Byte) (off : Nat) (crc : Option Nat) : StepAns :=
  (cuts (s.maxPay dev) bs.length).foldl (fun r c =>
    match r with
    | .ok s =>
      let f := { Frame.blank with
        dst := BitVec.ofNat 16 dev, addr := BitVec.ofNat 64 (a + c.1), data := (bs.drop c.1).take c.2
        arg := BitVec.ofNat 32 (if c.1 + c.2 = bs.length then crc.getD 0 else 0) }
      (match s.sendReq none p.tag ftWrReq f (.piece p.q p.seq (off + c.1)) (crc.isSome && c.1 + c.2 == bs.length) with
        | some s' => .ok s'
        | none => .fail s fcRemoteUnreachable)
    | r => r) (.ok s)

/-- The 128-byte lines that `n` bytes at a target touch: (offset of its first byte, length). -/
def lineCuts (t : Target) (n : Nat) : List (Nat × Nat) :=
  let a := t.addr % 128
  (List.range ((a + n + 127) / 128)).map (fun i => (128 * i - a, min n (128 * (i + 1) - a) - (128 * i - a)))

/-- R222: whether a write of `n` bytes at a target finds the memory line uncorrectable that it has to fill first. -/
def State.fillBad (s : State) (t : Target) (n : Nat) : Bool :=
  (lineCuts t n).any (fun c => decide (c.2 < 128) && (s.badLine (t.plus c.1)).isSome)

/-- R186, R222: bytes of a step written line by line where some lines are lost: those the host still holds, and those
whose fill is uncorrectable. A lost write counts as done (R153). -/
def State.linesPut (s : State) (tag : Option Nat) (t : Target) (bs : List Byte) : State :=
  s.each (lineCuts t bs.length) (fun s c =>
    let u := t.plus c.1
    let b := (bs.drop c.1).take c.2
    let x := if c.2 < 128 then s.takeBad1 u else (s, false)
    if x.2 || s.biHeld u true then x.1.mayLand (u.numbered b) else (s.spanPut tag u b none).getD s)

/-- Bytes of a step written at one page. TIMESTAMP and DUMP_SYNC give host memory its bytes directly (R331); a write that
mode 4 drops is counted (R320). -/
def State.stepPut (s : State) (p : Pkt) (t : Target) (bs : List Byte) (off : Nat) (whole : Option (Option Nat)) :
    StepAns :=
  match t with
  | .peer dev a => s.stepSend p dev a bs off (if p.opcode = 0x02 then whole.bind id else none)
  | .host h =>
    if p.opcode = 0x08 ∨ p.opcode = 0x88 then .ok ((s.wrCur h bs).hostDrop (some p.q) t)
    else .ok (((s.spanPut p.tag t bs whole).getD s).hostDrop (some p.q) t)
  | .dev d =>
    match s.place (d / 65536) with
    | none => .wait s
    | some s =>
      if (s.heldLine t bs.length true).isSome || s.fillBad t bs.length then .ok (s.linesPut p.tag t bs)
      else .ok ((s.spanPut p.tag t bs whole).getD s)

/-- Whether a peer still owes a step an answer. -/
def State.owed (s : State) (q seq : Nat) : Bool :=
  s.remote.any (fun r => match r.svc with | .piece q' n _ => q' == q && n == seq | _ => false)

/-- A step's requests to peers given up (R312, R423). -/
def State.dropOwed (s : State) (q seq : Nat) : State :=
  s.each (s.remote.filter (fun r => match r.svc with | .piece q' n _ => q' == q && n == seq | _ => false))
    (fun s r => s.endReq r.tid true)

/-! ### COPY and FILL -/

/-- The bytes of a COPY or FILL step, where they begin, and where a COPY reads. -/
def Pkt.len (p : Pkt) : Nat := if p.opcode = 0x03 then p.b 16 8 else p.b 24 8
def Pkt.dstAt (p : Pkt) (off : Nat) : Nat := (if p.opcode = 0x03 then p.b 8 8 else p.b 16 8) + off
def Pkt.srcAt (p : Pkt) (off : Nat) : Nat := p.b 8 8 + off

/-- The bytes from an offset that one access moves: within one tile of the source and of the destination. A tile that the
step moves whole is moved at once, the end of a piece within it or not (R207, R211). -/
def Pkt.chunk (p : Pkt) (off : Nat) : Nat :=
  let n := min (p.len - off) (4096 - p.dstAt off % 4096)
  if p.opcode = 0x03 then n else min n (4096 - p.srcAt off % 4096)

/-- The pattern of a FILL from an offset on (R275). -/
def Pkt.pattern (p : Pkt) (n : Nat) : List Byte := ((List.replicate (ceilDiv n 8) (p.b 24 8)).flatMap (natLe 8)).take n

/-- R211, R209: the check of a whole source tile: it fails, or passes with its `crc` if it is VALID. -/
def State.srcTile (s : State) (t : Target) (bs : List Byte) : Option (Option Nat) :=
  let e := s.chk t
  let st := chkState e
  if st = chkValid then (if chkCrc e = crc32c bs then some (some (chkCrc e)) else none)
  else if (st = chkNone ∨ st = chkStale) ∧ !s.flag .CFG_TILE_CHECK_unchecked_action 0 then some none
  else none

/-- One access of a FILL. -/
def State.fillChunk (s : State) (p : Pkt) (off n : Nat) : StepAns :=
  let va := p.dstAt off
  match s.stepAccess p va n .write with
  | .wait s => .wait s
  | .fail s c => .fail s c
  | .tgt s t =>
    let bs := p.pattern n
    s.stepPut p t bs off (if n = 4096 then some (some (crc32c bs)) else none)

/-- Whether two targets lie in one page of this device's or the host's memory. -/
def Target.samePage : Target → Target → Bool
  | .dev a, .dev b => a / 65536 == b / 65536
  | .host a, .host b => a / 65536 == b / 65536
  | _, _ => false

/-- The pages of a COPY's source: where each leads, and the first and the end of its offsets that the COPY reads. -/
def State.srcParts (s : State) (p : Pkt) : List (Except MFault Target × Nat × Nat) :=
  let a := p.srcAt 0
  let e := a + p.len
  (List.range (ceilDiv e 65536 - a / 65536)).map (fun k =>
    let v := (a / 65536 + k) * 65536
    let lo := max a v
    ((s.access feMmu (s.fld .CFE_Q_CFG_asc p.q) lo .read).1, lo - v, min e (v + 65536) - v))

/-- R275: the bytes that a COPY writes at a target: those that aliases make bytes of its source, too, are unpredictable
(log entry 2). -/
def State.copyBytes (s : State) (p : Pkt) (dst : Target) (bs : List Byte) : List Byte × State :=
  let l := (s.srcParts p).filter (fun x => match x.1 with | .ok t => t.samePage dst | .error _ => false)
  let o := dst.addr % 65536
  if l.any (fun x => decide (x.2.1 < o + bs.length) && decide (o < x.2.2)) then
    (bs.zipIdx.map (fun b => if l.any (fun x => decide (x.2.1 ≤ o + b.2) && decide (o + b.2 < x.2.2)) then
      BitVec.ofNat 8 (s.freeAt b.2) else b.1), s.drew bs.length)
  else (bs, s)

/-- One access of a COPY; `r` is what the memory side reports of its read, `k` the byte of the access that it is about.
-/
def State.copyChunk (s : State) (p : Pkt) (off n k : Nat) (r : ReadOutcome) : StepAns :=
  match s.stepAccess p (p.srcAt off) n .read with
  | .wait s => .wait s
  | .fail s c => .fail s c
  | .tgt s src =>
    match s.stepAccess p (p.dstAt off) n .write with
    | .wait s => .wait s
    | .fail s c => .fail s c
    | .tgt s dst =>
      match src with
      | .peer dev a =>
        (cuts (s.maxPay dev) n).foldl (fun x c =>
          match x with
          | .ok s =>
            let f := { Frame.blank with
              dst := BitVec.ofNat 16 dev, addr := BitVec.ofNat 64 (a + c.1), arg := BitVec.ofNat 32 c.2 }
            (match s.sendReq none p.tag ftRdReq f (.piece p.q p.seq (off + c.1)) with
              | some s' => .ok s'
              | none => .fail s fcRemoteUnreachable)
          | x => x) (.ok s)
      | _ =>
        match (s.srcParts p).findSome? (fun x => match x.1 with | .error (.wait t) => some t | _ => none) with
        | some t => .wait (s.biSnoop t false)
        | none =>
          let rd := s.readTarget (src.plus k) r p.crcLim
          let more := rd.1.takeBad src n
          if rd.2 || more.2 then .fail more.1 fcStepUncorrectable
          else
            let s := more.1.touchSpan p.tag src n false
            let read := s.targetBytes src n
            let out := s.copyBytes p dst read
            let s := out.2
            let bs := out.1
            if n = 4096 ∧ p.srcAt off % 4096 = 0 ∧ p.dstAt off % 4096 = 0 then
              let s := s.chkLook src
              match s.srcTile src read with
              | some v => s.stepPut p dst bs off (some v)
              | none =>
                (match s.stepPut p dst bs off (some none) with
                  | .ok s => .fail s fcStepTileCheck
                  | x => x)
            else s.stepPut p dst bs off none

/-- A COPY or FILL step moved on from its position to a limit, as far as the host lets it; the memory side reports `r` of
the offset `at_`, and of every other read that it is clean. -/
def State.copyTo : Nat → State → Pkt → Nat → Nat → ReadOutcome → StepAns
  | 0, s, _, _, _, _ => .ok s
  | k + 1, s, p, lim, at_, r =>
    if p.pos ≥ lim then .ok s
    else
      let n := p.chunk p.pos
      let here := decide (p.pos ≤ at_) && decide (at_ < p.pos + n)
      match (if p.opcode = 0x03 then s.fillChunk p p.pos n
        else s.copyChunk p p.pos n (if here then at_ - p.pos else 0) (if here then r else .clean)) with
      | .ok s =>
        State.copyTo k (s.modPkt p.q p.seq (fun x => { x with pos := p.pos + n, held := 0 }))
          { p with pos := p.pos + n, held := 0 } lim at_ r
      | x => x

/-- A step leaves its copy engine. -/
def State.offEngine (s : State) (q seq : Nat) : State :=
  { s with copyEng := (s.copyEng.map (fun e => (e.1, e.2.filter (fun x => x != (q, seq))))).filter (fun e => !e.2.isEmpty) }

/-- R311: the entry of a copy engine whose current piece is the one that holds the offset `off`. -/
def Pkt.copyEntry (p : Pkt) (eng off : Nat) : List Byte :=
  engineEntry 2 (eng + 2 ^ 16 * (off / 65536)) (if p.opcode = 0x03 then 0 else p.srcAt (off / 65536 * 65536) % 2 ^ 57)

/-- A COPY or FILL step fails at its first fault (R308), in the piece that holds the offset `off`. -/
def State.copyFail (s : State) (p : Pkt) (code off : Nat) : State :=
  let s := (s.dropOwed p.q p.seq).offEngine p.q p.seq
  if s.qState p.q = qDraining then (s.dropPkt p).drainCheck p.q
  else s.failPkt p code 0 [p.copyEntry p.eng off]

/-- R282, R287: a piece has ended: the step ends after its last, or in a drain; else the engine turns to its next step,
and the step's next piece is issued under the limits now in force (R233). -/
def State.pieceEnd (s : State) (p : Pkt) : State :=
  if s.qState p.q = qDraining then (((s.dropOwed p.q p.seq).offEngine p.q p.seq).dropPkt p).drainCheck p.q
  else if p.pos ≥ p.len then (s.offEngine p.q p.seq).endPkt p 0
  else
    let l := mapGet [] s.copyEng p.eng
    ({ s with copyEng := mapSet [] s.copyEng p.eng (l.filter (fun x => x != (p.q, p.seq)) ++ [(p.q, p.seq)]) }).modPkt p.q
      p.seq (fun x => { x with
        crcLim := s.fld .CFG_MEMORY_crc_retry_limit 0, cxlLim := s.fld .CFG_FAR_TIER_completion_timeout_ms 0 })

/-- COPY_PIECE_DONE (R153, R222, R282): the piece of the step an engine works on is performed; its accesses to peers
still have to be answered. In a drain the step ends at its next wait (R287). `a` is what the memory side reports of the
piece's reads, by 128-byte lines. -/
def execCopyPieceDone (e : Fin 8) (a : ReadOutcome) (s : State) : Out :=
  .next (
    match mapGet [] s.copyEng e.val with
    | [] => s
    | (q, seq) :: _ =>
      match s.pkt q seq with
      | none => s
      | some p =>
        if !s.alive || s.owed q seq then s
        else
          let lim := min p.len ((p.pos / 65536 + 1) * 65536)
          let rp := readPlace a
          match s.copyTo 64 p lim (p.pos + 128 * rp.1) rp.2 with
          | .wait s =>
            (match s.pkt q seq with
              | some p => if s.qState q = qDraining ∧ p.held = 0 then s.pieceEnd p else s
              | none => s)
          | .fail s code => (match s.pkt q seq with | some p => s.copyFail p code p.pos | none => s)
          | .ok s =>
            match s.pkt q seq with
            | none => s
            | some p => if p.pos < lim ∨ s.owed q seq then s else s.pieceEnd p)

/-! ### Answers of peers -/

/-- A frame handled, or one that has to wait. -/
abbrev Took := Except State State

/-- The state after a frame that met a state: of one that has to wait, only what its wait leaves. -/
def Took.or (r : Took) (s : State) : State :=
  match r with
  | .ok s' => s'
  | .error s' => s.waited s'

/-- R207: the part of a COPY that a whole tile moves, by an offset in it: the tile's first offset. -/
def Pkt.tileAt (p : Pkt) (off : Nat) : Option Nat :=
  let a := p.dstAt off % 4096
  if a ≤ off ∧ off - a + 4096 ≤ p.len ∧ p.srcAt (off - a) % 4096 = 0 then some (off - a) else none

/-- R207, R350: bytes of a COPY that a peer sent: those of a whole tile are kept until the tile is complete and then
written at once. -/
def State.copyIn (s : State) (p : Pkt) (off : Nat) (data : List Byte) : StepAns :=
  match p.tileAt off with
  | none =>
    (match s.stepAccess p (p.dstAt off) data.length .write with
      | .wait s => .wait s
      | .fail s c => .fail s c
      | .tgt s t => s.stepPut p t data off none)
  | some o =>
    let buf := data.zipIdx.foldl (fun m e => mapIns m (off + e.2) e.1) p.buf
    let all := mapRange buf o (o + 4096)
    if all.length < 4096 then .ok (s.modPkt p.q p.seq (fun x => { x with buf := buf }))
    else
      match s.stepAccess p (p.dstAt o) 4096 .write with
      | .wait s => .wait s
      | .fail s c => .fail s c
      | .tgt s t =>
        (s.modPkt p.q p.seq (fun x => { x with buf := mapClear x.buf o (o + 4096) })).stepPut p t (all.map (·.2)) o
          (some none)

/-- R153, R275, R360: a peer's answer to a step: `data` of a read, the word of a full/empty operation, or an
acknowledgement. -/
def State.stepReply (s : State) (r : RemReq) (q seq off status : Nat) (data : List Byte) : Took :=
  match s.pkt q seq with
  | none => .ok s
  | some p =>
    let copy := p.opcode == 0x02 || p.opcode == 0x03
    if status ≠ 0 then
      let code := if r.tile ∧ status = 3 then fcRemoteTileCheck else stepStatus status
      .ok (if copy then s.copyFail p code off else (s.dropOwed q seq).failPkt p code 0 [])
    else if r.type = ftFeReq then
      if s.feDstReady p then .ok (s.feWaitDone p (leNat (data.take 8))) else .error (s.feDstSnoop p)
    else if r.type = ftRdReq then
      match s.copyIn p off data with
      | .wait s => .error s
      | .fail s c => .ok (s.copyFail p c off)
      | .ok s =>
        let s := s.modPkt q seq (fun x => { x with held := 0 })
        .ok (if s.owed q seq then s else s.pieceEnd p)
    else if copy then .ok (if s.owed q seq then s else s.pieceEnd p)
    else .ok (if s.owed q seq then s else s.endPkt p 0)

end Sys2Proof.Machine
end

