-- ==== Sys2Proof/Machine/Collective.lean ====
section
/-! DEFINITION. Collective steps (R365 to R371): the segments of a step round the ring, what a member does with a frame
of its group, how a step ends. Log entry 24 fixes what R368 leaves open: which member begins a segment, that `arg`
numbers the segment and `tid` counts the members it has passed, and that the parts of a segment come in their order. -/

namespace Sys2Proof.Machine

/-! ### Reads and writes of a step -/

/-- What a read of a step gives. -/
inductive StepRead where
  | ok (s : State) (bs : List Byte)
  | wait (s : State)
  | fail (s : State) (code : Nat)

/-- The parts of `n` bytes from an address that lie in one 4 KiB unit each: (address, length). -/
def spans : Nat → Nat → Nat → List (Nat × Nat)
  | 0, _, _ => []
  | k + 1, va, n =>
    if n = 0 then []
    else
      let m := min n (4096 - va % 4096)
      (va, m) :: spans k (va + m) (n - m)

/-- Bytes of this device or its host that a step reads, through their home; an uncorrectable line fails it (R308). -/
def State.stepRead (s : State) (p : Pkt) (va n : Nat) : StepRead :=
  let r := (spans (n / 4096 + 2) va n).foldl (fun (r : StepRead) c =>
    match r with
    | .ok s bs =>
      (match s.stepAccess p c.1 c.2 .read with
        | .wait s => .wait s
        | .fail s x => .fail s x
        | .tgt s (.peer _ _) => .fail s fcStepProtection
        | .tgt s t =>
          let x := s.takeBad t c.2
          if x.2 then .fail x.1 fcStepUncorrectable
          else .ok (x.1.touchSpan p.tag t c.2 false) (bs ++ s.targetBytes t c.2))
    | r => r) (.ok s [])
  match r with
  | .wait s' => .wait (s.waited s')
  | r => r

/-- Bytes that a step writes, as non-tile writes. Nothing is written while a line has to wait. -/
def State.stepWrite (s : State) (p : Pkt) (va : Nat) (bs : List Byte) (away : Bool) : StepAns :=
  let r := (spans (bs.length / 4096 + 2) va bs.length).foldl (fun (r : StepAns) c =>
    match r with
    | .ok s =>
      (match s.stepAccess p c.1 c.2 .write with
        | .wait s => .wait s
        | .fail s x => .fail s x
        | .tgt s t =>
          if t.isPeer && !away then .fail s fcStepProtection
          else s.stepPut p t ((bs.drop (c.1 - va)).take c.2) (c.1 - va) none)
    | r => r) (.ok s)
  match r with
  | .ok s' => .ok (s'.modPkt p.q p.seq (fun x => { x with held := 0 }))
  | .wait s' => .wait (s.waited s')
  | r => r

/-! ### The packet (R366) -/

def Pkt.cop (p : Pkt) : Nat := p.b 8 1
def Pkt.bf16 (p : Pkt) : Bool := p.b 9 1 == 1
def Pkt.rop (p : Pkt) : Nat := p.b 10 1
def Pkt.wire32 (p : Pkt) : Bool := p.b 11 1 % 2 == 1
def Pkt.cgroup (p : Pkt) : Nat := p.b 12 1
def Pkt.root (p : Pkt) : Nat := p.b 13 1
def Pkt.csrc (p : Pkt) : Nat := p.b 16 8
def Pkt.cdst (p : Pkt) : Nat := p.b 24 8
def Pkt.ccount (p : Pkt) : Nat := p.b 32 8
def Pkt.cseqOf (p : Pkt) : Nat := p.b 44 4

/-- Whether a collective reduces: ALL_REDUCE, REDUCE_SCATTER, and BARRIER with nothing to reduce. -/
def Pkt.reduces (p : Pkt) : Bool := p.cop == 0 || p.cop == 1 || p.cop == 4

/-- The bytes of an element in memory, and on the wire (R368). -/
def Pkt.elem (p : Pkt) : Nat := if p.bf16 then 2 else 4
def Pkt.wire (p : Pkt) : Nat := if p.bf16 ∧ !(p.wire32 && p.reduces) then 2 else 4

/-- The elements of a full segment, and the segments of `count` elements. -/
def Pkt.perSeg (p : Pkt) : Nat := 4096 / p.wire
def Pkt.segs (p : Pkt) : Nat := if p.cop = 4 then 1 else ceilDiv p.ccount p.perSeg

/-- All segments of a step among `n` members. -/
def Pkt.total (p : Pkt) (n : Nat) : Nat := if p.cop = 1 ∨ p.cop = 2 then n * p.segs else p.segs

/-- The member that begins a segment: log entry 24. A slice of REDUCE_SCATTER begins at its owner and comes back to it.
-/
def Pkt.origin (p : Pkt) (n i : Nat) : Nat :=
  match p.cop with
  | 1 => i / p.segs
  | 2 => i / p.segs
  | 3 => p.root
  | _ => i % n

/-- The first element of a segment within its slice, and how many it has. -/
def Pkt.segAt (p : Pkt) (i : Nat) : Nat := i % p.segs * p.perSeg
def Pkt.segLen (p : Pkt) (i : Nat) : Nat := if p.cop = 4 then 0 else min p.perSeg (p.ccount - p.segAt i)

/-- Where a member reads its elements of a segment, and where it writes the result (R367). -/
def Pkt.segSrc (p : Pkt) (i : Nat) : Nat :=
  p.csrc + p.elem * (p.segAt i + (if p.cop = 1 then i / p.segs * p.ccount else 0))
def Pkt.segDst (p : Pkt) (i : Nat) : Nat :=
  p.cdst + p.elem * (p.segAt i + (if p.cop = 2 then i / p.segs * p.ccount else 0))

/-- The segments that member `r` of `n` handles as they arrive, whichever way each goes: a segment of ALL_GATHER and
BROADCAST reaches every other member once, one of REDUCE_SCATTER every member once, the result of one of ALL_REDUCE every
member once. -/
def Pkt.expected (p : Pkt) (n r : Nat) : Nat :=
  let t := p.total n
  match p.cop with
  | 2 => t - ((List.range t).filter (fun i => p.origin n i == r)).length
  | 3 => t - ((List.range t).filter (fun i => p.origin n i == r)).length
  | _ => t

/-! ### Arithmetic (R368) -/

/-- A number list as elements of `w` bytes. -/
def elems (w : Nat) (bs : List Byte) : List Nat := (List.range (bs.length / w)).map (fun i => leNat ((bs.drop (w * i)).take w))

/-- A BF16 code rounded from FP32. -/
def toBf16 (x : Nat) : Nat := FFmt.bf16.enc .ne (FFmt.fp32.dec x)

/-- One reduction in FP32: SUM, MAX or MIN. -/
def redOne (rop a b : Nat) : Nat :=
  if rop = 0 then fAdd .fp32 .ne a b
  else
    match FFmt.fp32.dec a, FFmt.fp32.dec b with
    | .nan, _ => FFmt.fp32.qnan
    | _, .nan => FFmt.fp32.qnan
    | _, _ => fMinMax .fp32 (rop == 1) a b

/-- An element as it travels, from its code in memory; and back. -/
def Pkt.toWire (p : Pkt) (x : Nat) : Nat := if p.bf16 ∧ p.wire = 4 then x * 65536 else x
def Pkt.ofWire (p : Pkt) (x : Nat) : Nat := if p.bf16 ∧ p.wire = 4 then toBf16 x else x

/-- Two elements on the wire reduced at a member. -/
def Pkt.redWire (p : Pkt) (a b : Nat) : Nat :=
  if p.wire = 2 then toBf16 (redOne p.rop (a * 65536) (b * 65536)) else redOne p.rop a b

/-- A segment's elements in memory from their wire form, as bytes; and the wire bytes of a list of codes. -/
def Pkt.memBytes (p : Pkt) (l : List Nat) : List Byte := l.flatMap (fun x => natLe p.elem (p.ofWire x))
def Pkt.wireBytes (p : Pkt) (l : List Nat) : List Byte := l.flatMap (natLe p.wire)

/-! ### Steps -/

/-- The tag of a collective's frames. -/
def State.modColl (s : State) (q seq : Nat) (f : CollStep → CollStep) : State :=
  { s with colls := s.colls.map (fun x => if x.q = q ∧ x.seq = seq then f x else x) }

/-- R373: the entry of a collective engine: the fabric die of the port that leads to the next member. -/
def State.collEntry (s : State) (x : CollStep) : List Byte :=
  let die := match s.route (s.collNext x.group) with | some (port, _) => port / 2 | none => 0
  let wait := if x.credits.contains (s.collNext x.group) then s.collPrev x.group else s.collNext x.group
  engineEntry 3 (die + 2 ^ 16 * (4 * x.got))
    (x.cseq + 2 ^ 32 * x.group + 2 ^ 40 * (x.ring % 256) + 2 ^ 48 * wait)

/-- A collective step fails with a code, with COLL_ABORT to both neighbours where `tell` (R370). -/
def State.collFail (s : State) (q seq code : Nat) (tell : Bool) : State :=
  match s.collOf q seq, s.pkt q seq with
  | some x, some p =>
    let ent := s.collEntry x
    let s := if tell then s.collStop q seq else { s with colls := s.colls.filter (fun y => !(y.q == q && y.seq == seq)) }
    s.failPkt p code 0 [ent]
  | _, _ => s

/-- A COLL_DATA segment sent to a member (R346, R368; log entry 24), in payloads that its path carries (R350), charged to
the tag (R364); none without a route. -/
def State.segSend (s : State) (p : Pkt) (dst i hops : Nat) (data : List Byte) : Option State :=
  let parts := if data.length ≤ s.maxPay dst then [data] else (cuts (s.maxPay dst) data.length).map (fun c =>
    (data.drop c.1).take c.2)
  parts.foldl (fun (r : Option State) bs =>
    r.bind (fun s =>
      (s.sendFrame ftCollData { Frame.blank with
        dst := BitVec.ofNat 16 dst, addr := collAddr p.cgroup p.cseqOf, arg := BitVec.ofNat 32 i
        tid := BitVec.ofNat 16 hops, data := bs }).map (fun s => s.fabricBytes (some p.acct) dst bs.length))) (some s)

/-- A segment's own elements, as they travel. -/
def State.ownSeg (s : State) (p : Pkt) (i : Nat) : StepRead :=
  match s.stepRead p (p.segSrc i) (p.elem * p.segLen i) with
  | .ok s bs => .ok s (p.wireBytes ((elems p.elem bs).map p.toWire))
  | r => r

/-- R368, R369: the neighbour to which a segment is sent: of those that have given credit the one with more free credit,
which no state of the device shows, so that with both the choice is an open value (log entry 24). -/
def State.segTo (s : State) (x : CollStep) : Option Nat :=
  let a := s.collNext x.group
  let b := s.collPrev x.group
  match x.credits.contains a, x.credits.contains b with
  | true, true => some (if s.freeAt 0 % 2 = 0 then a else b)
  | true, false => some a
  | false, true => some b
  | false, false => none

/-- The segments that this member begins, each sent one way round; those of ALL_GATHER and BROADCAST are also its own
results. -/
def State.sendOwn (s : State) (x : CollStep) (p : Pkt) (n r : Nat) : StepAns :=
  let mine := (List.range (p.total n)).filter (fun i => p.origin n i == r)
  let out := mine.foldl (fun (a : StepAns) i =>
    match a with
    | .ok s =>
      (match s.ownSeg p i with
        | .wait s => .wait s
        | .fail s c => .fail s c
        | .ok s bs =>
          let w := if p.reduces then .ok s else s.stepWrite p (p.segDst i) bs false
          match w with
          | .ok s =>
            (match (s.segTo x).bind (fun d => s.segSend p d i 1 bs) with
              | some s => .ok (s.drew 1)
              | none => .fail s fcRemoteUnreachable)
          | w => w)
    | a => a) (.ok s)
  match out with
  | .wait s' => .wait (s.waited s')
  | r => r

/-- A step that has its credit sends what it begins; a step with nothing left to do completes (R153, R367). -/
def State.collPoll (s : State) (q seq : Nat) : State :=
  match s.collOf q seq, s.pkt q seq with
  | some x, some p =>
    let n := s.fld .FAB_CGRP_n x.group
    let r := s.fld .FAB_CGRP_rank x.group
    let done := fun (s : State) (x : CollStep) =>
      if x.sent && decide (x.got ≥ p.expected n r) then
        let s : State := { s with colls := s.colls.filter (fun y => !(y.q == q && y.seq == seq)) }
        s.endPkt p 0
      else s
    if x.sent then done s x
    else if (s.segTo x).isNone then s
    else
      match s.sendOwn x p n r with
      | .wait s => s
      | .fail s c => s.collFail q seq c false
      | .ok s => done (s.modColl q seq (fun x => { x with sent := true })) { x with sent := true }
  | _, _ => s

/-! ### Frames of a group -/

/-- The step in progress that a frame's group and `coll_seq` name (R371). -/
def State.collMatch (s : State) (g c : Nat) : Option CollStep := s.colls.find? (fun x => x.group == g && x.cseq == c)

/-- A frame dropped under R371. -/
def State.collDrop (s : State) (port : Nat) : State := s.satFld .FAB_PORT_ERR_dropped port 1

/-- R371: a frame for a step not yet started held, at most 16 for each group. -/
def State.collHold (s : State) (h : CollHeld) : State :=
  let mine := s.held.filter (fun x => x.group == h.group)
  let s : State := { s with held := s.held ++ [h] }
  if mine.length < 16 then s
  else
    match mine with
    | [] => s
    | o :: _ => ({ s with held := s.held.erase o }).collDrop o.port

/-- Whether a `coll_seq` lies above the last one started in its group (R371). -/
def State.collAhead (s : State) (g c : Nat) : Bool :=
  match mapFind s.collSeq g with
  | none => true
  | some l => seqAfter c l

/-- R370: a credit for a step in progress. -/
def State.collCreditFor (s : State) (x : CollStep) (src digest : Nat) : State :=
  if digest ≠ x.digest then s.collFail x.q x.seq fcCollMismatch true
  else (s.modColl x.q x.seq (fun y => { y with
    credits := if y.credits.contains src then y.credits else src :: y.credits })).collPoll x.q x.seq

/-- COLL_CREDIT received (R369 to R371). -/
def State.collCreditIn (s : State) (port g c src digest : Nat) : State :=
  match s.collMatch g c with
  | some x => s.collCreditFor x src digest
  | none => if s.collAhead g c then s.collHold ⟨g, c, src, false, digest, port⟩ else s.collDrop port

/-- COLL_ABORT received (R370, R371). -/
def State.collAbortIn (s : State) (port g c src : Nat) : State :=
  match s.collMatch g c with
  | some x => s.collFail x.q x.seq fcCollAborted true
  | none => if s.collAhead g c then s.collHold ⟨g, c, src, true, 0, port⟩ else s.collDrop port

/-- What a member does with a segment it receives after `h` members (R367, R368): the segment it holds afterwards,
whether it writes the segment to `dst`, and whether it sends it on. -/
def Pkt.relay (p : Pkt) (n h : Nat) : Bool × Bool × Bool :=
  match p.cop with
  | 1 => (decide (h < n), h == n, decide (h < n))
  | 2 => (false, true, decide (h + 1 < n))
  | 3 => (false, true, decide (h + 1 < n))
  | _ => (decide (h < n), decide (h + 1 ≥ n), decide (h + 1 ≤ 2 * n - 2))

/-- COLL_DATA received; it may have to wait for a credit or for the host. -/
def State.collDataIn (s : State) (port g c src i h : Nat) (data : List Byte) : Took :=
  match s.collMatch g c with
  | none => .ok (s.collDrop port)
  | some x =>
    match s.pkt x.q x.seq with
    | none => .ok (s.collDrop port)
    | some p =>
      let n := s.fld .FAB_CGRP_n g
      let next := if src = s.collPrev g then s.collNext g else s.collPrev g
      let m := p.relay n h
      let old := x.parts.find? (fun y => y.1 == i && y.2.1 == h)
      let data := (match old with | some y => y.2.2 | none => []) ++ data
      let rest := x.parts.filter (fun y => !(y.1 == i && y.2.1 == h))
      if i ≥ p.total n ∨ h = 0 ∨ h > 2 * n - 2 ∨ data.length > p.wire * p.segLen i then .ok (s.collDrop port)
      else if data.length < p.wire * p.segLen i then
        .ok (s.modColl x.q x.seq (fun y => { y with parts := rest ++ [(i, h, data)] }))
      else if m.2.2 ∧ !x.credits.contains next then .error s
      else
        let got := elems p.wire data
        let own := if m.1 then s.ownSeg p i else .ok s []
        match own with
        | .wait s => .error s
        | .fail s code => .ok (s.collFail x.q x.seq code false)
        | .ok s bs =>
          let v := if m.1 then (got.zip (elems p.wire bs)).map (fun e => p.redWire e.1 e.2) else got
          let w := if m.2.1 ∧ p.cop ≠ 4 then s.stepWrite p (p.segDst i) (p.memBytes v) false else .ok s
          match w with
          | .wait s => .error s
          | .fail s code => .ok (s.collFail x.q x.seq code false)
          | .ok s =>
            let on := if m.2.2 then s.segSend p next i (h + 1) (p.wireBytes v) else some s
            match on with
            | none => .ok (s.collFail x.q x.seq fcRemoteUnreachable false)
            | some s =>
              let k := if m.2.1 ∨ p.cop = 1 then 1 else 0
              .ok ((s.modColl x.q x.seq (fun y => { y with
                got := y.got + k, ring := max y.ring h, parts := rest })).collPoll x.q x.seq)

/-- R369 to R371: a collective step starts: it must lie above the last of its group; its credit goes to both neighbours,
and what is held for it counts. -/
def State.collStart (s : State) (p : Pkt) : State :=
  let g := p.cgroup
  let c := p.cseqOf
  let a := s.collNext g
  let b := s.collPrev g
  let x : CollStep := ⟨p.q, p.seq, g, c, p.digest, [], false, 0, 0, []⟩
  if !s.collAhead g c then (s.collAbortOut g c).failPkt p fcCollMismatch 0 [s.collEntry x]
  else if (s.route a).isNone ∨ (s.route b).isNone then s.failPkt p fcRemoteUnreachable 0 [s.collEntry x]
  else
    let mine := s.held.filter (fun x => x.group == g && x.cseq == c)
    let s : State := { s with
      collSeq := mapIns s.collSeq g c
      held := s.held.filter (fun x => !(x.group == g && x.cseq == c))
      colls := s.colls ++ [x] }
    let s := s.collSend (some p.acct) ftCollCredit a g c p.digest []
    let s := if a = b then s else s.collSend (some p.acct) ftCollCredit b g c p.digest []
    if mine.any (fun h => h.abort) then s.collFail p.q p.seq fcCollAborted true
    else
      s.each mine (fun s h =>
        match s.collMatch g c with
        | some x => s.collCreditFor x h.src h.dig
        | none => s)

/-- A member that cannot be reached ends a step (R370). -/
def State.collLost (s : State) (g c : Nat) : State :=
  match s.collMatch g c with
  | some x => s.collFail x.q x.seq fcRemoteUnreachable false
  | none => s

/-- Whether the limit of a step's own wait, in force since it started (R189, R318), is over; 0 means none. -/
def State.waitOver (s : State) (p : Pkt) : Bool := p.lim != 0 && decide (s.now ≥ p.start + p.lim)

/-- COLL_TIMEOUT (R370): `timeout_ms` of a step in progress has run out. -/
def execCollTimeout (q : Fin 4096) (seq : Nat) (s : State) : Out :=
  .next (
    match s.collOf q.val seq, s.pkt q.val seq with
    | some _, some p =>
      if s.alive && s.waitOver p then s.collFail q.val seq fcCollTimeout true else s
    | _, _ => s)

end Sys2Proof.Machine
end

