-- ==== Sys2Proof/Machine/Silit.lean ====
section
/-!
DEFINITION. The Silit links: answers to this device's requests (R360), reception and forwarding (R350 to R353), retry
(R356 to R358), probes (R355), training, failure and reset of ports (R345, R358, R427).
-/

namespace Sys2Proof.Machine

/-! ### Answers to this device's requests -/

/-- R360, R463: an answer to lanes of a cell: values, or the halt or the lost store of a status. -/
def State.laneReply (s : State) (r : RemReq) (c id status : Nat) (data : List Byte) : State :=
  match s.req c id with
  | none => s
  | some q =>
    let mine := q.lanes.filter (fun l => l.st == .sent r.tid)
    let ids := mine.map (·.lane)
    let s :=
      if status ≠ 0 then
        if r.type = ftWrReq then (s.lostUnit [c] [(c, q.slot)]).setLanes c id ids (.done 0)
        else s.setLanes c id ids (.failed (statusHalt status))
      else
        match q.kind with
        | .load _ size _ alloc =>
          let s := s.each mine (fun s l =>
            s.setLane c id l.lane (.done (leNat ((data.drop (l.away.2 - r.addr)).take (2 ^ size)))))
          (match mine with
            | l :: _ => if alloc ∧ data.length = 128 then s.l1Fill c l.va data else s
            | [] => s)
        | .uload _ => s.each mine (fun s l => s.setLane c id l.lane (.done (leNat ((data.drop (l.away.2 - r.addr)).take 8))))
        | .atom _ _ _ _ => s.each mine.zipIdx (fun s e =>
            s.setLane c id e.1.lane (.done (leNat ((data.drop (8 * e.2)).take 8))))
        | .fe _ _ => s.setLanes c id ids (.done (leNat (data.take 8)))
        | _ => (s.each mine (fun s l => s.l1Drop c l.va)).setLanes c id ids (.done 0)
    (s.settle c id).cellAnswered c

/-- R355: whether a measured round trip exceeds the budget. -/
def State.judgeRoute (s : State) (dst rtt : Nat) : State :=
  s.setFld .FAB_ROUTE_over_budget dst (b2n (decide (rtt > s.fld .FAB_CFG_rtt_budget_us 0 * 1000)))

/-- R355: every measured round trip judged by the budget now in force. -/
def State.judgeRoutes (s : State) : State := s.each s.rtts (fun s e => s.judgeRoute e.1 e.2)

/-- R355: the round trip of a route measured by a probe on a link; the neighbour there is reachable (R358). -/
def State.probed (s : State) (dst since k : Nat) : State :=
  let rtt := s.now - since
  let s : State := { s with rtts := mapIns s.rtts dst rtt }
  ((s.setFld .FAB_ROUTE_rtt_100ns dst (min (rtt / 100) 255)).judgeRoute dst rtt).setLink k { s.link k with unreach := false }

/-- An answer to an outstanding request, for whomever it serves. A TARGET_RESET advances the generation of the entry
(R423). -/
def State.remAnswer (s : State) (r : RemReq) (status arg : Nat) (data : List Byte) : Took :=
  let s := s.endReq r.tid (status == 4)
  match r.svc with
  | .lane c id _ => .ok (s.laneReply r c id status data)
  | .flush c _ m =>
    let gs := ((List.range 16).filter (fun i => m.testBit i)).map (fun i => (c, i))
    .ok ((if status = 0 then s else s.lostUnit [c] gs).cellAnswered c)
  | .piece q seq off => if s.alive then s.stepReply r q seq off status data else .ok s
  | .fence q seq =>
    (match if s.alive then s.pkt q seq else none with
      | none => .ok s
      | some p =>
        .ok (if status = 0 then s.finishPkt p 0 0 (arg % 2 == 1) false else s.failPkt p (stepStatus status) 0 []))
  | .probe dst => .ok (if status = 0 then s.probed dst r.since r.addr else s)

/-- The outstanding request a reply names; both halves of the tag epoch must match (R423). -/
def State.replyFor (s : State) (type : Nat) (f : Frame) : Option RemReq :=
  s.remote.find? (fun r => r.tid == f.tid.toNat && r.tepoch == f.tepoch.toNat
    && (r.type + 1 == type || (r.type == ftProbe && type == ftProbe)))

/-! ### Probes -/

/-- R350, R360: the data of a read reply sent in parts gathered in its request, until all of it is there. -/
def RemReq.replyPart (r : RemReq) (type status : Nat) (data : List Byte) : Option (List Byte) :=
  let all := r.got ++ data
  if type = ftRdRsp ∧ status = 0 ∧ all.length < r.len then none else some all

/-- The port and neighbour by which a probe of a route leaves (R352), whatever its budget reads. -/
def State.probeRoute (s : State) (dst : Nat) : Option (Nat × Nat) :=
  let up := fun (p : Nat) => decide (p < 12) && (s.fld .FAB_PORT_STATUS_state p == portUp
    || s.fld .FAB_PORT_STATUS_state p == portDegraded)
    && (s.fld .FAB_PORT_CFG_mode p == modeNative || s.fld .FAB_PORT_CFG_mode p == modeEncap)
  let n := s.fld .FAB_ROUTE_nbr dst
  if s.flag .FAB_ROUTE_valid dst && up (s.fld .FAB_ROUTE_port dst) then some (s.fld .FAB_ROUTE_port dst, n)
  else if s.flag .FAB_ROUTE_alt_valid dst && up (s.fld .FAB_ROUTE_alt_port dst) then some (s.fld .FAB_ROUTE_alt_port dst, n)
  else none

/-- R355: a PROBE sent along a route; an earlier one still out is given up. -/
def State.sendProbe (s : State) (dst : Nat) : State :=
  if s.fld .FAB_ID_dev_id 0 = 0 then s
  else
    match s.probeRoute dst with
    | none => s
    | some (p, n) =>
      let s := s.each (s.remote.filter (fun r => r.svc == .probe dst)) (fun s r => s.endReq r.tid true)
      let tid := s.takeTid
      let ep := 16 * mapGet 0 s.gens tid
      let k := s.linkKey p n
      let s := s.putOnLink p n ftProbe { Frame.blank with
        dst := BitVec.ofNat 16 dst, src := BitVec.ofNat 16 (s.fld .FAB_ID_dev_id 0)
        hops := BitVec.ofNat 4 (s.fld .FAB_CFG_hop_limit 0), tid := BitVec.ofNat 16 tid, tepoch := BitVec.ofNat 8 ep }
      { s with
        nextTid := (tid + 1) % 65536
        remote := s.remote ++ [⟨tid, ep, dst, ftProbe, s.now, 0, k, 0, .probe dst, false, []⟩] }

/-- The destinations whose routes name a port. -/
def State.routesVia (s : State) (p : Nat) : List Nat :=
  ((s.regs.map (fun e => e.1)).filter (fun k => k % 1024 == Fld.FAB_ROUTE_valid.ctorIdx
      || k % 1024 == Fld.FAB_ROUTE_alt_valid.ctorIdx)).map (· / 1024) |>.eraseDups |>.filter (fun d =>
    (s.flag .FAB_ROUTE_valid d && s.fld .FAB_ROUTE_port d == p)
      || (s.flag .FAB_ROUTE_alt_valid d && s.fld .FAB_ROUTE_alt_port d == p))

/-! ### Ports -/

/-- R343 to R345: what a port comes to after training on the lanes that trained: its state and lanes. One lane carries no
interface of ENCAP mode, so that such a port stays DOWN. -/
def State.trainResult (s : State) (p : Nat) (t : Training) : Nat × Nat :=
  let l := t.lanes.toNat
  let w := s.fld .FAB_PORT_CFG_width p
  let mode := s.fld .FAB_PORT_CFG_mode p
  if mode = modeOff then (portDown, 0)
  else if mode = modeNative then
    if l = 0xFF then (portUp, 0xFF)
    else if l % 16 = 15 then (portDegraded, 0x0F)
    else if l / 16 = 15 then (portDegraded, 0xF0)
    else (portDown, 0)
  else
    let want := if w = 0 then 0xFF else if w = 1 then 0x0F else 0x01
    if l &&& want = want ∧ (mode = modePlain ∨ w < 2) then (portUp, want) else (portDown, 0)

/-- R356, R358: a link's unacknowledged frames sent again, in order. -/
def State.replayAll (s : State) (p k : Nat) : State :=
  let l := s.link k
  if l.replay.isEmpty then s
  else
    let s := (s.setLink k { l with since := s.now }).satFld .FAB_PORT_ERR_replays p l.replay.length
    s.each l.replay (fun s x => s.logHdr (2 * p) x.type x.frame)

/-- R345, R358: the outcome of a port's training; a port that comes up replays what a NATIVE link has kept and sends
what waits. A retraining without the lanes it needs goes on, up to its limit; while the TAP holds the links down no port
comes up (R455). -/
def State.portResult (s : State) (p : Nat) (t : Training) : State :=
  let r := if s.linksHeld then (portDown, 0) else s.trainResult p t
  if r.1 = portDown ∧ s.retrain.contains p then s
  else
    let s := s.setFlds p [(.FAB_PORT_STATUS_state, r.1), (.FAB_PORT_STATUS_lanes_up, r.2)]
    let s : State := { s with trainAt := mapIns s.trainAt p s.now, retrain := s.retrain.filter (fun x => x != p) }
    if r.1 ≠ portDown ∧ s.fld .FAB_PORT_CFG_mode p = modeNative then
      (s.replayAll p (s.linkKey p 0)).pump (s.linkKey p 0)
    else s

/-- R355: the routes on the path of a port that has come up probed. -/
def State.probeVia (s : State) (p : Nat) : State := if s.portSends p then s.each (s.routesVia p) State.sendProbe else s

/-- R345, R355, R358: a port's training ends. -/
def State.portTrained (s : State) (p : Nat) (t : Training) : State := (s.portResult p t).probeVia p

/-- R352, R358, R427: a request that will not be delivered is answered TARGET_RESET towards its source; a reply goes. -/
def State.frameLost (s : State) (x : TxFrame) : State :=
  let own := x.frame.src.toNat == s.fld .FAB_ID_dev_id 0
  if x.type = ftCollData ∨ x.type = ftCollAbort then
    if own then s.collLost (bits x.frame.addr.toNat 32 8) (x.frame.addr.toNat % 2 ^ 32) else s
  else if x.frame.vc then s
  else if own then
    match s.remote.find? (fun r => r.type == x.type && r.tid == x.frame.tid.toNat && r.tepoch == x.frame.tepoch.toNat) with
    | some r => (s.remAnswer r 4 0 []).or s
    | none => s
  else if x.type = ftRdReq ∨ x.type = ftWrReq ∨ x.type = ftAtomReq ∨ x.type = ftFeReq ∨ x.type = ftFenceSig then
    s.sendOrDrop (x.type + 1) { Frame.blank with
      dst := x.frame.src, tid := x.frame.tid, tepoch := x.frame.tepoch, vc := true, status := 4 }
  else s

/-- R408: whether a link holds the END that a FW_STAGE step waits for. -/
def Link.owes (l : Link) (step : Nat × Nat) : Bool := (l.replay ++ l.waiting).any (fun x => x.step == some step)

/-- R408: the FW_STAGE steps none of whose ENDs is still unacknowledged complete. -/
def State.relayPoll (s : State) : State :=
  if s.sec.ends.isEmpty then s
  else
    let left := s.sec.ends.filter (fun e => (s.link e.1).owes e.2)
    let over_ := ((s.sec.ends.map (·.2)).filter (fun x => !(left.map (·.2)).contains x)).eraseDups
    { s with sec := { s.sec with ends := left } }.each over_ (fun s x =>
      match s.pkt x.1 x.2 with
      | some p => s.endPkt p 0
      | none => s)

/-- The replay buffer and transmit queue of a link emptied, its requests answered (R358, R427); a relay's target that
does not get its END counts as skipped (R408). -/
def State.linkLost (s : State) (k : Nat) (l : Link) : State :=
  let n := s.sec.ends.countP (fun e => e.1 == k && (s.link k).owes e.2)
  (((s.setLink k l).each ((s.link k).replay ++ (s.link k).waiting) State.frameLost).satFld .SEC_RELAY_relay_skipped 0 n).relayPoll

/-- The links and tunnels of a port. -/
def State.linksOf (s : State) (p : Nat) : List Nat := (mapRange s.links (4097 * p) (4097 * (p + 1))).map (·.1)

/-- R229-like loss of a port's traffic: every link of it starts afresh. -/
def State.portLost (s : State) (p st : Nat) : State :=
  let s := s.setFlds p [(.FAB_PORT_STATUS_state, st), (.FAB_PORT_STATUS_lanes_up, 0)]
  let s : State := { s with retrain := s.retrain.filter (fun x => x != p) }
  s.each (s.linksOf p) (fun s k => s.linkLost k Link.init)

/-- R360: the full/empty operations whose source has become unreachable, withdrawn. -/
def State.dropFar (s : State) : State :=
  s.feWithdraw (fun w => match w.src with | .peer dev _ _ _ => (s.route dev).isNone | _ => false)

/-- R358: a port FAILED. -/
def State.portDead (s : State) (p : Nat) : State := ((s.bumpEpoch (unitSilit p)).portLost p portFailed).dropFar

/-- R427: a port enters RESETTING. -/
def State.portReset (s : State) (p : Nat) : State := ((s.bumpEpoch (unitSilit p)).portLost p portResetting).dropFar

/-- R358: a port retrains, keeping what it holds. -/
def State.portRetrain (s : State) (p : Nat) : State :=
  let s := (s.setFld .FAB_PORT_STATUS_state p portTraining).satFld .FAB_PORT_ERR_retrains p 1
  { s with trainAt := mapIns s.trainAt p s.now, retrain := if s.retrain.contains p then s.retrain else p :: s.retrain }

/-- R377: a write of `mode` or `width` retrains the port, and requests it holds are answered under R358; a full/empty
operation whose source the write makes unreachable is withdrawn (R360). -/
def State.portModeWritten (s : State) (p : Nat) : State :=
  let s := s.portLost p (if s.fld .FAB_PORT_CFG_mode p = modeOff ∨ s.siliOff.contains p then portDown else portTraining)
  ({ s with trainAt := mapIns s.trainAt p s.now } : State).dropFar

/-- SILIT_PORT_UP (R345, R355, R358): a port that trains ends its training. -/
def execSilitPortUp (p : Fin 12) (l : Training) (s : State) : Out :=
  .next (
    if s.alive && !s.linksHeld && s.fld .FAB_PORT_STATUS_state p.val == portTraining then s.portTrained p.val l else s)

/-- PORT_TRAINING_RETRY (R345): a DOWN port tries again every second. -/
def execPortTrainingRetry (p : Fin 12) (l : Training) (s : State) : Out :=
  .next (
    if s.alive && !s.linksHeld && s.fld .FAB_PORT_STATUS_state p.val == portDown && s.fld .FAB_PORT_CFG_mode p.val != modeOff
        && !s.siliOff.contains p.val && decide (s.now ≥ mapGet 0 s.trainAt p.val + 1000000000)
    then s.portTrained p.val l else s)

/-- R345: a first training without success in 100 ms: the port stays DOWN, and tries again after a second. -/
def State.portDownAgain (s : State) (p : Nat) : State :=
  { s.setFlds p [(.FAB_PORT_STATUS_state, portDown), (.FAB_PORT_STATUS_lanes_up, 0)] with
    trainAt := mapIns s.trainAt p s.now }

/-- SILIT_RETRAIN_TIMEOUT (R345, R358): a retraining not finished in 100 ms makes the port FAILED; a first training
leaves it DOWN. -/
def execSilitRetrainTimeout (p : Fin 12) (s : State) : Out :=
  .next (
    if s.alive && s.fld .FAB_PORT_STATUS_state p.val == portTraining
        && decide (s.now ≥ mapGet 0 s.trainAt p.val + 100000000)
    then (if s.retrain.contains p.val then s.portDead p.val else s.portDownAgain p.val) else s)

/-! ### Retry -/

/-- Whether a `lack` covers an `lseq`. -/
def covers (lack lseq : Nat) : Bool := decide (sgn 32 (lack + (2 ^ 32 - lseq % 2 ^ 32)) ≥ 0)

/-- R356: the frames that a `lack` covers leave the replay buffer. -/
def State.ackTo (s : State) (k lack : Nat) : State :=
  let l := s.link k
  let rest := l.replay.filter (fun x => !covers lack x.frame.lseq.toNat)
  if rest.length = l.replay.length then s
  else (s.setLink k { l with replay := rest, retries := 0, since := s.now }).relayPoll.pump k

/-- R358, R360: a neighbour unreachable: what the tunnel holds is answered, who waits here for it is withdrawn; a probe
asks for it again. -/
def State.nbrLost (s : State) (k dst : Nat) : State :=
  (s.linkLost k { (s.link k) with replay := [], waiting := [], retries := 0, unreach := true }).dropFar.sendProbe dst

/-- R356 to R358: the unacknowledged frames sent again from the oldest on; the eighth replay of one `lseq` retrains a
NATIVE port, the sixteenth retransmission makes an ENCAP neighbour unreachable. -/
def State.replayFrom (s : State) (p nbr : Nat) : State :=
  let k := s.linkKey p nbr
  let l := s.link k
  match l.replay with
  | [] => s
  | x :: _ =>
    let seq := x.frame.lseq.toNat
    let n := if l.retryOf = seq ∧ l.retries ≠ 0 then l.retries + 1 else 1
    let native := s.fld .FAB_PORT_CFG_mode p == modeNative
    let s := (s.setLink k { l with retries := n, retryOf := seq }).replayAll p k
    let s := s.setLink k { s.link k with since := if native then l.since else s.now }
    if native then
      if n ≥ 8 then (s.setLink k { s.link k with retries := 0 }).portRetrain p else s
    else if n ≥ 16 then s.nbrLost k x.frame.dst.toNat
    else s

/-- A NAK naming the `lseq` that the other end expects (R356). -/
def State.nakIn (s : State) (p nbr lseq : Nat) : State :=
  (s.ackTo (s.linkKey p nbr) ((lseq + 2 ^ 32 - 1) % 2 ^ 32)).replayFrom p nbr

/-- Whether a port carries Silit traffic. -/
def State.portLive (s : State) (p : Nat) : Bool :=
  let st := s.fld .FAB_PORT_STATUS_state p
  s.serves && (st == portUp || st == portDegraded)

/-- NAK (R356, R357). -/
def execNak (p : Fin 12) (nbr lseq : Nat) (s : State) : Out :=
  .next (
    if s.portLive p.val && (s.fld .FAB_PORT_CFG_mode p.val == modeNative || s.fld .FAB_PORT_CFG_mode p.val == modeEncap)
    then s.nakIn p.val nbr (lseq % 2 ^ 32) else s)

/-- RETRANSMISSION_TIMER (R357): `rto_us` without an acknowledgement in ENCAP mode. -/
def execRetransmissionTimer (p : Fin 12) (nbr : Nat) (s : State) : Out :=
  let l := s.link (s.linkKey p.val nbr)
  .next (
    if s.portLive p.val && s.fld .FAB_PORT_CFG_mode p.val == modeEncap && !l.replay.isEmpty && !l.paused
        && decide (s.now ≥ l.since + s.fld .FAB_PORT_CFG_rto_us p.val * 1000)
    then s.replayFrom p.val nbr else s)

/-- LACK_STALL (R358): 10 µs without `lack` progress while frames wait on a NATIVE link. -/
def execLackStall (p : Fin 12) (s : State) : Out :=
  let l := s.link (s.linkKey p.val 0)
  .next (
    if s.portLive p.val && s.fld .FAB_PORT_CFG_mode p.val == modeNative && !l.replay.isEmpty
        && decide (s.now ≥ l.since + 10000)
    then s.portRetrain p.val else s)

/-- CONTROL_UNIT (R349, R356): `lack`, a NAK and the credits of both channels. -/
def execControlUnit (p : Fin 12) (lack : Nat) (nak : Option Nat) (cr0 cr1 : Nat) (s : State) : Out :=
  .next (
    if s.portLive p.val && s.fld .FAB_PORT_CFG_mode p.val == modeNative then
      let k := s.linkKey p.val 0
      let s := s.ackTo k (lack % 2 ^ 32)
      let l := s.link k
      let s := (s.setLink k { l with cr0 := l.cr0 + cr0, cr1 := l.cr1 + cr1 }).pump k
      match nak with
      | some q => s.nakIn p.val 0 (q % 2 ^ 32)
      | none => s
    else s)

/-- PFC (R357): a pause or resume on `pfc_prio` of an ENCAP port; what waits is sent after a resume. -/
def execPfc (p : Fin 12) (prio : Nat) (pause : Bool) (s : State) : Out :=
  .next (
    if s.portLive p.val && s.fld .FAB_PORT_CFG_mode p.val == modeEncap && s.flag .FAB_PORT_CFG_pfc_en p.val
        && prio == s.fld .FAB_PORT_CFG_pfc_prio p.val
    then
      ({ s with links := s.links.map (fun e => if e.1 / 4097 = p.val then (e.1, { e.2 with paused := pause }) else e) }
        : State).each (s.linksOf p.val) State.pump
    else s)

/-- LLDP (R344): a PLAIN port sends a frame with the fabric device ID. -/
def execLldp (p : Fin 12) (s : State) : Out :=
  .next (
    if s.portLive p.val && s.fld .FAB_PORT_CFG_mode p.val == modePlain then
      { s with plainTx := s.plainTx ++ [⟨0xCC, { Frame.blank with src := BitVec.ofNat 16 (s.fld .FAB_ID_dev_id 0) }, none⟩] }
    else s)

/-! ### Reception -/

/-- What the link does with a frame that arrives: it goes no further, or it is for this device. -/
inductive Rx where
  | gone (s : State)
  | mine (s : State)

/-- The neighbour entry a frame's link belongs to: the one its source's route names (log entry 25). -/
def State.rxNbr (s : State) (f : Frame) : Nat := s.fld .FAB_ROUTE_nbr f.src.toNat

/-- R353: a frame for another device forwarded. -/
def State.forward (s : State) (type : Nat) (f : Frame) : State :=
  if f.hops = 0 then s.satFld .FAB_COUNT_hop_drops 0 1
  else
    match s.route f.dst.toNat with
    | some (p, n) => s.putOnLink p n type { f with hops := f.hops - 1 }
    | none => (s.satFld .FAB_COUNT_no_route 0 1).frameLost ⟨type, f, none⟩

/-- R347: the listed frame types. -/
def listedTypes : List Nat :=
  [ftRdReq, ftRdRsp, ftWrReq, ftWrAck, ftAtomReq, ftAtomRsp, ftFeReq, ftFeRsp, ftFeWithdraw, ftFenceSig, ftFenceAck,
    ftCollData, ftCollCredit, ftCollAbort, ftFwRelay, ftProbe]

/-- R350: a PROBE that only carries `lack` or a NAK: it stands outside the sequence of its tunnel (log entry 25). -/
def ackProbe (type : Nat) (f : Frame) : Bool := type == ftProbe && f.arg == 1

/-- R356, R357: a frame in sequence taken off a link: an acknowledgement is due, and its credit goes back (R349). -/
def Link.took (l : Link) (native : Bool) (type : Nat) (f : Frame) : Link :=
  let n := if native then unitCount f else 0
  { l with
    nextRx := (l.nextRx + 1) % 2 ^ 32, nak := none, peer := f.src, ackDue := l.ackDue || type != ftProbe || !f.vc
    ret0 := if f.vc then l.ret0 else l.ret0 + n, ret1 := if f.vc then l.ret1 + n else l.ret1 }

/-- R344, R347, R350 to R353, R356: the reception of a frame. -/
def State.rx (s : State) (p type : Nat) (f : Frame) : Rx :=
  let mode := s.fld .FAB_PORT_CFG_mode p
  if !s.portLive p || mode == modeOff then .gone s
  else if mode = modePlain then .gone (s.satFld .FAB_PORT_ERR_dropped p 1)
  else
    let k := s.linkKey p (s.rxNbr f)
    let l := s.link k
    if ackProbe type f then .gone (if f.good then s.ackTo k f.lack.toNat else s)
    else if !f.good then .gone ((s.satFld .FAB_PORT_ERR_crc_errors p 1).setLink k { l with nak := some l.nextRx })
    else if f.lseq.toNat ≠ l.nextRx then
      .gone ((s.logHdr (2 * p + 1) type f).setLink k { l with nak := some l.nextRx })
    else
      let s := (s.logHdr (2 * p + 1) type f).setLink k (l.took (mode == modeNative) type f)
      let s := s.ackTo k f.lack.toNat
      let d := f.dst.toNat
      let me := s.fld .FAB_ID_dev_id 0
      if !listedTypes.contains type then .gone (s.satFld .FAB_PORT_ERR_dropped p 1)
      else if s.january then (if d = 0xFFFE ∧ type = ftFwRelay then .mine s else .gone s)
      else if me = 0 ∨ d = 0 ∨ d = 0xFFFF then .gone s
      else if d = me then .mine s
      else if mode = modeNative then .gone (s.forward type f)
      else .gone (s.satFld .FAB_COUNT_no_route 0 1)

/-- R357: the bytes of the frames that wait from one link. -/
def State.arrivedBytes (s : State) (k : Nat) : Nat :=
  ((s.arrived.filter (fun a => a.key == k)).map (fun a => wireLen a.frame)).sum

/-- R357: whether a frame that has to wait finds no room: an ENCAP neighbour has 256 KiB; the credits of a NATIVE link
leave room for every frame. -/
def State.noRoom (s : State) (p k : Nat) (f : Frame) : Bool :=
  s.fld .FAB_PORT_CFG_mode p == modeEncap && decide (s.arrivedBytes k + wireLen f > 262144)

/-- R357: whether an ENCAP port with PFC tells a neighbour to pause: while a longest frame would find no room (log entry
25). -/
def State.pfcOut (s : State) (p k : Nat) : State :=
  let l := s.link k
  let on := s.fld .FAB_PORT_CFG_mode p == modeEncap && s.flag .FAB_PORT_CFG_pfc_en p
    && decide (s.arrivedBytes k + 4132 > 262144)
  if l.pausing = on then s else s.setLink k { l with pausing := on }

/-- The credits of a frame that waits at its fabric die: kept, or given back with its end (R349). -/
def State.credit (s : State) (a : Arrived) (back : Bool) : State :=
  if s.fld .FAB_PORT_CFG_mode a.port = modeNative then
    let l := s.link a.key
    let n := unitCount a.frame
    let f := fun (r : Nat) => if back then r + n else r - n
    s.setLink a.key { l with ret0 := if a.frame.vc then l.ret0 else f l.ret0, ret1 := if a.frame.vc then f l.ret1 else l.ret1 }
  else s

/-- A frame kept at its fabric die until what it needs is there. -/
def State.keepFrame (s : State) (a : Arrived) : State :=
  ({ s with arrived := s.arrived ++ [a] } : State).credit a false |>.pfcOut a.port a.key

/-- A frame received, and handled where it is this device's; a frame that has to wait is kept, or, without room for it,
left to its sender (R357). -/
def State.receive (s : State) (p type : Nat) (f : Frame) (k : State → Took) : State :=
  match s.rx p type f with
  | .gone s' => s'
  | .mine s' =>
    match k s' with
    | .ok t => t
    | .error t =>
      let a : Arrived := ⟨p, s.linkKey p (s.rxNbr f), type, f⟩
      if s.noRoom p a.key f then s else (s'.waited t).keepFrame a

/-- A reply to a request of this device (R360, R423). -/
def State.onReply (type : Nat) (f : Frame) (s : State) : Took :=
  match s.replyFor type f with
  | some r =>
    (match r.replyPart type f.status.toNat f.data with
      | some bs => s.remAnswer r f.status.toNat f.arg.toNat bs
      | none => .ok { s with remote := s.remote.map (fun x => if x.tid = r.tid then { x with got := r.got ++ f.data } else x) })
  | none => .ok s

/-- RD_RSP, WR_ACK, ATOM_RSP, FE_RSP, FENCE_ACK (R360, R363). -/
def execRdRsp (p : Fin 12) (f : Frame) (s : State) : Out := .next (s.receive p.val ftRdRsp f (State.onReply ftRdRsp f))
def execWrAck (p : Fin 12) (f : Frame) (s : State) : Out := .next (s.receive p.val ftWrAck f (State.onReply ftWrAck f))
def execAtomRsp (p : Fin 12) (f : Frame) (s : State) : Out :=
  .next (s.receive p.val ftAtomRsp f (State.onReply ftAtomRsp f))
def execFeRsp (p : Fin 12) (f : Frame) (s : State) : Out := .next (s.receive p.val ftFeRsp f (State.onReply ftFeRsp f))
def execFenceAck (p : Fin 12) (f : Frame) (s : State) : Out :=
  .next (s.receive p.val ftFenceAck f (State.onReply ftFenceAck f))

/-- PROBE (R350, R355): a request is answered, an answer measures its route. -/
def State.onProbe (f : Frame) (s : State) : Took :=
  if f.vc then
    match s.replyFor ftProbe f with
    | some r => s.remAnswer r f.status.toNat 0 []
    | none => .ok s
  else .ok (s.sendOrDrop ftProbe { Frame.blank with dst := f.src, tid := f.tid, tepoch := f.tepoch, vc := true })
def execProbe (p : Fin 12) (f : Frame) (s : State) : Out := .next (s.receive p.val ftProbe f (State.onProbe f))

/-! ### Collective frames -/

/-- COLL_CREDIT, COLL_ABORT, COLL_DATA (R368 to R371). -/
def State.onCollCredit (p : Nat) (f : Frame) (s : State) : Took :=
  .ok (s.collCreditIn p (bits f.addr.toNat 32 8) (f.addr.toNat % 2 ^ 32) f.src.toNat f.arg.toNat)
def State.onCollAbort (p : Nat) (f : Frame) (s : State) : Took :=
  .ok (s.collAbortIn p (bits f.addr.toNat 32 8) (f.addr.toNat % 2 ^ 32) f.src.toNat)
def State.onCollData (p : Nat) (f : Frame) (s : State) : Took :=
  s.collDataIn p (bits f.addr.toNat 32 8) (f.addr.toNat % 2 ^ 32) f.src.toNat f.arg.toNat f.tid.toNat f.data
def execCollCredit (p : Fin 12) (f : Frame) (s : State) : Out :=
  .next (s.receive p.val ftCollCredit f (State.onCollCredit p.val f))
def execCollAbort (p : Fin 12) (f : Frame) (s : State) : Out :=
  .next (s.receive p.val ftCollAbort f (State.onCollAbort p.val f))
def execCollData (p : Fin 12) (f : Frame) (s : State) : Out :=
  .next (s.receive p.val ftCollData f (State.onCollData p.val f))

/-! ### Requests of peers -/

/-- The reply to a request (R348), its data in payloads that the path carries (R350). -/
def State.answer (s : State) (type : Nat) (f : Frame) (status arg : Nat) (data : List Byte) : State :=
  let s := if status = 1 then s.satFld .FAB_COUNT_denied 0 1 else s
  let m := s.maxPay f.src.toNat
  let parts := if data.length ≤ m then [data] else (cuts m data.length).map (fun c => (data.drop c.1).take c.2)
  s.each parts (fun s bs =>
    s.sendOrDrop (type + 1) { Frame.blank with
      dst := f.src, tid := f.tid, tepoch := f.tepoch, vc := true, status := BitVec.ofNat 3 status
      arg := BitVec.ofNat 32 arg, data := bs })

/-- R361: whether the export table admits a source at a page for a write or an atomic. -/
def State.exported (s : State) (src dpn : Nat) (w amo : Bool) : Bool :=
  (List.range 256).any (fun x =>
    let b := s.fld .FAB_EXPORT_dpn_base x
    s.flag .FAB_EXPORT_valid x && decide (b ≤ dpn) && decide (dpn < b + s.fld .FAB_EXPORT_count x)
      && (s.fld .FAB_EXPORT_src_id x == src || s.fld .FAB_EXPORT_src_id x == 0xFFFF)
      && (!w || s.flag .FAB_EXPORT_w x) && (!amo || s.flag .FAB_EXPORT_amo x))

/-- The address a request names, and the status with which it is refused, if it is (R348, R361). -/
def reqAddr (f : Frame) : Nat := f.addr.toNat % 2 ^ 44
def State.refused (s : State) (f : Frame) (n : Nat) (w amo : Bool) : Option Nat :=
  let d := reqAddr f
  let pages := (List.range ((d % 65536 + n + 65535) / 65536)).map (d / 65536 + ·)
  if pages.any (fun x => !s.exported f.src.toNat x w amo) then some 1
  else (pages.filterMap (fun x => s.answerOf (.dev (x * 65536)))).head?.map statusOf

/-- A request of a peer performed once the host has given up its lines (R335); a memory line that it has to read and
that is uncorrectable answers it so (R222, R360). -/
def State.peerOp (s : State) (type : Nat) (f : Frame) (n : Nat) (w amo : Bool) (k : State → Option State) : Took :=
  match s.refused f n w amo with
  | some st => .ok (s.answer type f st 0 [])
  | none =>
    match s.heldLine (.dev (reqAddr f)) n (w || amo) with
    | some t => .error (s.biSnoop t (w || amo))
    | none =>
      let x := if w then (s, false) else s.takeBad (.dev (reqAddr f)) n
      if x.2 then .ok (x.1.answer type f 3 0 [])
      else
        match k s with
        | some t => .ok t
        | none => .error s

/-- RD_REQ (R359, R361). -/
def State.onRdReq (f : Frame) (s : State) : Took :=
  let n := min (max f.arg.toNat 1) 4096
  s.peerOp ftRdReq f n false false (fun s =>
    let d := reqAddr f
    let bs := (spans 3 d n).flatMap (fun c => s.devBytes c.1 c.2)
    some ((s.touchSpan none (.dev d) n false).answer ftRdReq f 0 0 bs))
def execRdReq (p : Fin 12) (f : Frame) (s : State) : Out := .next (s.receive p.val ftRdReq f (State.onRdReq f))

/-- R372: bytes that end a tile whose CRC the frame may carry: only a step sends so many (R359); an `arg` of 0 is a CRC
where the tile's is 0 (log entry 25). -/
def endsTile (f : Frame) : Bool := decide (f.data.length ≥ 1024) && (reqAddr f + f.data.length) % 4096 == 0

/-- The bytes of a WR_REQ written as a non-tile write; a line whose fill is uncorrectable is lost (R222). -/
def State.peerPut (s : State) (f : Frame) : Option State :=
  let d := reqAddr f
  let n := f.data.length
  (spans 3 d n).foldl (fun (a : Option State) c =>
    a.bind (fun s =>
      let bs := (f.data.drop (c.1 - d)).take c.2
      if s.fillBad (.dev c.1) bs.length then (s.place (c.1 / 65536)).map (fun s => s.linesPut none (.dev c.1) bs)
      else s.spanPut none (.dev c.1) bs (if endsTile f ∧ f.arg ≠ 0 ∧ n = 4096 then some none else none))) (some s)

/-- WR_REQ (R359, R361, R372): performed as a non-tile write; at the end of a tile with its `crc` the tile is compared.
-/
def State.onWrReq (f : Frame) (s : State) : Took :=
  let n := f.data.length
  s.peerOp ftWrReq f (max n 1) true false (fun s =>
    let d := reqAddr f
    let bad := (spans 3 d n).any (fun c => s.fillBad (.dev c.1) c.2)
    (s.peerPut f).map (fun s =>
      let t := d + n - 4096
      let crc := crc32c (s.devBytes t 4096)
      if bad then s.answer ftWrReq f 3 0 []
      else if endsTile f ∧ crc = f.arg.toNat then (s.chkWhole t (some crc)).answer ftWrReq f 0 0 []
      else if endsTile f ∧ f.arg ≠ 0 then (s.chkWhole t none).answer ftWrReq f 3 0 []
      else s.answer ftWrReq f 0 0 []))
def execWrReq (p : Fin 12) (f : Frame) (s : State) : Out := .next (s.receive p.val ftWrReq f (State.onWrReq f))

/-- The lane operands of ATOM_REQ: pairs for a compare-and-swap (R347). -/
def atomOperands (cas : Bool) (n : Nat) (bs : List Byte) : List (Nat × Nat) :=
  (List.range n).map (fun i =>
    if cas then (leNat ((bs.drop (16 * i)).take 8), leNat ((bs.drop (16 * i + 8)).take 8))
    else (leNat ((bs.drop (8 * i)).take 8), 0))

/-- ATOM_REQ (R66, R160, R359, R361): the operations of one address performed at the home. -/
def State.onAtomReq (f : Frame) (s : State) : Took :=
  let size := f.size.toNat
  let w := if size = 2 then 4 else 8
  let op := 0x10 + f.aop.toNat
  s.peerOp ftAtomReq f w false true (fun s =>
    let d := reqAddr f / w * w
    let l := (atomOperands (op == opCas) (min f.arg.toNat 32) f.data).map (fun e =>
      (e.1 % 2 ^ (8 * w), e.2 % 2 ^ (8 * w)))
    let old := leNat (s.devBytes d w)
    let r := atomRun op size f.sign old l
    let put := if r.1 = old then some (s.homeTouch none (.dev d)) else s.homeWrite none (.dev d) (natLe w r.1) none
    put.map (fun s => s.answer ftAtomReq f 0 0 (r.2.flatMap (natLe 8))))
def execAtomReq (p : Fin 12) (f : Frame) (s : State) : Out := .next (s.receive p.val ftAtomReq f (State.onAtomReq f))

/-- FE_REQ (R165, R359, R361): held at the owning die. -/
def State.onFeReq (p : Nat) (f : Frame) (s : State) : Took :=
  let op := 0x20 + f.aop.toNat
  s.peerOp ftFeReq f 8 false true (fun s =>
    let d := reqAddr f / 8 * 8
    match s.feArrive d op (leNat (f.data.take 8)) (.peer f.src.toNat f.tid.toNat p f.tepoch.toNat) s.now 0xFF with
    | (s, .fault m) => some (s.answer ftFeReq f (statusOf m) 0 [])
    | (s, .notSync) => some (s.answer ftFeReq f 6 0 [])
    | (_, .returned) => none
    | (s, _) => some s)
def execFeReq (p : Fin 12) (f : Frame) (s : State) : Out := .next (s.receive p.val ftFeReq f (State.onFeReq p.val f))

/-- FE_WITHDRAW (R360): the waiter it names is withdrawn, or its operation that still waits for the host. -/
def State.onFeWithdraw (f : Frame) (s : State) : Took :=
  let mine := fun (a : Arrived) => a.type == ftFeReq && a.frame.src == f.src && a.frame.tid == f.tid
    && a.frame.tepoch == f.tepoch
  let s := s.each (s.arrived.filter mine) (fun s a => s.credit a true)
  .ok (({ s with arrived := s.arrived.filter (fun a => !mine a) } : State).feWithdraw (fun w => match w.src with
    | .peer dev tid _ ep => dev == f.src.toNat && tid == f.tid.toNat && ep == f.tepoch.toNat
    | _ => false))
def execFeWithdraw (p : Fin 12) (f : Frame) (s : State) : Out :=
  .next (s.receive p.val ftFeWithdraw f (State.onFeWithdraw f))

/-- FENCE_SIG (R293, R363). -/
def State.onFenceSig (f : Frame) (s : State) : Took :=
  let n := f.addr.toNat % 4096
  if s.flag .CFE_FENCE_CTL_remote_ok n then
    let r := s.fenceSignal n (leNat (f.data.take 8))
    .ok (r.1.answer ftFenceSig f 0 (b2n r.2) [])
  else .ok (s.answer ftFenceSig f 1 0 [])
def execFenceSig (p : Fin 12) (f : Frame) (s : State) : Out :=
  .next (s.receive p.val ftFenceSig f (State.onFenceSig f))

/-! ### Frames that wait, and what links owe -/

/-- What a frame of a type does. FW_RELAY frames never wait. -/
def State.onFrame (s : State) (p type : Nat) (f : Frame) : Took :=
  if type = ftRdReq then s.onRdReq f
  else if type = ftWrReq then s.onWrReq f
  else if type = ftAtomReq then s.onAtomReq f
  else if type = ftFeReq then s.onFeReq p f
  else if type = ftFeWithdraw then s.onFeWithdraw f
  else if type = ftFenceSig then s.onFenceSig f
  else if type = ftCollData then s.onCollData p f
  else if type = ftCollCredit then s.onCollCredit p f
  else if type = ftCollAbort then s.onCollAbort p f
  else if type = ftProbe then s.onProbe f
  else if type = ftFwRelay then .ok s
  else State.onReply type f s

/-- A frame that waits tried again. -/
def State.retryFrame (s : State) (a : Arrived) : State :=
  match ({ s with arrived := s.arrived.erase a } : State).onFrame a.port a.type a.frame with
  | .ok t => (t.credit a true).pfcOut a.port a.key
  | .error t => s.waited t

/-- R349, R350: what a link owes sent when no other frame carries it: a control unit, or a PROBE. -/
def State.linkTick (s : State) (k : Nat) : State :=
  let p := k / 4097
  let l := s.link k
  let due := l.nak.isSome || l.ackDue
  if !s.portSends p then s
  else if s.fld .FAB_PORT_CFG_mode p = modeNative then
    if due ∨ l.ret0 + l.ret1 ≠ 0 then s.setLink k l.tell else s
  else if due then
    let f := { Frame.blank with
      dst := l.peer, src := BitVec.ofNat 16 (s.fld .FAB_ID_dev_id 0), arg := 1, lseq := BitVec.ofNat 32 l.nextTx
      lack := BitVec.ofNat 32 (l.nextRx + 2 ^ 32 - 1) }
    (s.logHdr (2 * p) ftProbe f).setLink k l.tell
  else s

/-- The frames that wait tried again, and what the links owe sent. -/
def State.fabricTick (s : State) : State :=
  if !s.serves then s else (s.each s.arrived State.retryFrame).each (s.links.map (·.1)) State.linkTick


/-! ### Timeouts of requests -/

/-- DEAD_TARGET_TIMEOUT (R186, R360): a request of a cell, by its identity, or a flush, by its transaction, has waited
its limit: loads and atomics at a peer halt the cell, stores that something waits for are lost. A step's request, by its
transaction, ends the step as unreachable. In an orderly power-down only stores are left to wait (R185). -/
def execDeadTargetTimeout (c : CellId) (id : Nat) (s : State) : Out :=
  let c := cellNo c
  let step := s.remote.find? (fun r => r.tid == id && decide (s.now ≥ r.since + r.lim) && (match r.svc with
    | .piece _ _ _ => r.type != ftFeReq
    | .fence _ _ => true
    | _ => false))
  .next (
    if !s.serves then s
    else
      match s.req c id, step with
      | some q, _ =>
        let late := fun (l : LaneOp) => match l.st with
          | .sent tid => s.remote.any (fun r => r.tid == tid && decide (s.now ≥ r.since + r.lim))
          | _ => false
        (match q.kind.cls with
          | 0 => if s.alive then s.failAway c q late else s
          | 3 => (match q.kind with | .fe _ _ => s | _ => if s.alive then s.failAway c q late else s)
          | _ =>
            let away := s.storeDue c q.sentFor
            let here := s.storeDue c q.heldBy
            if away || here then (s.loseStores c q away here).streamPoll planOf c else s)
      | none, some r => if s.alive then (s.remAnswer r 4 0 []).or s else s
      | none, none =>
        match s.remote.find? (fun r => r.tid == id && (match r.svc with | .flush c' _ _ => c' == c | _ => false)) with
        | some r => if s.storeDue c (fun _ n _ => decide (n ≥ 3)) then (s.loseFlush c r).streamPoll planOf c else s
        | none => (s.loseHeld c).streamPoll planOf c)

end Sys2Proof.Machine
end

