-- ==== Sys2Proof/Machine/Fw.lean ====
section
/-!
DEFINITION. Staging of a firmware set (R404 to R406), its relay (R407 to R409), arming and passing on of an activation
(R410, R413), the mailbox (R417), and the poll of the boot flash in January mode (R416). Log entry 27.
-/

namespace Sys2Proof.Machine

/-- The codes of R405. -/
def fcFwImageFormat : Nat := 0x100A
def fcFwSignature : Nat := 0x2003
def fcFwRollback : Nat := 0x2004
def fcFwActivateFailed : Nat := 0x3007
def fcFwFlash : Nat := 0x6009

/-- SEC_FW_STATE `stage_state` values. -/
def stNone : Nat := 0
def stStaging : Nat := 1
def stStaged : Nat := 2
def stArmed : Nat := 3
def stActivating : Nat := 4

/-- The `port` of a transfer that the mailbox opened. -/
def mbxPort : Nat := 12

def State.stage (s : State) : Nat := s.fld .SEC_FW_STATE_stage_state 0

/-- R401, R405: the code of a set's fault, and the mailbox result (R417). -/
def SetFault.code : SetFault → Nat
  | .format => fcFwImageFormat
  | .signature => fcFwSignature
  | .rollback => fcFwRollback
def SetFault.result : SetFault → Nat
  | .format => 3
  | .signature => 4
  | .rollback => 5

/-! ### Staging -/

/-- R406: whether a state of the device forbids a new staging of `len` bytes. -/
def State.stageBusy (s : State) : Bool :=
  s.sec.xfer.isSome || s.stage == stStaging || s.stage == stArmed || s.stage == stActivating
def State.slotFits (s : State) (slot len : Nat) : Bool :=
  match s.slotPart slot with
  | some (_, size) => decide (len + 4096 ≤ size)
  | none => false

/-- No set is staged. -/
def State.unstaged (s : State) : State :=
  ({ s with sec := { s.sec with relayId := 0, targets := [], passed := false } }).setFlds 0
    [(.SEC_FW_STATE_stage_state, stNone), (.SEC_FW_STAGED_version, 0), (.SEC_RELAY_ID_relay_id, 0)]

/-- R404 step 1: staging into a slot begins; an earlier staged set is lost. -/
def State.stageBegin (s : State) (slot : Nat) : State :=
  ((s.unstaged).setFld .SEC_FW_STATE_stage_state 0 stStaging).eraseSeal slot

/-- R404 step 2: bytes of the set programmed at an offset of the slot. -/
def State.stagePut (s : State) (slot off : Nat) (bs : List Byte) : State :=
  match s.slotPart slot with
  | some (a, _) => s.program (a + off) bs
  | none => s

/-- R404 steps 3 to 5, R416: the set in a slot checked: STAGED, or NONE with its fault. In January mode the slot is
sealed and `set_ready` set with the path. -/
def State.stageEnd (s : State) (slot relay path : Nat) : State × Option SetFault :=
  match s.accept slot with
  | some f => (s.unstaged, some f)
  | none =>
    let jan := s.january
    let id := if jan then 0 else relay
    let s : State := { s with sec := { s.sec with
      slot := slot, relayId := id, targets := [], passed := false
      seen := if id = 0 ∨ s.sec.seen.contains id then s.sec.seen else id :: s.sec.seen } }
    let s := s.setFlds 0 [(.SEC_FW_STATE_stage_state, stStaged), (.SEC_FW_STAGED_version, s.setVersion slot),
      (.SEC_RELAY_ID_relay_id, id)]
    if jan then ((s.writeSeal slot (s.topSeal + 1)).setFlds 0 [(.SEC_JAN_set_ready, 1), (.SEC_JAN_path, path)], none)
    else (s, none)

/-! ### Relay -/

/-- R407: the target of a relay on a port. -/
def State.relayTarget (s : State) (p : Nat) : Option Nat :=
  if s.flag .FAB_ROUTE_valid 0xFFFE && s.fld .FAB_ROUTE_port 0xFFFE == p then some 0xFFFE
  else
    minBy (fun d => 65536 * s.fld .FAB_ROUTE_rtt_100ns d + d)
      ((s.routesVia p).filter (fun d => s.flag .FAB_ROUTE_valid d && s.fld .FAB_ROUTE_port d == p))

/-- A FW_RELAY frame put on a port towards a target (R408). -/
def State.relayFrame (s : State) (p dst kind addr : Nat) (data : List Byte) (step : Option (Nat × Nat) := none) :
    State :=
  s.putOnLink p (s.fld .FAB_ROUTE_nbr dst) ftFwRelay (step := step) { Frame.blank with
    dst := BitVec.ofNat 16 dst, src := BitVec.ofNat 16 (s.fld .FAB_ID_dev_id 0)
    hops := BitVec.ofNat 4 (s.fld .FAB_CFG_hop_limit 0), addr := BitVec.ofNat 64 addr, arg := BitVec.ofNat 32 kind
    data := data }

/-- Whether a relay target can be reached (R351, R352, R355). -/
def State.relayUp (s : State) (p dst : Nat) : Bool :=
  s.fld .FAB_ID_dev_id 0 != 0 && s.portUsable p (s.fld .FAB_ROUTE_nbr dst) && !s.flag .FAB_ROUTE_over_budget dst

/-- R408: the staged set sent to one target; an own FW_STAGE step waits for its END. -/
def State.relayTo (s : State) (p dst id left : Nat) (own : Option (Nat × Nat)) : State :=
  if !s.relayUp p dst then s.satFld .SEC_RELAY_relay_skipped 0 1
  else
    let m := s.manifest s.sec.slot
    let len := mnum m 8 4
    let base := ((s.slotPart s.sec.slot).map (·.1)).getD 0
    let pay := if s.fld .FAB_PORT_CFG_mode p = modeEncap ∧ !s.flag .FAB_PORT_CFG_jumbo p then 1024 else 4096
    let s := s.relayFrame p dst 0 0 (natLe 8 id ++ natLe 8 len ++ [BitVec.ofNat 8 left] ++ List.replicate 15 0)
    let s := s.each (cuts pay len) (fun s c => s.relayFrame p dst 1 c.1 (s.flashBytes (base + c.1) c.2))
    let k := s.linkKey p (s.fld .FAB_ROUTE_nbr dst)
    let s := s.relayFrame p dst 2 0 [] own
    { s with sec := { s.sec with
      targets := s.sec.targets ++ [(p, dst)]
      ends := match own with
        | some step => s.sec.ends ++ [(k, step)]
        | none => s.sec.ends } }

/-- R407: the staged set relayed on ports; a named port without a target is skipped and counted. -/
def State.relayPorts (s : State) (ports : List Nat) (id left : Nat) (own : Option (Nat × Nat)) (count : Bool) : State :=
  s.each ports (fun s p =>
    match s.relayTarget p with
    | some d => s.relayTo p d id left own
    | none => if count then s.satFld .SEC_RELAY_relay_skipped 0 1 else s)

/-! ### FW_STAGE -/

/-- R404 to R408: a FW_STAGE step; it waits while the host holds a line it reads. -/
def State.fwStage (s : State) (p : Pkt) (e : FlashEnv) : State :=
  let src := p.b 8 8
  let len := p.b 16 8
  let ports := (List.range 12).filter (fun i => (p.b 24 2).testBit i)
  let hops := p.b 26 1 % 16
  let slot := s.inactive
  if len = 0 ∨ len > 32 * 2 ^ 20 then s.failPkt p fcFwImageFormat 0 []
  else if s.stageBusy || !s.slotFits slot len then s.failPkt p fcFwState 0 []
  else
    match s.stepRead p src len with
    | .wait s => s
    | .fail s c => ((s.stageBegin slot).unstaged).failPkt p c 0 []
    | .ok s bs =>
      let s := s.stageBegin slot
      if !e.flashOk then s.unstaged.failPkt p fcFwFlash 0 []
      else
        match (s.stagePut slot 0 bs).stageEnd slot 0 0 with
        | (s, some f) => s.failPkt p f.code 0 []
        | (s, none) =>
          if ports.isEmpty || hops == 0 then s.endPkt p 0
          else
            let id := s.fld .FAB_ID_dev_id 0 * 2 ^ 48 + s.now % 2 ^ 48
            let s : State := { s with sec := { s.sec with relayId := id, seen := id :: s.sec.seen } }
            let s := s.relayPorts ports id (hops - 1) (some (p.q, p.seq)) true
            if s.sec.ends.any (fun x => x.2 == (p.q, p.seq)) then s else s.endPkt p 0

/-! ### Arming -/

/-- R410 steps 1 to 3: the staged set armed, or the code of the failure. -/
def State.arm (s : State) (at_ : Nat) (late : Bool) (e : FlashEnv) : State × Nat :=
  if !e.flashOk then (s.unstaged, fcFwFlash)
  else
    match s.accept s.sec.slot with
    | some f => (s.unstaged, f.code)
    | none =>
      if !e.loadOk then (s, fcFwActivateFailed)
      else
        (({ s with sec := { s.sec with late := late } }).setFlds 0
          [(.SEC_FW_STATE_stage_state, stArmed), (.SEC_FW_ARM_at_ns, at_)], 0)

/-- R413: ACTIVATE sent to the targets of the staged set's relay. -/
def State.passActivate (s : State) (at_ : Nat) : State :=
  let s := s.each s.sec.targets (fun s t =>
    if s.relayUp t.1 t.2 then s.relayFrame t.1 t.2 3 0 (natLe 8 s.sec.relayId ++ natLe 8 at_) else s)
  { s with sec := { s.sec with passed := true } }

/-- R406, R410, R413: a FW_ACTIVATE step. -/
def State.fwActivate (s : State) (p : Pkt) (e : FlashEnv) : State :=
  let at_ := p.b 16 8
  if s.stage ≠ stStaged ∨ (at_ ≠ 0 ∧ at_ < s.now + 10000000) then s.failPkt p fcFwState 0 []
  else
    match s.arm at_ false e with
    | (s, 0) => (if p.b 8 1 % 2 = 1 then s.passActivate at_ else s).endPkt p 0
    | (s, c) => s.failPkt p c 0 []

/-! ### Relay frames received -/

/-- A FW_RELAY frame of a kind received on a port. -/
def State.relayIn (s : State) (p kind : Nat) (f : Frame) (k : State → State) : State :=
  s.receive p ftFwRelay f (fun s => .ok (if f.arg.toNat % 4 = kind then k s else s))

/-- The relay open on a port from a source, or the transfer of the mailbox. -/
def State.relayOpen (s : State) (p : Nat) (src : Nat := 0) : Option Transfer :=
  match s.sec.xfer with
  | some x => if x.port = p ∧ x.src = src then some x else none
  | none => none

/-- R409: the relay that a source begins on a port is ignored up to its END; `n` counts it. -/
def State.relaySkip (s : State) (p src n : Nat) : State :=
  ({ s with sec := { s.sec with skips := (p, src) :: s.sec.skips } }).satFld .SEC_RELAY_relay_busy 0 n

/-- R409: whether the frames of a source on a port belong to a relay that is ignored. -/
def State.relaySkips (s : State) (p src : Nat) : Bool := s.sec.skips.contains (p, src)

/-- FW_RELAY_START (R408, R409). -/
def execFwRelayStart (p : Fin 12) (f : Frame) (s : State) : Out :=
  .next (s.relayIn p.val 0 f (fun s =>
    let id := leNat (f.data.take 8)
    let len := leNat ((f.data.drop 8).take 8)
    let left := leNat ((f.data.drop 16).take 1)
    let slot := s.inactive
    let src := f.src.toNat
    if !s.flag .SEC_RELAY_relay_accept 0 || s.stageBusy then s.relaySkip p.val src 1
    else if s.sec.seen.contains id then s.relaySkip p.val src 0
    else if len = 0 ∨ len > 32 * 2 ^ 20 ∨ !s.slotFits slot len then s.unstaged.relaySkip p.val src 0
    else
      let s := s.stageBegin slot
      { s with sec := { s.sec with xfer := some ⟨slot, 0, len, 0, id, left, p.val, src⟩ } }))

/-- FW_RELAY_DATA (R408). -/
def execFwRelayData (p : Fin 12) (f : Frame) (s : State) : Out :=
  .next (s.relayIn p.val 1 f (fun s =>
    match s.relayOpen p.val f.src.toNat with
    | none => s
    | some x =>
      if s.relaySkips p.val f.src.toNat then s
      else if f.addr.toNat + f.data.length > x.length then s
      else
        let s := s.stagePut x.slot f.addr.toNat f.data
        { s with sec := { s.sec with xfer := some { x with got := x.got + f.data.length } } }))

/-- FW_RELAY_END (R404, R409, R416). -/
def execFwRelayEnd (p : Fin 12) (f : Frame) (e : FlashEnv) (s : State) : Out :=
  .next (s.relayIn p.val 2 f (fun s =>
    if s.relaySkips p.val f.src.toNat then
      { s with sec := { s.sec with skips := s.sec.skips.erase (p.val, f.src.toNat) } }
    else
      match s.relayOpen p.val f.src.toNat with
      | none => s
      | some x =>
        let s : State := { s with sec := { s.sec with xfer := none } }
        if !e.flashOk then s.unstaged
        else
          match s.stageEnd x.slot x.relay 2 with
          | (s, some _) => s
          | (s, none) =>
            let s := s.satFld .SEC_RELAY_relays_staged 0 1
            if s.january ∨ x.hops = 0 then s
            else s.relayPorts ((List.range 12).filter (fun i => i != p.val)) x.relay (x.hops - 1) none false))

/-- FW_RELAY_ACTIVATE (R413). -/
def execFwRelayActivate (p : Fin 12) (f : Frame) (e : FlashEnv) (s : State) : Out :=
  .next (s.relayIn p.val 3 f (fun s =>
    let id := leNat (f.data.take 8)
    let at_ := leNat ((f.data.drop 8).take 8)
    if s.january ∨ s.stage ≠ stStaged ∨ id = 0 ∨ id ≠ s.sec.relayId then s.satFld .SEC_RELAY_relay_busy 0 1
    else
      let late := decide (at_ < s.now + 10000000)
      let s := if s.sec.passed then s else s.passActivate at_
      (s.arm (if late then 0 else at_) late e).1))

/-! ### The mailbox -/

/-- R417: a mailbox command issued with its argument and ended with a result. -/
def State.mbx (s : State) (cmd arg : Nat) (k : State → State × Nat) : State :=
  let s := s.setFlds 0 [(.SEC_MBX_CMD_cmd, cmd), (.SEC_MBX_CMD_arg, arg), (.SEC_MBX_ARGHI_arg32, arg / 2 ^ 32)]
  let r := k s
  r.1.setFlds 0 [(.SEC_MBX_STATUS_state, if r.2 = 0 then 2 else 3), (.SEC_MBX_STATUS_result, r.2)]

/-- BEGIN. -/
def State.mbxOpen (s : State) (len : Nat) (image flashOk : Bool) : State × Nat :=
  let slot := s.inactive
  let open_ := fun (s : State) (x : Transfer) =>
    ((({ s with sec := { s.sec with xfer := some x } }).setFld .SEC_MBX_STATUS_bytes 0 0), 0)
  if s.sec.xfer.isSome ∨ (!image ∧ s.stage = stStaging) then (s, 1)
  else if image ∧ s.january then (s, 7)
  else if image then
    match s.partition 0x10 with
    | none => (s, 7)
    | some (off, size) =>
      if len = 0 then (s, 3)
      else if len > size then (s, 8)
      else if !flashOk then (s, 6)
      else open_ (s.eraseFlash off size) ⟨0, 1, len, 0, 0, 0, mbxPort, 0⟩
  else if s.stageBusy then (s, 7)
  else if len = 0 then (s, 3)
  else if len > 32 * 2 ^ 20 then (s, 8)
  else if !s.slotFits slot len then (s, 7)
  else if !flashOk then (s.unstaged, 6)
  else open_ (s.stageBegin slot) ⟨slot, 0, len, 0, 0, 0, mbxPort, 0⟩

/-- A transfer ended without a staged set. -/
def State.xferDrop (s : State) (x : Transfer) : State :=
  let s : State := { s with sec := { s.sec with xfer := none } }
  if x.target = 0 then s.unstaged else s

/-- CHUNK. -/
def State.mbxChunk (s : State) (n : Nat) (flashOk : Bool) : State × Nat :=
  match s.relayOpen mbxPort with
  | none => (s, 2)
  | some x =>
    if n = 0 ∨ n > 65536 then (s, 3)
    else if x.got + n > x.length then (s, 2)
    else if !flashOk then (s.xferDrop x, 6)
    else
      let bs := natLe n (s.fld .SEC_MBX_DATA_data 0)
      let s :=
        if x.target = 0 then s.stagePut x.slot x.got bs
        else match s.partition 0x10 with | some (off, _) => s.program (off + x.got) bs | none => s
      let s : State := { s with sec := { s.sec with xfer := some { x with got := x.got + n } } }
      (s.setFld .SEC_MBX_STATUS_bytes 0 (x.got + n), 0)

/-- FINISH. -/
def State.mbxFinish (s : State) (flashOk : Bool) : State × Nat :=
  match s.relayOpen mbxPort with
  | none => (s, 2)
  | some x =>
    if !flashOk then (s.xferDrop x, 6)
    else
      let s : State := { s with sec := { s.sec with xfer := none } }
      if x.target ≠ 0 then (s, 0)
      else
        match s.stageEnd x.slot 0 1 with
        | (s, some f) => (s, f.result)
        | (s, none) => (s, 0)

/-- ABORT, of the mailbox's own transfer. -/
def State.mbxDrop (s : State) : State × Nat :=
  match s.relayOpen mbxPort with
  | some x => (s.xferDrop x, 0)
  | none => (s, 0)

/-- DISARM. -/
def State.mbxDisarm (s : State) : State × Nat :=
  if s.stage = stArmed then (s.setFld .SEC_FW_STATE_stage_state 0 stStaged, 0) else (s, 7)

/-- JANUARY_NEXT. -/
def State.mbxJanuary (s : State) (v : Bool) : State × Nat := (s.setFld .SEC_FW_STATE_january_next 0 (b2n v), 0)

/-- Whether Limhel serves the mailbox (R415, R417, R430): in every state but a fatal stop. -/
def State.mbxRuns (s : State) : Bool :=
  let b := s.fld .HIF_PROMPT_STATE_boot_state 0
  s.pwr.pwrgood && !s.pwr.regsOff && !s.pwr.offReq && b != 0 && b != 0xA

/-- Whether the host can give the mailbox a command. -/
def State.mbxUp (s : State) : Bool := s.mbxRuns && s.barUp

/-- BEGIN, CHUNK, FINISH, ABORT, DISARM, JANUARY_NEXT (R417). -/
def execMbxBegin (len : BitVec 32) (target : Bool) (flashOk : Bool) (s : State) : Out :=
  .next (if s.mbxUp then s.mbx 1 (len.toNat + 2 ^ 32 * b2n target) (fun s => s.mbxOpen len.toNat target flashOk) else s)
def execChunk (n : Nat) (flashOk : Bool) (s : State) : Out :=
  .next (if s.mbxUp then s.mbx 2 (n % 2 ^ 17) (fun s => s.mbxChunk (n % 2 ^ 17) flashOk) else s)
def execFinish (flashOk : Bool) (s : State) : Out :=
  .next (if s.mbxUp then s.mbx 3 0 (fun s => s.mbxFinish flashOk) else s)
def execMbxAbort (s : State) : Out := .next (if s.mbxUp then s.mbx 4 0 State.mbxDrop else s)
def execDisarm (s : State) : Out := .next (if s.mbxUp then s.mbx 5 0 State.mbxDisarm else s)
def execJanuaryNext (v : Bool) (s : State) : Out :=
  .next (if s.mbxUp then s.mbx 6 (b2n v) (fun s => s.mbxJanuary v) else s)

/-- A command issued by a write of `go` (R417), its flash working; RESTART is the caller's. -/
def State.mbxGo (s : State) (cmd arg : Nat) : State :=
  match cmd with
  | 1 => s.mbx 1 arg (fun s => s.mbxOpen (arg % 2 ^ 32) (arg.testBit 32) true)
  | 2 => s.mbx 2 arg (fun s => s.mbxChunk (arg % 2 ^ 17) true)
  | 3 => s.mbx 3 arg (fun s => s.mbxFinish true)
  | 4 => s.mbx 4 arg State.mbxDrop
  | 5 => s.mbx 5 arg State.mbxDisarm
  | 6 => s.mbx 6 arg (fun s => s.mbxJanuary (arg.testBit 0))
  | _ => s.mbx cmd arg (fun s => (s, 7))

/-- JANUARY_FLASH_POLL (R416): a slot with a valid seal that passes R401 is ready as it is; a set that is ready already
keeps its path. -/
def execJanuaryFlashPoll (s : State) : Out :=
  .next (
    if s.january && !s.flag .SEC_JAN_set_ready 0 && s.candidates.any (fun c => s.accept c == none) then
      s.setFlds 0 [(.SEC_JAN_set_ready, 1), (.SEC_JAN_path, 3)]
    else s)

end Sys2Proof.Machine
end

