-- ==== Sys2Proof/Machine/HostReset.lean ====
section
/-! DEFINITION. The resets seen from the host (R340), D3hot (R322), and the training of the host link (R319, R320). A
reset is in progress, `boot_state` RESETTING, until every context is destroyed (R313), the link is up, and what its row
names besides is done. Log entry 28. -/

namespace Sys2Proof.Machine

/-- Host lines in the shared caches invalidated without write-back. -/
def State.dropHost (s : State) : State := ({ s with hostDirty := [] }).hostFlush

/-- R340: configuration space and HDM decoder at their defaults. -/
def State.configReset (s : State) : State :=
  let off := fun (e : Nat × Msix) => (e.1, { e.2 with masked := true, pending := false })
  let s : State := { s with
    hif := { s.hif with
      decoder := none, notComm := false, inval := false, viral := false, viralEn := false, d3hot := false
      msixEn := false, msixMask := false, base := []
      doe0 := none, doe1 := none, doeErr0 := false, doeErr1 := false, busy0 := 0
      busy1 := 0 }
    msix := s.msix.map off }
  s.setFlds 0 [(.HIF_LINK_STATUS_mem_en, 0), (.HIF_LINK_STATUS_cache_en, 0)]

/-- The host link down: the host holds no line of the device any more. -/
def State.linkDown (s : State) : State :=
  ({ s with hif := { s.hif with linkUp := false, pcie := false, filter := [], snoops := [] } }).setFlds 0
    [(.HIF_LINK_STATUS_mode, 0), (.HIF_LINK_STATUS_lanes, 0), (.HIF_LINK_STATUS_degraded, 0),
      (.HIF_LINK_STATUS_cache_en, 0)]

/-- The contexts that are not FREE. -/
def State.liveAscs (s : State) : List Nat := (List.range 64).filter (fun a => s.fld .CFE_ASC_STATE_state a != 0)

/-- Whether work of a context is left. -/
def State.drained (s : State) : Bool := s.liveAscs.isEmpty

/-- R340: whether every frame is zeroed. -/
def State.allZeroed (s : State) : Bool :=
  s.unclean.isEmpty && (List.range 4).all (fun p => !s.locUp (12 + p) || s.farClear.contains p)

/-- A reset ends: READY. -/
def State.resetDone (s : State) : State := ({ s with hif := { s.hif with rst := .none } }).setBoot 8

/-- R340: what a reset still has to do once its contexts are destroyed and the link is up. -/
def State.resetStep (s : State) : State :=
  match s.hif.rst with
  | .host => s.dropHost.resetDone
  | .flr => s.hostInval.resetDone
  | .cxl clr true => if clr && !s.allZeroed then s else s.resetDone
  | .cxl clr false =>
    let s := s.hostInval.freePages 0 (2 ^ 28)
    let s : State := { s with hif := { s.hif with filter := [], snoops := [], rst := .cxl clr true } }
    let s :=
      if clr then
        ({ s with dump := none }).setFlds 0 [(.RAS_DUMP_STATUS_valid, 0), (.RAS_DUMP_STATUS_pieces, 0),
          (.RAS_DUMP_STATUS_host_written, 0), (.RAS_DUMP_STATUS_host_truncated, 0), (.HIF_PROMPT_STATE_dump_valid, 0)]
      else s
    if clr && !s.allZeroed then s else s.resetDone
  | _ => s

/-- R340: the end of a reset in progress, where nothing is left of it and no activation of firmware is under way. -/
def State.resetCheck (s : State) : State :=
  if s.alive && s.fld .HIF_PROMPT_STATE_boot_state 0 == 0xB && s.stage != stActivating && s.drained && s.hif.linkUp then
    s.resetStep
  else s

/-- R340, R410: every context destroyed. -/
def State.endWork (s : State) : State := s.each s.liveAscs State.ascDrain

/-- The reset that is in progress once another has come. -/
def Resetting.and : Resetting → Resetting → Resetting
  | .cxl c r, .cxl c' _ => .cxl (c || c') r
  | .cxl c r, _ => .cxl c r
  | _, r => r

/-- R332, R340, R380, R431: a host-side reset; before READY and in January mode it reaches configuration space alone;
after a fatal stop, too, but the host lines that an FLR or a CXL Reset writes back and invalidates. -/
def State.hostReset (s : State) (r : Resetting) (down : Bool) : State :=
  let s := s.configReset
  let s := if down then s.linkDown else s
  let b := s.fld .HIF_PROMPT_STATE_boot_state 0
  if b = 0xA ∧ r ≠ .host then s.hostInval
  else if !s.alive || !(b == 8 || b == 0xB) then s
  else
    let s := if down then s.dropHost else s
    let s : State := { s with hif := { s.hif with rst := s.hif.rst.and r } }
    ((s.setBoot 0xB).endWork).resetCheck

/-- HOT_RESET, SECONDARY_BUS_RESET, LINK_DISABLE, SURPRISE_LINK_DOWN (R340). -/
def execHotReset (s : State) : Out := .next (if s.hostThere then s.hostReset .host true else s)
def execSecondaryBusReset (s : State) : Out := .next (if s.hostThere then s.hostReset .host true else s)
def execLinkDisable (s : State) : Out := .next (if s.hostThere then s.hostReset .host true else s)
def execSurpriseLinkDown (s : State) : Out := .next (if s.hostThere then s.hostReset .host true else s)

/-- FLR (R340). -/
def execFlr (s : State) : Out := .next (if s.hostThere then s.hostReset .flr false else s)

/-- CXL_RESET (R340). -/
def execCxlReset (memClr : Bool) (s : State) : Out :=
  .next (if s.hostThere && !s.hif.pcie then s.hostReset (.cxl memClr false) false else s)

/-- D3HOT_ENTRY (R322). -/
def execD3hotEntry (s : State) : Out :=
  .next (if s.hostThere then { s with hif := { s.hif with d3hot := true } } else s)

/-- D3HOT_TO_D0 (R322, R340): nothing is lost; messages held back go out. -/
def execD3hotToD0 (s : State) : Out :=
  .next (
    if s.hostThere && s.hif.d3hot then ({ s with hif := { s.hif with d3hot := false } } : State).msixFlush else s)

/-- HOST_LINK_TRAINED (R319, R320): the mode less one, the width, the rate; a reset that waits for the link may end. -/
def execHostLinkTrained (mode : Fin 4) (lanes : Nat) (gts : Nat) (s : State) : Out :=
  .next (
    if !(s.pwr.pwrgood && !s.pwr.perst && !s.pwr.regsOff) || s.linksHeld || !([1, 2, 4, 8, 16] : List Nat).contains lanes then s
    else
      let deg := decide (lanes < 16) || decide (gts < 64)
      let pcie := mode.val == 3
      let s : State := { s with hif := { s.hif with linkUp := true, pcie := pcie } }
      let s := s.setFlds 0 [(.HIF_LINK_STATUS_mode, mode.val), (.HIF_LINK_STATUS_lanes, lanes),
        (.HIF_LINK_STATUS_degraded, b2n deg)]
      (if deg then s.event else s).resetCheck)

end Sys2Proof.Machine
end

