-- ==== Sys2Proof/Machine/Attest.lean ====
section
/-!
DEFINITION. The DOE instances and the SPDM responder (R337 to R339). The layouts of DOE objects, CDAT entries and SPDM
messages, which the spec takes from their standards, are PRESUMED: log entry 38.
-/

namespace Sys2Proof.Machine

/-! ### DOE -/

/-- Whether the device answers in configuration space: it has power and its host link is up. -/
def State.cfgUp (s : State) : Bool :=
  s.pwr.pwrgood && !s.pwr.regsOff && s.fld .HIF_PROMPT_STATE_boot_state 0 != 0 && s.hif.linkUp && !s.hif.crs

/-- Whether a DOE instance still works on a request. -/
def State.doeBusy (s : State) (inst : Bool) : Bool := decide (s.now < if inst then s.hif.busy1 else s.hif.busy0)

/-- R337: a request to a DOE instance: discarded with Error while one is in progress; else it is in progress for an open
time and its answer stands. -/
def State.doe (s : State) (inst : Bool) (k : State → State × Response) : State :=
  if !s.cfgUp then s
  else if s.doeBusy inst then
    { s with hif := if inst then { s.hif with doeErr1 := true } else { s.hif with doeErr0 := true } }
  else
    let r := k s
    let t := r.1.now + r.1.freeAt 0
    let s := r.1.drew 1
    { s with hif :=
        if inst then { s.hif with doe1 := some r.2, busy1 := t } else { s.hif with doe0 := some r.2, busy0 := t } }

/-- The protocols of an instance, as (vendor, type): DOE Discovery and CMA/SPDM, or CXL Table Access. -/
def doeProtocols (inst : Bool) : List (Nat × Nat) := [(0x0001, 0), if inst then (0x1E98, 2) else (0x0001, 1)]

/-- A DOE Discovery response. -/
def discovery (inst : Bool) (index : Nat) : Response :=
  match (doeProtocols inst)[index]? with
  | some p => ⟨0x1000, index, natLe 2 p.1 ++ natLe 1 p.2 ++ natLe 1 (if index = 0 then 1 else 0)⟩
  | none => ⟨0x1000, index, natLe 2 0xFFFF ++ natLe 1 0 ++ natLe 1 0⟩

/-- DOE_DISCOVERY (R337). -/
def execDoeDiscovery (inst : Bool) (index : Nat) (s : State) : Out :=
  .next (s.doe inst (fun s => (s, discovery inst index)))

/-- R337: the CDAT: its header, the DSMAS of the HDM window, a latency and a bandwidth DSLBIS with open figures. -/
def State.cdat (s : State) (entry : Nat) : List Byte :=
  match entry with
  | 0 => natLe 4 88 ++ natLe 1 1 ++ natLe 7 0 ++ natLe 4 0
  | 1 => natLe 2 0 ++ natLe 2 24 ++ natLe 4 0 ++ natLe 8 0 ++ natLe 8 (s.fld .CFG_HOST_hdm_size_gib 0 * 2 ^ 30)
  | 2 => natLe 2 1 ++ natLe 2 24 ++ natLe 4 0 ++ (Config.freeBytes s.free 16)
  | 3 => natLe 2 1 ++ natLe 2 24 ++ [0, 0, 3, 0] ++ (Config.freeBytes s.free 16)
  | _ => []

/-- TABLE_ACCESS (R337): the entry with the handle of the next. -/
def execTableAccess (entry : Nat) (s : State) : Out :=
  .next (s.doe true (fun s =>
    (s.drew 1, ⟨0x1002, entry, natLe 2 0 ++ natLe 2 (if entry < 3 then entry + 1 else 0xFFFF) ++ s.cdat entry⟩)))

/-- DOE_ABORT (R337). -/
def execDoeAbort (inst : Bool) (s : State) : Out :=
  .next (
    if !s.cfgUp then s
    else
      { s with hif :=
          if inst then { s.hif with doe1 := none, doeErr1 := false, busy1 := 0 }
          else { s.hif with doe0 := none, doeErr0 := false, busy0 := 0 } })

/-! ### SPDM -/

/-- SPDM response codes; `addr` of a response holds its two parameters. -/
def spdmError (code : Nat) : Response := ⟨0x7F, code, []⟩

/-- R338: a request to the responder by a path. -/
def State.spdm (s : State) (path : SpdmPath) (k : State → State × Response) : State :=
  match path with
  | .doe => s.doe false k
  | .mctp =>
    if !(s.pwr.pwrgood && !s.pwr.regsOff && s.fld .HIF_PROMPT_STATE_boot_state 0 != 0) then s
    else
      let r := k s
      { r.1 with hif := { r.1.hif with spdm := some r.2 } }

/-- A request that is expected only once negotiation has come so far; else UnexpectedRequest. -/
def State.spdmAt (s : State) (n : Nat) (k : State × Response) : State × Response :=
  if s.hif.spdmSt = n then k else (s, spdmError 4)

/-- The negotiation's progress set. -/
def State.spdmTo (s : State) (n : Nat) : State := { s with hif := { s.hif with spdmSt := n } }

/-- GET_VERSION (R338): versions 1.2 and 1.3. -/
def execGetVersion (path : SpdmPath) (s : State) : Out :=
  .next (s.spdm path (fun s => (s.spdmTo 1, ⟨0x04, 0, natLe 1 0 ++ natLe 1 2 ++ natLe 2 0x1200 ++ natLe 2 0x1300⟩)))

/-- GET_CAPABILITIES (R338): CTExponent 20; CERT_CAP, CHAL_CAP, MEAS_CAP with signature. -/
def execGetCapabilities (path : SpdmPath) (s : State) : Out :=
  .next (s.spdm path (fun s => s.spdmAt 1
    (s.spdmTo 2, ⟨0x61, 0, natLe 1 0 ++ natLe 1 20 ++ natLe 2 0 ++ natLe 4 0x16⟩)))

/-- NEGOTIATE_ALGORITHMS (R338): DMTF measurements, TPM_ALG_SHA_512, TPM_ALG_RSAPSS_4096. -/
def execNegotiateAlgorithms (path : SpdmPath) (s : State) : Out :=
  .next (s.spdm path (fun s => s.spdmAt 2
    (s.spdmTo 3, ⟨0x63, 0, natLe 2 36 ++ natLe 1 1 ++ natLe 1 0 ++ natLe 4 0x8 ++ natLe 4 0x40 ++ natLe 4 0x4
      ++ natLe 16 0⟩)))

/-- R397: the certificate chain of slot 0: the 16 KiB of the factory store. -/
def State.chain (s : State) : List Byte := bytesAt s.sec.otp 0 16384

/-- GET_DIGESTS (R338): slot 0 only. -/
def execGetDigests (path : SpdmPath) (s : State) : Out :=
  .next (s.spdm path (fun s => s.spdmAt 3 (s, ⟨0x01, 256 * 1, sha512 s.chain⟩)))

/-- GET_CERTIFICATE (R338): a portion of the chain of slot 0 (R397). -/
def execGetCertificate (path : SpdmPath) (slot off len : Nat) (s : State) : Out :=
  .next (s.spdm path (fun s =>
    let n := min len (16384 - off)
    s.spdmAt 3 (s, if slot ≠ 0 ∨ off ≥ 16384 then spdmError 1
      else ⟨0x02, 0, natLe 2 n ++ natLe 2 (16384 - off - n) ++ bytesAt s.sec.otp off n⟩)))

/-- CHALLENGE (R338, R398): the chain's digest, a fresh nonce, the identity key's signature over both and the
requester's nonce. -/
def execChallenge (path : SpdmPath) (slot : Nat) (nonce : List Byte) (s : State) : Out :=
  .next (s.spdm path (fun s =>
    let m := sha512 s.chain ++ Config.freeBytes s.free 32 ++ natLe 2 0
    s.spdmAt 3 (if slot ≠ 0 then (s, spdmError 1)
      else (s.drew 2, ⟨0x03, 256 * 1, m ++ Config.sign s.fuses.secret (nonce ++ m) (s.free + 1)⟩))))

/-! ### Measurements (R339) -/

/-- The digest of the component of a type in the running set (R400), zeros where no set runs. -/
def State.compDigest (s : State) (ctype : Nat) : List Byte :=
  if s.sec.running.isEmpty then List.replicate 64 0
  else (((components s.sec.running).find? (fun c => c.ctype == ctype)).map (·.hash)).getD []

/-- The DMTF type and the value of a measurement block; bit 7 of the type marks a raw value. -/
def State.measure (s : State) (n : Nat) : Nat × List Byte :=
  match n with
  | 1 => (0x00, natLe 64 Config.romDigest.toNat)
  | 7 => (0x04, sha512 s.sec.running)
  | 8 => (0x86, natLe 8 (mnum s.sec.running 0x10 8))
  | 9 => (0x87, natLe 4 s.fuses.svn)
  | 10 => (0x02, natLe 64 (Config.fuseDigest s.fuses.revoked s.fuses.svn s.fuses.debug).toNat)
  | 11 => (0x03, if s.sec.image = [] then sha512 [] else s.sec.image)
  | 12 => (0x85, [BitVec.ofNat 8 (s.fld .HIF_PROMPT_STATE_boot_state 0), BitVec.ofNat 8 (b2n s.january),
      BitVec.ofNat 8 (b2n s.fuses.debug)])
  | k => (0x01, s.compDigest (k - 1))

/-- A measurement block in DMTF format. -/
def State.block12 (s : State) (n : Nat) : List Byte :=
  let m := s.measure n
  natLe 1 n ++ natLe 1 1 ++ natLe 2 (m.2.length + 3) ++ natLe 1 m.1 ++ natLe 2 m.2.length ++ m.2

/-- GET_MEASUREMENTS (R339): operation 0 the number of blocks, 0xFF all of them; signed where a nonce is given. -/
def execGetMeasurements (path : SpdmPath) (op : Nat) (nonce : List Byte) (s : State) : Out :=
  .next (s.spdm path (fun s =>
    let ns := if op = 0 then [] else if op = 0xFF then (List.range 12).map (· + 1) else [op]
    let rec_ := ns.flatMap s.block12
    let m := natLe 1 ns.length ++ natLe 3 rec_.length ++ rec_ ++ Config.freeBytes s.free 32 ++ natLe 2 0
    s.spdmAt 3 (if op > 12 ∧ op ≠ 0xFF then (s, spdmError 1)
      else (s.drew 2, ⟨0x60, if op = 0 then 12 else 0,
        m ++ (if nonce.isEmpty then [] else Config.sign s.fuses.secret (nonce ++ m) (s.free + 1))⟩))))

end Sys2Proof.Machine
end

