-- ==== Sys2Proof/Machine/ConfigSpace.lean ====
section
/-! DEFINITION. The function's configuration space (R1, R322 to R324), the CXL component registers of BAR0 (R12, R324)
and the contents of BAR4 (R325, R336): what a host reads there, and the writes that have an effect. The spec gives the
values; where they lie in configuration space and in the component block is PRESUMED from PCIe and CXL, log entry 50. -/

namespace Sys2Proof.Machine

/-! ### The DVSECs (R324) -/

/-- The values of the CXL Device DVSEC: sizes in MiB and GiB, the timeout in seconds. -/
structure CxlDvsec where
  cacheCap   : Bool
  ioCap      : Bool
  memCap     : Bool
  memHwInit  : Bool
  hdmCount   : Nat
  cacheMib   : Nat
  wbInvCap   : Bool
  resetCap   : Bool
  resetSec   : Nat
  memClrCap  : Bool
  viralCap   : Bool
  mld        : Bool
  range1Gib  : Nat
  range1Valid : Bool
  range1Active : Bool
  range2Gib  : Nat
deriving DecidableEq, Repr

/-- R324: Memory_Info_Valid and Memory_Active are set once the March load has ended; Range 1's media type and memory
class are volatile memory. -/
def State.cxlDvsec (s : State) : CxlDvsec where
  cacheCap := true
  ioCap := true
  memCap := decide (s.fld .CFG_HOST_hdm_size_gib 0 > 0)
  memHwInit := false
  hdmCount := 1
  cacheMib := 384
  wbInvCap := true
  resetCap := true
  resetSec := 100
  memClrCap := true
  viralCap := true
  mld := false
  range1Gib := s.fld .CFG_HOST_hdm_size_gib 0
  range1Valid := !s.hif.crs
  range1Active := !s.hif.crs
  range2Gib := 0

/-- The cache size of the DVSEC as its unit of 1 MiB and its count, in one field of 12 bits (PRESUMED, log entry 50). -/
def CxlDvsec.cap2 (d : CxlDvsec) : Nat := 2 + 16 * d.cacheMib

/-- The capability word of the DVSEC; 100 s is code 4 of the timeout. -/
def CxlDvsec.cap (d : CxlDvsec) : Nat :=
  b2n d.cacheCap + 2 * b2n d.ioCap + 4 * b2n d.memCap + 8 * b2n d.memHwInit + 16 * d.hdmCount + 2 ^ 6 * b2n d.wbInvCap
    + 2 ^ 7 * b2n d.resetCap + 2 ^ 8 * (if d.resetSec = 100 then 4 else 0) + 2 ^ 11 * b2n d.memClrCap + 2 ^ 13 * b2n d.mld
    + 2 ^ 14 * b2n d.viralCap

/-- R324: the Flex Bus Port DVSEC: Cache, IO and Mem capable, 68-byte and 256-byte flits; the Register Locator: component
registers in BAR0 at 0x0304_0000, of 64 KiB. -/
def flexBusCap : Nat := 1 + 2 + 4 + 2 ^ 5 + 2 ^ 6
def componentBase : Nat := 0x3040000

/-! ### The header and the extended capabilities (R322, R325) -/

/-- R325: the sizes of the BAR pairs: 64 MiB, 16 MiB, 64 KiB. -/
def barSizes : List Nat := [2 ^ 26, 2 ^ 24, 2 ^ 16]

/-- R325: the value of BAR register `k`: of a pair's low half the bits above its size, and its type: 64-bit,
non-prefetchable. -/
def State.barReg (s : State) (k : Nat) : Nat := mapGet 0 s.hif.base k + (if k % 2 = 0 then 4 else 0)

/-- A write of a BAR register: the address bits above the pair's size are kept. -/
def State.barRegWrite (s : State) (k v : Nat) : State :=
  let v := if k % 2 = 0 then v / barSizes.getD (k / 2) 1 * barSizes.getD (k / 2) 1 else v
  { s with hif := { s.hif with base := mapSet 0 s.hif.base k v } }

/-- An extended capability's header: its ID, version and the offset of the next. -/
def extCap (id version next : Nat) : Nat := id + 2 ^ 16 * version + 2 ^ 20 * next

/-- A DVSEC's second word: the vendor ID of CXL, its revision and length. -/
def dvsec (revision length : Nat) : Nat := 0x1E98 + 2 ^ 16 * revision + 2 ^ 20 * length

/-- The status word of a DOE instance: busy, error, a response ready. -/
def State.doeStatus (s : State) (i : Bool) : Nat :=
  let busy := if i then s.hif.busy1 else s.hif.busy0
  b2n (decide (s.now < busy)) + 4 * b2n (if i then s.hif.doeErr1 else s.hif.doeErr0)
    + 2 ^ 31 * b2n (if i then s.hif.doe1.isSome else s.hif.doe0.isSome)

/-- R322, R337: the capabilities beyond the CXL DVSECs: Lane Margining at the Receiver, Data Link Feature, Physical Layer
16, 32 and 64 GT/s, the two DOE instances, and Device 3 with 14-bit tags. -/
def State.extRead (s : State) (off : Nat) : Nat :=
  match off with
  | 0x200 => extCap 0x27 1 0x260
  | 0x260 => extCap 0x25 1 0x270
  | 0x270 => extCap 0x26 1 0x2A0
  | 0x2A0 => extCap 0x2A 1 0x2E0
  | 0x2E0 => extCap 0x31 1 0x320
  | 0x320 => extCap 0x2E 2 0x340
  | 0x32C => s.doeStatus false
  | 0x340 => extCap 0x2E 2 0x360
  | 0x34C => s.doeStatus true
  | 0x360 => extCap 0x2F 1 0
  | 0x364 => 2 + 4
  | _ => 0

/-! ### Reads of configuration space -/

/-- R1, R322 to R325: the 4 bytes of configuration space at an offset: IDs, revision and class code; the BARs; subsystem
IDs; MSI-X control, table and pending bits; the power state with No_Soft_Reset; the PCI Express capability (an endpoint,
FLR, 10-bit tags, x16 at 64 GT/s, no ASPM); AER; the serial number; the CXL Device, Flex Bus Port and Register Locator
DVSECs; the capabilities of `extRead`; whatever else the spec does not give reads as zero. -/
def State.configRead (s : State) (off : Nat) : Nat :=
  let d := s.cxlDvsec
  match off / 4 * 4 with
  | 0x00 => 0x1DAE + 2 ^ 16 * 0x4812
  | 0x04 => 2 ^ 20
  | 0x08 => 0xA1 + 2 ^ 8 * 0x120000
  | 0x10 => s.barReg 0
  | 0x14 => s.barReg 1
  | 0x18 => s.barReg 2
  | 0x1C => s.barReg 3
  | 0x20 => s.barReg 4
  | 0x24 => s.barReg 5
  | 0x2C => s.fld .CFG_HOST_SUBSYS_subsys_vendor 0 + 2 ^ 16 * s.fld .CFG_HOST_SUBSYS_subsys_id 0
  | 0x34 => 0x40
  | 0x40 => 0x11 + 2 ^ 8 * 0x50 + 2 ^ 16 * 2047 + 2 ^ 30 * b2n s.hif.msixMask + 2 ^ 31 * b2n s.hif.msixEn
  | 0x44 => 4
  | 0x48 => 0x8000 + 4
  | 0x50 => 1 + 2 ^ 8 * 0x60
  | 0x54 => 8 + (if s.hif.d3hot then 3 else 0)
  | 0x60 => 0x10 + 2 ^ 16 * 2
  | 0x64 => 2 ^ 5 + 2 ^ 28
  | 0x6C => 6 + 2 ^ 4 * 16
  | 0x84 => 2 ^ 16 + 2 ^ 17
  | 0x100 => 1 + 2 ^ 20 * 0x148
  | 0x104 => if s.hif.aer = 0 then 0 else 2 ^ 22
  | 0x148 => 3 + 2 ^ 20 * 0x160
  | 0x14C => s.fuses.serial % 2 ^ 32
  | 0x150 => s.fuses.serial / 2 ^ 32 % 2 ^ 32
  | 0x160 => 0x23 + 2 ^ 20 * 0x1A0
  | 0x164 => dvsec 3 0x3C
  | 0x168 => 2 ^ 16 * d.cap
  | 0x16C =>
    s.fld .HIF_LINK_STATUS_cache_en 0 + 2 + 2 ^ 14 * b2n s.hif.viralEn + 2 ^ 30 * b2n s.hif.viral
  | 0x170 => 2 ^ 16 * b2n s.hif.inval
  | 0x174 => 2 ^ 16 * d.cap2
  | 0x178 => d.range1Gib * 2 ^ 30 / 2 ^ 32
  | 0x17C => d.range1Gib * 2 ^ 30 % 2 ^ 32 + b2n d.range1Valid + 2 * b2n d.range1Active
  | 0x1A0 => 0x23 + 2 ^ 20 * 0x1C0
  | 0x1A4 => dvsec 2 0x20
  | 0x1A8 => 7 + 2 ^ 16 * flexBusCap
  | 0x1C0 => 0x23 + 2 ^ 20 * 0x200
  | 0x1C4 => dvsec 0 0x14
  | 0x1C8 => 8
  | 0x1CC => componentBase + 2 ^ 8
  | a => s.extRead a

/-- R336, R321: a write of configuration space: the BARs; MSI-X Enable and Function Mask; CXL.cache and viral enable.
What else configuration space takes has its own row, or no effect in this spec. -/
def State.configWrite (s : State) (off v : Nat) : State :=
  match off with
  | 0x40 => ({ s with hif := { s.hif with msixEn := v.testBit 31, msixMask := v.testBit 30 } } : State).msixFlush
  | 0x16C =>
    if s.hif.pcie then s
    else
      ({ s with hif := { s.hif with viralEn := v.testBit 14 } } : State).setFld .HIF_LINK_STATUS_cache_en 0
        (b2n (v.testBit 0))
  | 0x10 => s.barRegWrite 0 v
  | 0x14 => s.barRegWrite 1 v
  | 0x18 => s.barRegWrite 2 v
  | 0x1C => s.barRegWrite 3 v
  | 0x20 => s.barRegWrite 4 v
  | 0x24 => s.barRegWrite 5 v
  | _ => s

/-! ### Component registers -/

/-- R324: 4 bytes of the component block: the headers of the RAS, link and HDM decoder capabilities, and decoder 0; the
spec sets no bit of the others. -/
def State.componentRead (s : State) (off : Nat) : Nat :=
  let b := match s.hif.decoder with | some d => d.1 | none => 0
  let n := match s.hif.decoder with | some d => d.2 | none => 0
  let up := s.hif.decoder.isSome
  match off / 4 * 4 with
  | 0x1000 => 1 + 2 ^ 16 + 2 ^ 20 + 2 ^ 24 * 3
  | 0x1004 => 2 + 2 ^ 16 * 2 + 2 ^ 20 * 0x100
  | 0x1008 => 4 + 2 ^ 16 * 2 + 2 ^ 20 * 0x180
  | 0x100C => 5 + 2 ^ 16 * 3 + 2 ^ 20 * 0x200
  | 0x1204 => 2 * b2n up
  | 0x1210 => b % 2 ^ 32
  | 0x1214 => b / 2 ^ 32 % 2 ^ 32
  | 0x1218 => n % 2 ^ 32
  | 0x121C => n / 2 ^ 32 % 2 ^ 32
  | 0x1220 => 2 ^ 10 * b2n up + 2 ^ 11 * b2n s.hif.notComm
  | _ => 0

/-! ### BAR4 -/

/-- R325, R336: 4 bytes of BAR4: an entry's address, data and mask, or 32 pending bits. -/
def State.msixRead (s : State) (off : Nat) : Nat :=
  if off < 0x8000 then
    let m := s.vec (off / 16)
    match off % 16 / 4 with
    | 0 => m.addr % 2 ^ 32
    | 1 => m.addr / 2 ^ 32 % 2 ^ 32
    | 2 => m.data % 2 ^ 32
    | _ => b2n m.masked
  else if off < 0x8100 then
    ((List.range 32).map (fun i => 2 ^ i * b2n (s.vec (8 * (off / 4 * 4 - 0x8000) + i)).pending)).sum
  else 0

/-! ### The dump aperture (R435) -/

/-- R435: bytes of the aperture: the 2 MiB of the piece and window that RAS_DUMP_WIN selects, as close memory holds them;
zero without a valid dump or for an absent piece. -/
def State.apertureRead (s : State) (off size : Nat) : Nat :=
  match s.dump with
  | none => 0
  | some d =>
    match mapFind d.sites (s.fld .RAS_DUMP_WIN_piece 0) with
    | none => 0
    | some i =>
      if !s.flag .HIF_PROMPT_STATE_dump_valid 0 then 0
      else
        leNat ((List.range size).map (fun n =>
          mapGet 0 s.mem (i * 2 ^ 42 + 1029120 * 65536 + s.fld .RAS_DUMP_WIN_window 0 * 2 ^ 21 + off + n)))

end Sys2Proof.Machine
end

