-- ==== Sys2Proof/Machine/Preset.lean ====
section
/-!
DEFINITION. The actions of RAS_PRESET_CTL on sites, far-tier ports and Silit ports (R426, R427). An action begins with a
write of `go` or with its own command, and ends with its own command, which brings the outcome of training; an
evacuation ends with EVACUATION_COMPLETE.
-/

namespace Sys2Proof.Machine

/-- The actions of RAS_PRESET_CTL. -/
def actEvacuate : Nat := 0
def actReset : Nat := 1
def actDown : Nat := 2
def actUp : Nat := 3

/-- The states of a site besides those of `Mem.lean`. -/
def siteOff : Nat := 0
def siteTraining : Nat := 1
def siteResetting : Nat := 4

/-- R426: whether an action is legal in the unit's present state. Kinds: 0 site, 1 far-tier port, 2 Silit port. -/
def State.presetLegal (s : State) (kind i act : Nat) : Bool :=
  match kind with
  | 0 =>
    let st := s.fld .MEM_SITE_STATUS_state i
    decide (i < 12) && (match act with
      | 0 => st == siteOnline
      | 1 => st == siteOnline || st == siteFailed
      | 2 => st == siteOnline && s.evac.any (fun u => match u with | .site x => x.val == i | .port _ => false)
          && s.pagesAt i == 0
      | 3 => st == siteOff
      | _ => false)
  | 1 =>
    let st := s.fld .FTP_STATUS_state i
    decide (i < 4) && (match act with
      | 0 => st == ftpOnline
      | 1 => st == ftpOnline || st == ftpFailed
      | 2 => st == ftpOnline
      | 3 => st == ftpOffline || st == ftpFailed
      | _ => false)
  | 2 =>
    let off := s.fld .FAB_PORT_CFG_mode i == modeOff
    decide (i < 12) && (match act with
      | 1 => !off
      | 2 => !off
      | 3 => s.siliOff.contains i
      | _ => false)
  | _ => false

/-- R216, R238, R425: a site out of service: its copies of the location table go; a MID without a site is fatal. -/
def State.siteGone (s : State) (i st : Nat) : State :=
  let s := s.setFlds i [(.MEM_SITE_STATUS_state, st), (.MEM_SITE_STATUS_dump_region, 0)]
  let s : State := { s with
    evac := s.evac.filter (fun u => match u with | .site x => x.val != i | .port _ => true)
    slices := s.slices.map (fun e =>
      (e.1, (if e.2.1 = some i then none else e.2.1, if e.2.2 = some i then none else e.2.2))) }
  let k := i / 3
  if (List.range 3).any (fun j => s.locUp (3 * k + j)) then s else s.fatalStop 0x0204 (24 + k)

/-- R220, R242, R423: a site trained: ONLINE with all its frames cleared, or FAILED, its epoch advanced. -/
def State.siteTrained (s : State) (i : Nat) (ok : Bool) : State :=
  if ok then (s.clearLoc i).setFlds i [(.MEM_SITE_STATUS_state, siteOnline), (.MEM_SITE_STATUS_chan_ok, 15)]
  else (s.bumpEpoch (unitSite i)).setFld .MEM_SITE_STATUS_state i siteFailed

/-- R426: what an action does as it begins. -/
def State.presetFirst (s : State) (kind i act : Nat) : State :=
  match kind, act with
  | 0, 0 => if h : i < 12 then s.beginEvac (.site ⟨i, h⟩) else s
  | 0, 1 =>
    let s := if s.fld .MEM_SITE_STATUS_state i = siteFailed then s else s.siteFail i
    if s.alive then (s.setFld .MEM_SITE_STATUS_state i siteResetting).setFld .RAS_PRESET_STATUS_busy 0 1 else s
  | 0, 2 => ((s.bumpEpoch (unitSite i)).siteGone i siteOff).setFld .RAS_PRESET_STATUS_busy 0 0
  | 0, _ => s.setFld .MEM_SITE_STATUS_state i siteTraining
  | 1, 0 => if h : i < 4 then s.beginEvac (.port ⟨i, h⟩) else s
  | 1, 1 => (if s.fld .FTP_STATUS_state i = ftpFailed then s else s.portFail i).setFld .FTP_STATUS_state i 1
  | 1, 2 => if h : i < 4 then s.beginEvac (.port ⟨i, h⟩) else s
  | 1, _ => s.setFlds i [(.FTP_CTL_online_req, 1), (.FTP_STATUS_state, 1)]
  | 2, 2 =>
    let s := ((s.portReset i).setFld .FAB_PORT_STATUS_state i portDown).setFld .RAS_PRESET_STATUS_busy 0 0
    { s with siliOff := if s.siliOff.contains i then s.siliOff else i :: s.siliOff }
  | 2, 1 => s.portReset i
  | _, _ => s.setFld .FAB_PORT_STATUS_state i portTraining

/-- R426: an action begins; none where it is not legal or another is in progress. -/
def State.presetBegin (s : State) (kind i act : Nat) : Option State :=
  if s.flag .RAS_PRESET_STATUS_busy 0 || !s.presetLegal kind i act then none
  else
    let s := s.setFlds 0 [(.RAS_PRESET_CTL_kind, kind), (.RAS_PRESET_CTL_index, i), (.RAS_PRESET_CTL_action, act),
      (.RAS_PRESET_STATUS_busy, 1), (.RAS_PRESET_STATUS_failed, 0)]
    let s := if act = actEvacuate then s.setFld .RAS_PRESET_STATUS_evac_failed 0 0 else s
    some (s.presetFirst kind i act)

/-- Whether the action in progress is the one named. -/
def State.presetOn (s : State) (kind i act : Nat) : Bool :=
  s.presetIs kind i && s.fld .RAS_PRESET_CTL_action 0 == act

/-- An action that its own command begins, unless a write has begun it, and ends with an outcome: the unit's state and
whether it returned to service. -/
def State.presetDo (s : State) (kind i act : Nat) (fin : State → State × Bool) : State :=
  if !s.ready then s
  else
    match (if s.presetOn kind i act then some s else s.presetBegin kind i act) with
    | none => s
    | some s =>
      if !s.alive || !s.presetOn kind i act then s
      else
        let r := fin s
        r.1.setFlds 0 [(.RAS_PRESET_STATUS_busy, 0), (.RAS_PRESET_STATUS_failed, b2n (!r.2))]

/-- An action that only begins. -/
def State.presetGo (s : State) (kind i act : Nat) : State := if s.ready then (s.presetBegin kind i act).getD s else s

/-- SITE_EVACUATE, SITE_RESET, SITE_POWER_DOWN, SITE_POWER_UP (R425, R426). -/
def execSiteEvacuate (site : Fin 12) (s : State) : Out := .next (s.presetGo 0 site.val actEvacuate)
def execSiteReset (site : Fin 12) (ok : Bool) (s : State) : Out :=
  .next (s.presetDo 0 site.val actReset (fun s => (s.siteTrained site.val ok, ok)))
def execSitePowerDown (site : Fin 12) (s : State) : Out := .next (s.presetGo 0 site.val actDown)
def execSitePowerUp (site : Fin 12) (ok : Bool) (s : State) : Out :=
  .next (s.presetDo 0 site.val actUp (fun s => (s.siteTrained site.val ok, ok)))

/-- FAR_PORT_EVACUATE, FAR_PORT_POWER_DOWN, FAR_PORT_RESET, FAR_PORT_POWER_UP (R229, R230, R426). -/
def execFarPortEvacuate (p : Fin 4) (s : State) : Out := .next (s.presetGo 1 p.val actEvacuate)
def execFarPortPowerDown (p : Fin 4) (s : State) : Out := .next (s.presetGo 1 p.val actDown)
def execFarPortReset (p : Fin 4) (e : PortEnum) (s : State) : Out :=
  .next (s.presetDo 1 p.val actReset (fun s => (s.enumerate p.val e, e.trained && !s.linksHeld)))
def execFarPortPowerUp (p : Fin 4) (e : PortEnum) (s : State) : Out :=
  .next (s.presetDo 1 p.val actUp (fun s => (s.enumerate p.val e, e.trained && !s.linksHeld)))

/-- A Silit port trained under an action. -/
def State.siliFin (s : State) (p : Nat) (l : Training) : State × Bool :=
  let s : State := { s with siliOff := s.siliOff.filter (fun x => x != p) }
  let s := s.portTrained p l
  (s, s.fld .FAB_PORT_STATUS_state p != portDown)

/-- SILIT_PORT_RESET, SILIT_PORT_POWER_DOWN, SILIT_PORT_POWER_UP (R426, R427). -/
def execSilitPortReset (p : Fin 12) (l : Training) (s : State) : Out :=
  .next (s.presetDo 2 p.val actReset (fun s => s.siliFin p.val l))
def execSilitPortPowerDown (p : Fin 12) (s : State) : Out := .next (s.presetGo 2 p.val actDown)
def execSilitPortPowerUp (p : Fin 12) (l : Training) (s : State) : Out :=
  .next (s.presetDo 2 p.val actUp (fun s => s.siliFin p.val l))

end Sys2Proof.Machine
end

