-- ==== Sys2Proof/Machine/Reset.lean ====
section
/-!
DEFINITION. What a chip reset (R378) and a loss of power (R439, R440) leave.
-/

namespace Sys2Proof.Machine

/-- The register fields that last from power-up to power-off: the maps with their isolation marks and substitutions (R21,
R25), the counts since power-up (R33, R36, R420), and `january_next` until the boot ROM reads it (R414). Log entry 31. -/
def Fld.sincePower : Fld → Bool
  | .REG_STATUS_reset_count => true
  | .REG_BLOCK_MAP_cell_enabled => true
  | .REG_BLOCK_MAP_cell_isolate_pending => true
  | .REG_BLOCK_MAP_spare_available => true
  | .REG_BLOCK_MAP_block_enabled => true
  | .BLK_CELL_MAP_phys_of_logical => true
  | .REG_PMC_ONLINE_NS_online_ns => true
  | .RAS_RGN_CAUSE_count => true
  | .SEC_FW_STATE_january_next => true
  | _ => false

/-- R378: chip reset: every register at its reset value, every unit idle, no link up; the flash, the fuses, the factory
store, the host's own memory, the pins and the TAP stay, and what was written for the next chip reset (R396). -/
def State.chipReset (s : State) : State :=
  { State.reset with
    pending := s.pending
    free := s.free
    hostMem := s.hostMem
    flash := s.flash
    fuses := s.fuses
    tap := s.tap
    nextKern := s.nextKern
    regs := s.regs.filter (fun e => (Fld.ofNat (e.1 % 1024)).sincePower)
    later := s.later
    side := { State.reset.side with addr0 := s.side.addr0, addr1 := s.side.addr1 }
    sec := { State.reset.sec with otp := s.sec.otp, rootKey := s.sec.rootKey }
    pwr := { State.reset.pwr with
      pwrgood := s.pwr.pwrgood, perst := s.pwr.perst, recovery := s.pwr.recovery, brake := s.pwr.brake
      offPin := s.pwr.offPin, thermtrip := s.pwr.thermtrip, regsOff := s.pwr.regsOff } }

/-- R21: the block maps as the fuses give them: a block whose spare was used at the factory has its failed cell off, its
spare on, and the fuses' map of logical cells. -/
def State.fuseMaps (s : State) : State :=
  s.each s.fuses.failed (fun s e =>
    s.setFlds e.1 [(.REG_BLOCK_MAP_cell_enabled, 0x1FF - 2 ^ (e.2 % 9)), (.REG_BLOCK_MAP_spare_available, 0),
      (.BLK_CELL_MAP_phys_of_logical, mapGet 0x76543210 s.fuses.maps e.1)])

/-- R439, R440: a loss of power: apart from its fuses and the boot flash the device keeps nothing. -/
def State.powerLoss (s : State) : State :=
  let s := ({ s.chipReset with regs := [], later := (none, none) } : State).fuseMaps
  { s with
    tap := State.reset.tap
    pwr := { s.pwr with pwrgood := false, thermtrip := false, regsOff := false } }

end Sys2Proof.Machine
end

