-- ==== Sys2Proof/Machine/Region.lean ====
section
/-!
DEFINITION. Regions: isolation, spares and disabled blocks (R22 to R25, R201), region reset (R424), quarantine (R420,
R421), power-down and power-up (R277, R185), the kernels that fail with them (R422), and the token rate (R34). A reset
takes two commands, its isolation and its end, and a power-up one more, its ramp: log entry 29.
-/

namespace Sys2Proof.Machine

/-- The blocks and cells of a region. -/
def blocksOf (r : Nat) : List Nat := (List.range 12).map (12 * r + ·)
def regionCells (r : Nat) : List Nat := (List.range 108).map (108 * r + ·)

/-! ### Registers that a region reset returns to their reset values -/

/-- The registers of a region's performance counters (R36). -/
def Reg.isPmc : Reg → Bool
  | .REG_PMC_CTL => true
  | .REG_PMC_SEL => true
  | .REG_PMC_VAL => true
  | .REG_PMC_SNAP => true
  | .REG_PMC_SNAP_TIME => true
  | _ => false

/-- The registers of blocks and cells that a region reset sets to their reset values (R73): all but BLK_ABFT_CTL and
those of the fuse map. -/
def Reg.regional : Reg → Bool
  | .CEL_HALT_INFO => true
  | .CEL_STORE_LOST => true
  | .CEL_TS_RETIRED => true
  | .BLK_ABFT_COUNT => true
  | .CEL_ABFT_INFO => true
  | .CEL_ABFT_RETRIES => true
  | .CEL_CACHE_MODE => true
  | .CEL_ECC_COUNT => true
  | .CEL_TCHK_COUNT => true
  | .CEL_TCHK_CRC => true
  | .CEL_TCHK_ENTRY => true
  | .BLK_L2_STATUS => true
  | .BLK_L2_ECC => true
  | .BLK_L2_ERR_ADDR => true
  | _ => false

/-- How many instances of a regional register one region has. -/
def Reg.perRegion (x : Reg) : Nat := (x.desc.dims.tail.map (·.1)).prod

/-- R36, R73: those registers of a region at their reset values, and with `pmc` those of its performance counters, which
keep their values while it is OFFLINE. -/
def State.regionRegs (s : State) (r : Nat) (pmc : Bool) : State :=
  let mine := fun (e : Nat × Nat) =>
    let f := (Fld.ofNat (e.1 % 1024)).desc.reg
    (f.regional || (pmc && f.isPmc)) && e.1 / 1024 / f.perRegion == r
  { s with regs := s.regs.filter (fun e => !mine e) }

/-! ### Spares (R21 to R23) -/

/-- The physical cell of a block that is neither enabled nor failed, while `spare_available`. -/
def State.spareOf (s : State) (b : Nat) : Option Nat :=
  if s.flag .REG_BLOCK_MAP_spare_available b then
    firstBelow 9 (fun i => !(s.fld .REG_BLOCK_MAP_cell_enabled b).testBit i)
  else none

/-- The logical map with one physical cell in another's place. -/
def remapCell (m p q : Nat) : Nat :=
  (List.range 8).foldl (fun m l => if bits m (4 * l) 4 = p then setBits m (4 * l) 4 q else m) m

/-- R23: a block disabled. -/
def State.blockOff (s : State) (b : Nat) : State :=
  s.setFlds b [(.REG_BLOCK_MAP_block_enabled, 0), (.REG_BLOCK_MAP_cell_enabled, 0)]

/-- R23, R201: a block at its region's reset, with the cells and the L2 that failed their self-test, which BLK_L2_STATUS
shows of a disabled block too. A block that is disabled keeps `spare_available` (DESIGN CHOICE, log entry 51). -/
def State.blockReset (s : State) (b : Nat) (bad : List Nat) (l2bad : Bool) : State :=
  let en := s.fld .REG_BLOCK_MAP_cell_enabled b
  let marks := (List.range 9).filter (fun i =>
    en.testBit i && ((s.fld .REG_BLOCK_MAP_cell_isolate_pending b).testBit i || bad.contains i))
  let spare := s.spareOf b
  let s := match spare with
    | some q => if bad.contains q then s.setFld .REG_BLOCK_MAP_spare_available b 0 else s
    | none => s
  let s := s.setFld .REG_BLOCK_MAP_cell_isolate_pending b 0
  let s := if l2bad then s.setFld .BLK_L2_STATUS_selftest_failed b 1 else s
  if !s.flag .REG_BLOCK_MAP_block_enabled b then s
  else if l2bad then s.blockOff b
  else
    match marks, s.spareOf b with
    | [], _ => s
    | [p], some q =>
      s.setFlds b [(.REG_BLOCK_MAP_cell_enabled, en - 2 ^ p + 2 ^ q), (.REG_BLOCK_MAP_spare_available, 0),
        (.BLK_CELL_MAP_phys_of_logical, remapCell (s.fld .BLK_CELL_MAP_phys_of_logical b) p q)]
    | _, _ => s.blockOff b

/-- The self-test's findings in one block. -/
def selfCells (t : SelfTest) (b : Nat) : List Nat := (t.cells.filter (fun x => x.1.val == b)).map (fun x => x.2.val)
def selfL2 (t : SelfTest) (b : Nat) : Bool := t.l2s.any (fun x => x.val == b)

/-- R33: the enabled blocks and cells of a region counted. -/
def State.countRegion (s : State) (r : Nat) : State :=
  let bs := (blocksOf r).filter (fun b => s.flag .REG_BLOCK_MAP_block_enabled b)
  let cells := (bs.map (fun b => (List.range 9).countP (fun i => (s.fld .REG_BLOCK_MAP_cell_enabled b).testBit i))).sum
  s.setFlds r [(.REG_STATUS_enabled_blocks, bs.length), (.REG_STATUS_enabled_cells, cells)]

/-! ### Isolation (R424 steps 1 to 6) -/

/-- The kernels with a thread block, or a block in its kernel end, on a region (R422). -/
def State.kernelsOn (s : State) (r : Nat) : List Nat :=
  (s.kernels.filter (fun k =>
    (regionCells r).any (fun c => (s.cell c).tbs.any (fun t => t.kern == k.id)) ||
      (blocksOf r).any (fun b => (s.block b).kern == k.id))).map (·.id)

/-- R424 steps 2, 4, 5: a cell stops: its stores and requests are gone, its open tile writes abandoned, its reservations
and full/empty operations withdrawn. -/
def State.cellStop (s : State) (c : Nat) : State :=
  let s := s.stopStream c (s.cell c).sa true
  let s := (s.withdrawCell c).dropResv (fun r => r.cell == c)
  s.each (s.remote.filter (RemReq.ofCell c)) (fun s r => s.endReq r.tid true)

/-- R72: a cell after its region's isolation: in a quarantine, which resets nothing, it keeps its halt record, and stays
HALTED until its kernel's teardown. -/
def Cell.isolated (x : Cell) (keep : Bool) : Cell :=
  if keep then
    { Cell.init with
      state := if x.state = .halted then .halted else .idle
      halt := x.halt, reported := x.reported, lastKern := x.lastKern, wdogs := x.wdogs }
  else Cell.init

/-- R424 steps 1 to 6: a region isolated in a state; its kernels fail with a code. -/
def State.isolateRegion (s : State) (r st code : Nat) : State :=
  let ks := s.kernelsOn r
  let s := (s.setFld .REG_STATUS_state r st).bumpEpoch (unitRgn r)
  let s : State := if st = rgnQuarantined then s else { s with normRgn := s.normRgn.filter (fun x => x != r) }
  let s := s.each (regionCells r) State.cellStop
  let s := s.each (regionCells r) (fun s c => s.setCell c ((s.cell c).isolated (st == rgnQuarantined)))
  let s := (s.each (blocksOf r) (fun s b => s.setBlock b Block.init)).tlbDrop r
  ({ s with drainAt := mapErase s.drainAt r } : State).each ks (fun s k => s.abortKernel k code false)

/-! ### Quarantine -/

/-- R420: a region QUARANTINED, the cause recorded. -/
def State.markQuarantined (s : State) (r cause : Nat) : State :=
  ((s.setFld .REG_STATUS_state r rgnQuarantined).setFld .RAS_RGN_CAUSE_cause r cause).satFld .RAS_RGN_CAUSE_count r 1

/-- R420, R421: a region QUARANTINED; every region QUARANTINED is a fatal stop. -/
def State.quarantined (s : State) (r cause : Nat) : State :=
  let s := s.markQuarantined r cause
  if (List.range 24).all (fun i => s.fld .REG_STATUS_state i == rgnQuarantined) then s.fatalStop 0x0205 r else s

/-- The end of a packet's action on a region; in a draining queue it ends with the drain. -/
def State.endAction (s : State) (p : Pkt) (code : Nat) : State :=
  if s.qState p.q = qDraining then (s.dropPkt p).drainCheck p.q else s.endPkt p code

/-- R421: whether a packet's action on a region ends when the region is quarantined. -/
def Pkt.acting (r : Nat) (p : Pkt) : Bool := p.onRegion r && (p.midAction || p.b 8 1 == 4)

/-- R420, R421, R423: an ONLINE region quarantined, or one that is RESETTING, whose isolation is made already, its epoch
advanced by the quarantine (log entry 29); an action in progress on it ends with REGION_STATE. Cause 1 acts on an ONLINE
region alone. -/
def State.quarantineRegion (s : State) (r cause : Nat) : State :=
  let fin := fun (s : State) =>
    if s.alive then s.each (s.pool.filter (Pkt.acting r)) (fun s p => s.endAction p fcRegionState) else s
  if s.rgnUp r then fin ((s.isolateRegion r rgnQuarantined fcRegionQuarantined).quarantined r cause)
  else if s.fld .REG_STATUS_state r = rgnResetting ∧ cause ≠ 1 then fin ((s.bumpEpoch (unitRgn r)).quarantined r cause)
  else s

/-! ### Reset -/

/-- R424 steps 7 and 8: self-test, isolation, registers; the region ONLINE, or QUARANTINED without a block (R420). In
start-up (`first`) the check of R381 follows instead of that of R421. -/
def State.rebuildRegion (s : State) (r : Nat) (t : SelfTest) (first : Bool) : State :=
  let s := s.regionRegs r true
  let s := s.each (List.range 12) (fun s b => s.blockReset (12 * r + b) (selfCells t b) (selfL2 t b))
  let s := s.each t.cells (fun s x => s.setFld .CEL_CACHE_MODE_selftest_failed ((12 * r + x.1.val) * 9 + x.2.val) 1)
  let s := (s.countRegion r).satFld .REG_STATUS_reset_count r 1
  let s : State := { s with normRgn := if s.normRgn.contains r then s.normRgn else r :: s.normRgn }
  if s.fld .REG_STATUS_enabled_blocks r = 0 then
    let s := s.bumpEpoch (unitRgn r)
    if first then s.markQuarantined r 4 else s.quarantined r 4
  else s.setFld .REG_STATUS_state r rgnOnline

/-- R424 steps 7 and 8 of a packet's action. -/
def State.endReset (s : State) (p : Pkt) (t : SelfTest) : State :=
  let s := s.rebuildRegion p.rgn t false
  if s.alive then s.endAction p 0 else s

/-- A packet's action on a region at its next stage. -/
def State.atStage (s : State) (p : Pkt) (n : Nat) : State := s.modPkt p.q p.seq (fun x => { x with pos := n })

/-! ### Power-down -/

/-- R185: a region's buffers drained to their homes; none while something of them has to wait. -/
def State.drainRegion (s : State) (r : Nat) : State × Bool :=
  let s := s.each (regionCells r) State.drainCell
  let out := (blocksOf r).foldl (fun (x : State × Bool) b =>
    let y := x.1.l2Clean b 511 (x.1.block b).l2.lines
    (y.1, x.2 && y.2)) (s, true)
  let s := out.1
  (s, out.2 && (regionCells r).all s.cellDrained)

/-- R277, R422: a drained region powered down. -/
def State.regionOff (s : State) (r : Nat) : State :=
  let s := (s.isolateRegion r rgnOffline fcRegionPoweredDown).regionRegs r false
  s.setFlds r [(.REG_STATUS_enabled_blocks, 0), (.REG_STATUS_enabled_cells, 0), (.REG_SPEED_vcore_mv, 0),
    (.REG_SPEED_token_rate_mtps, 0)]

/-! ### REGION_CTL -/

/-- The block and cell of a REGION_CTL packet. -/
def Pkt.rblk (p : Pkt) : Nat := p.b 10 1
def Pkt.rcell (p : Pkt) : Nat := p.b 11 1

/-- R277: ISOLATE. -/
def State.ctlIsolate (s : State) (p : Pkt) : State :=
  let st := s.fld .REG_STATUS_state p.rgn
  let c := (12 * p.rgn + p.rblk) * 9 + p.rcell
  if (st ≠ rgnOnline ∧ st ≠ rgnQuarantined) ∨ !s.cellEnabled c then s.failPkt p fcRegionState 0 []
  else (s.markIsolate c).endPkt p 0

/-- R277, R424: RESET and SELFTEST: steps 1 to 6, then steps 7 and 8. -/
def State.ctlReset (s : State) (p : Pkt) (t : SelfTest) : State :=
  let st := s.fld .REG_STATUS_state p.rgn
  if p.pos ≠ 0 then s.endReset p t
  else if st = rgnOnline ∨ st = rgnQuarantined then (s.isolateRegion p.rgn rgnResetting fcRegionReset).atStage p 1
  else s.failPkt p fcRegionState 0 []

/-- R277, R421: QUARANTINE. -/
def State.ctlQuarantine (s : State) (p : Pkt) : State :=
  if s.rgnUp p.rgn then
    let s := s.quarantineRegion p.rgn 1
    if s.alive then s.endPkt p 0 else s
  else s.failPkt p fcRegionState 0 []

/-- The drain of a region begins: its limit is set (R185, R186, R189). -/
def State.drainBegin (s : State) (r : Nat) : State :=
  if mapGet 0 s.drainAt r = 0 then { s with drainAt := mapSet 0 s.drainAt r (s.now + s.deadNs false + 1) } else s

/-- R277: POWER_DOWN; the packet waits while the drain of R185 has to, to its limit (R186), where what is left is lost.
-/
def State.ctlDown (s : State) (p : Pkt) : State :=
  let st := s.fld .REG_STATUS_state p.rgn
  if st = rgnOnline ∨ st = rgnQuarantined then
    let d := (s.drainBegin p.rgn).drainRegion p.rgn
    if d.2 then (d.1.regionOff p.rgn).endPkt p 0
    else if d.1.now + 1 ≥ mapGet 0 d.1.drainAt p.rgn then
      (((regionCells p.rgn).foldl State.drainLose d.1).regionOff p.rgn).endPkt p 0
    else d.1
  else s.failPkt p fcRegionState 0 []

/-- R277, R440: POWER_UP: the ramp of the rail to 0.75 V, then the reset. -/
def State.ctlUp (s : State) (p : Pkt) (t : SelfTest) : State :=
  if p.pos = 0 then
    if s.fld .REG_STATUS_state p.rgn = rgnOffline then s.atStage p 1 else s.failPkt p fcRegionState 0 []
  else if p.pos = 1 then
    ((s.setFld .REG_SPEED_vcore_mv p.rgn 750).isolateRegion p.rgn rgnResetting fcRegionReset).atStage p 2
  else s.endReset p t

/-! ### Events -/

/-- R448: a region with a sensor above 105 °C, for which R26 and cause 5 of R420 do not hold. -/
def State.regionHot (s : State) (r : Nat) : Bool :=
  (List.range 4).any (fun c => decide (sgn 16 (s.fld .PWR_TEMP_temp (4 * r + c)) > 840))

/-- R420: whether a region's token rate is too low for its rail. -/
def State.slowNow (s : State) (r : Nat) : Bool :=
  !s.regionHot r && decide (s.fld .REG_SPEED_token_rate_mtps r < 1060) && decide (s.fld .REG_SPEED_vcore_mv r ≥ 700)

/-- REGION_NETWORK_ERROR, REGION_MANAGER_SILENT, REGION_SLOW (R420). -/
def execRegionNetworkError (r : Fin 24) (s : State) : Out := .next (if s.alive then s.quarantineRegion r.val 2 else s)
def execRegionManagerSilent (r : Fin 24) (s : State) : Out := .next (if s.alive then s.quarantineRegion r.val 3 else s)
def execRegionSlow (r : Fin 24) (s : State) : Out :=
  let since := mapGet 0 s.slowAt r.val
  .next (
    if s.alive && s.slowNow r.val && since != 0 && decide (s.now + 1 ≥ since + 10000000)
    then s.quarantineRegion r.val 5 else s)

/-- TOKEN_RATE_MEASURE (R34, R420): the lowest of the rates of the four replicas; a first low one is remembered. -/
def execTokenRateMeasure (r : Fin 24) (m : List Nat) (s : State) : Out :=
  .next (
    match m with
    | [a, b, c, d] =>
      if s.alive && s.fld .REG_STATUS_state r.val != rgnOffline then
        let s := s.setFld .REG_SPEED_token_rate_mtps r.val (min (min a b) (min c d))
        let old := mapGet 0 s.slowAt r.val
        { s with slowAt := mapSet 0 s.slowAt r.val (if !s.slowNow r.val then 0 else if old = 0 then s.now + 1 else old) }
      else s
    | _ => s)

end Sys2Proof.Machine
end

