-- ==== Sys2Proof/Machine/View.lean ====
section
/-!
DEFINITION. The value of every register field (R7, R8): what the register map stores, or, for a field that shows other
state, what that state is when the register is read.
-/

namespace Sys2Proof.Machine

/-! ### Cells and blocks (R73 and the register tables of chapters 2 to 7) -/

/-- CEL_STATUS `state` of a physical cell. -/
def State.cellStateNo (s : State) (c : Nat) : Nat :=
  if !s.cellEnabled c then 3
  else
    match (s.cell c).state with
    | .idle => 0
    | .running => 1
    | .halted => 2
    | .disabled => 3

/-- R199, R202: whether the caches of a region's cells and blocks are in safe mode: from power-up and from each reset of
the region until they leave it. A region that is powered down counts as in safe mode: DESIGN CHOICE, log entry 30. -/
def State.safeRegion (s : State) (r : Nat) : Bool := !s.normRgn.contains r

/-- R199, R202, R379: whether the shared caches are in safe mode: from chip reset until start-up's self-tests have
passed, so that they stay in it in January mode. -/
def State.safeScd (s : State) : Bool := !s.normScd

/-- Groups resident on a cell. -/
def Cell.slotsUsed (x : Cell) : Nat := x.groups.length

/-- R72: the halt record's fields. -/
def State.haltView (s : State) (c : Nat) : HaltRec := (s.cell c).halt

/-- A group of a cell by 16 × cell + slot. -/
def State.grpAt (s : State) (i : Nat) : Option Group := s.group (i / 16) (i % 16)

/-- The stream that index 2 × cell + stream names. -/
def streamAt (i : Nat) : Stream := if i % 2 = 0 then .access else .execute
def State.tsAt (s : State) (i : Nat) : StreamSt := s.stream (i / 2) (streamAt i)

/-- CEL_TS_STATE `wait`: why a stream takes or starts no macro-op. -/
def State.streamWait (s : State) (i : Nat) : Nat :=
  let c := i / 2
  let st := streamAt i
  let x := s.tsAt i
  if !x.started || x.ended || (s.cell c).state != .running then 0
  else
    match x.head with
    | none => if x.append && x.buf.isEmpty then 4 else if x.prog.any (fun p => p.done && p.owes) then 3 else 1
    | some h =>
      if !x.room h.op then 7
      else
        match planOf s c st h with
        | .error _ => 0
        | .ok p =>
          if x.overlaps h.op p then 5
          else if p.hold then 6
          else if h.w.we && ((s.cell c).outQ (other st) h.w.wq.val).isEmpty then 2
          else 0

/-- CEL_TS_STATE `state`. A stream that a halt stopped shows so until a thread block or a region reset resets it. -/
def State.streamStateNo (s : State) (i : Nat) : Nat :=
  let x := s.tsAt i
  if !x.started then 0
  else if x.ended then 3
  else if (s.cell (i / 2)).state != .running then 4
  else if s.streamWait i = 0 then 1
  else 2

/-- Five bits for each queue: its entries. -/
def fills (m : NMap (List (BitVec 16))) : Nat := ((List.range 4).map (fun k => 2 ^ (5 * k) * (mapGet [] m k).length)).sum

/-- CEL_LUT_STATE: two bits a slot: its table's type. -/
def lutTypes (x : Cell) (sel : Nat) : Nat :=
  ((List.range 4).map (fun k =>
    4 ^ k * (match mapFind x.luts (2 * k + sel) with | some t => t.kind % 4 | none => 0))).sum

/-! ### The front end -/

/-- Queues that are not DISABLED. -/
def State.activeQueues (s : State) : Nat := ((List.range 4096).filter (fun q => s.qState q != qDisabled)).length

/-- `boot_state` READY and the like are seen only while the device has power. -/
def State.countUp (s : State) (f : Fld) (n v : Nat) : Nat := (List.range n).countP (fun i => s.fld f i == v)

/-- The Silit ports with link up. -/
def State.portsUp (s : State) : Nat :=
  (List.range 12).countP (fun p => s.fld .FAB_PORT_STATUS_state p == 2 || s.fld .FAB_PORT_STATUS_state p == 3)

/-! ### Calibration (R394, R395) -/

/-- The number of instances of a calibration quantity. -/
def calCount : Nat → Nat
  | 1 => 24
  | 2 => 16
  | 3 => 128
  | 4 => 56
  | 5 => 1
  | 6 => 48
  | 7 => 96
  | _ => 0

/-! ### The power manager -/

/-- R379, R453: whether the power manager's firmware has started: not before step 4 of start-up, nor without a set. -/
def State.pmStarted (s : State) : Bool :=
  decide (s.fld .HIF_PROMPT_STATE_boot_state 0 ≥ 3) && s.fld .SEC_JAN_cause 0 == 0
    && s.fld .RAS_FATAL_fatal_code 0 != 0x0101

/-! ### Every field -/

/-- The value of a field of a cell, a block or a region. -/
def State.readCell (s : State) (f : Fld) (i : Nat) : Option Nat :=
  match f with
  | .BLK_HALTED_cell_halted =>
    some (((List.range 9).map (fun c => if (s.cell (9 * i + c)).state = .halted then 2 ^ c else 0)).sum)
  | .CEL_STATUS_state => some (s.cellStateNo i)
  | .CEL_STATUS_resident_groups => some (s.cell i).slotsUsed
  | .CEL_STATUS_tile_mode => some (b2n (((s.cellKernel i).map (·.tile)).getD false))
  | .CEL_HALT_INFO_reason => some (s.haltView i).reason
  | .CEL_HALT_INFO_group => some (s.haltView i).group
  | .CEL_HALT_INFO_source => some (s.haltView i).source
  | .CEL_HALT_INFO_more => some (b2n (s.haltView i).more)
  | .CEL_HALT_INFO_valid => some (b2n (s.haltView i).valid)
  | .CEL_HALT_INFO_mask => some (s.haltView i).mask.toNat
  | .CEL_HALT_PC_pc => some (s.haltView i).pc
  | .CEL_HALT_ADDR_addr => some (s.haltView i).addr
  | .CEL_HALT_ADDR_addr_valid => some (b2n (s.haltView i).addrOk)
  | .CEL_HALT_TIME_tai_ns => some (s.haltView i).time
  | .CEL_GRP_PC_pc => some (((s.grpAt i).map (fun g => g.pc.toNat)).getD 0)
  | .CEL_GRP_PC_stack_depth => some (((s.grpAt i).map (fun g => g.stack.length)).getD 0)
  | .CEL_GRP_PC_resident => some (b2n (s.grpAt i).isSome)
  | .CEL_GRP_MASK_active => some (((s.grpAt i).map (fun g => g.active.toNat)).getD 0)
  | .CEL_GRP_MASK_exited => some (((s.grpAt i).map (fun g => g.exited.toNat)).getD 0)
  | .CEL_GRP_WAIT_wait => some ((s.cell (i / 16)).waitCode s.now (i % 16))
  | .CEL_TS_MPC_mpc => some (s.tsAt i).mpc
  | .CEL_TS_STATE_state => some (s.streamStateNo i)
  | .CEL_TS_STATE_append_mode => some (b2n (s.tsAt i).append)
  | .CEL_TS_STATE_wait => some (s.streamWait i)
  | .CEL_TS_STATE_in_progress => some (s.tsAt i).prog.length
  | .CEL_TS_STATE_append_left => some (s.tsAt i).left
  | .CEL_TS_QUEUES_aq_fill => some (fills (s.cell i).aq)
  | .CEL_TS_QUEUES_xq_fill => some (fills (s.cell i).xq)
  | .CEL_TS_APPEND_a_buf => some (s.cell i).sa.buf.length
  | .CEL_TS_APPEND_x_buf => some (s.cell i).sx.buf.length
  | .CEL_TS_APPEND_a_pending => some (s.cell i).sa.pend
  | .CEL_TS_APPEND_x_pending => some (s.cell i).sx.pend
  | .CEL_MX_STATE_acc_type => some (s.cell i).arr.acc.type
  | .CEL_MX_STATE_busy => some (b2n (s.cell i).arrayBusy)
  | .CEL_MX_STATE_retrying => some (b2n (s.cell i).arr.retry)
  | .CEL_MX_STATE_slices => some (s.cell i).arr.slices
  | .CEL_MX_STATE_k_acc => some (min (s.cell i).arr.acc.k 0xFFFFFFFF)
  | .CEL_LUT_STATE_fwd_type => some (lutTypes (s.cell i) 0)
  | .CEL_LUT_STATE_drv_type => some (lutTypes (s.cell i) 1)
  | .CEL_CACHE_MODE_icache_safe => some (b2n (s.safeRegion (regionOf i) || s.flag .CEL_CACHE_MODE_selftest_failed i))
  | .CEL_CACHE_MODE_l1_safe => some (b2n (s.safeRegion (regionOf i) || s.flag .CEL_CACHE_MODE_selftest_failed i))
  | .BLK_L2_STATUS_safe => some (b2n (s.safeRegion (i / 12) || s.flag .BLK_L2_STATUS_selftest_failed i))
  | .RAS_SCD_STATUS_safe => some (b2n (s.safeScd || s.flag .RAS_SCD_STATUS_selftest_failed i))
  | .RAS_SCD_TILES_open_tiles => some ((s.tiles.filter (fun t => homeOf (t.tile * 4096) == i)).length)
  | _ => none

/-- Pages in a season. -/
def State.seasonCount (s : State) (x : Season) : Nat :=
  s.loct.countP (fun e => e.2.season == x && (e.2.state == .resident || e.2.state == .migrating))

/-- The value of a field of memory, placement or the front end that shows other state. -/
def State.readMem (s : State) (f : Fld) (i : Nat) : Option Nat :=
  match f with
  | .MEM_MID_FE_waiters => some ((s.waiters.filter (fun w => w.die == i)).length)
  | .FTP_DIE_FE_waiters =>
    some (if i % 2 = 0 then (s.waiters.filter (fun w => w.die == 4 + i / 2)).length else 0)
  | .MEM_SITE_STATUS_sync_slots_used => some (s.usedSlots i).length
  | .PLE_CAP_CLOSE_allocatable => some s.allocClose
  | .PLE_CAP_CLOSE_free => some s.freeClose
  | .PLE_CAP_FAR_allocatable => some s.allocFar
  | .PLE_CAP_FAR_free => some s.freeFar
  | .PLE_CAP_COMMIT_committed => some s.committed
  | .PLE_CAP_COMMIT_headroom_free => some s.headroomFree
  | .PLE_SEASON_COUNT_spring => some (s.seasonCount .spring)
  | .PLE_SEASON_COUNT_summer => some (s.seasonCount .summer)
  | .PLE_SEASON_COUNT_autumn => some (s.seasonCount .autumn)
  | .PLE_SEASON_COUNT_winter => some (s.seasonCount .winter)
  | .PLE_PAGE_COUNT_zero => some (s.loct.countP (fun e => e.2.state == .zero))
  | .PLE_PAGE_COUNT_lost => some (s.loct.countP (fun e => e.2.state == .lost))
  | .PLE_QUERY_ENTRY_entry => some (s.loc (s.fld .PLE_QUERY_DPN_dpn 0)).word
  | .PLE_MID_mirrored =>
    some (match mapGet (none, none) s.slices i with | (some _, some _) => 1 | _ => 0)
  | .PLE_MID_migrating => some (s.migs.countP (fun m => m.dpn % 4 == i))
  | .CFE_STATUS_active_queues => some s.activeQueues
  | .CFE_STATUS_pool_used => some s.pool.length
  | .CFE_STATUS_kernels => some s.kernels.length
  | .CFE_Q_STATUS_outstanding => some (s.pool.countP (fun p => p.q == i))
  | .CFE_ASC_STATE_queues => some (s.ascQueues i).length
  | .CFE_FENCE_FORCE_value => some (s.fld .CFE_FENCE_VALUE_value i)
  | .CFE_FENCE_STATUS_waiters => some (s.pool.countP (fun p => p.waitsFence i))
  | _ => none
/-- The key of the selected calibration quantity. -/
def State.calKey (s : State) : Nat := 65536 * s.fld .CFG_CAL_SEL_fid 0 + s.fld .CFG_CAL_SEL_idx 0

/-- The value of a field of the host interface, time, March, Limhel or power that shows other state. -/
def State.readDev (s : State) (f : Fld) (i : Nat) : Option Nat :=
  match f with
  | .HIF_PROMPT_STATE_ready => some (b2n (s.fld .HIF_PROMPT_STATE_boot_state 0 == 8))
  | .HIF_PROMPT_STATE_time_locked => some (b2n (s.fld .TIM_STATUS_state 0 == 2))
  | .HIF_PROMPT_STATE_march_entries => some (s.fld .CFG_MARCH_STATUS_entries 0)
  | .HIF_PROMPT_STATE_regions_online => some (s.countUp .REG_STATUS_state 24 rgnOnline)
  | .HIF_PROMPT_STATE_sites_online => some (s.countUp .MEM_SITE_STATUS_state 12 siteOnline)
  | .HIF_PROMPT_STATE_far_ports_online => some (s.countUp .FTP_STATUS_state 4 ftpOnline)
  | .HIF_PROMPT_STATE_fabric_ports_up => some s.portsUp
  | .HIF_PROMPT_TIME_tai_ns => some s.now
  | .HIF_PROMPT_POWER_cap_w => some (if s.pmStarted then s.fld .PWR_CAP_cap_w 0 else 0)
  | .HIF_PROMPT_POWER_power_w => some (s.fld .PWR_STATUS_power_w 0)
  | .HIF_PROMPT_POWER_tj_max_c => some (s.fld .PWR_STATUS_tj_max_c 0)
  | .HIF_PROMPT_QUEUE_state => some (s.fld .CFE_Q_STATUS_state i)
  | .HIF_PROMPT_QUEUE_fault_code => some (s.fld .CFE_Q_STATUS_fault_code i)
  | .HIF_PROMPT_FENCE_value => some (s.fld .CFE_FENCE_VALUE_value i)
  | .TIM_NOW_tai_ns => some s.now
  | .TIM_FINE_frac => some s.time.frac
  | .TIM_FINE_ns_low => some (s.now % 2 ^ 48)
  | .CFG_CAL_READ_factory =>
    some (if s.fld .CFG_CAL_SEL_idx 0 < calCount (s.fld .CFG_CAL_SEL_fid 0) then
      lowBits 32 (mapGet 0 s.fuses.cal s.calKey) else 0)
  | .CFG_CAL_READ_applied =>
    some (if s.fld .CFG_CAL_SEL_idx 0 < calCount (s.fld .CFG_CAL_SEL_fid 0) then
      lowBits 32 (s.calOf (s.fld .CFG_CAL_SEL_fid 0) (s.fld .CFG_CAL_SEL_idx 0)) else 0)
  | .SEC_FW_STATE_svn_fuse => some s.fuses.svn
  | .SEC_FW_STATE_revoked => some s.fuses.revoked
  | .SEC_FW_STATE_debug_unlocked => some (b2n s.fuses.debug)
  | .RAS_PRESET_STATUS_pages_left =>
    some (s.loct.countP (fun e => (e.2.state == .resident || e.2.state == .migrating) &&
      s.evac.any (fun u => evacLoc u == e.2.loc)))
  | .PWR_ENERGY_energy_mj => some (s.pwr.energy / 100000)
  | .RAS_PRESET_CTL_go => some 0
  | _ => none
/-- The value of a field. -/
def State.read (s : State) (f : Fld) (i : Nat) : Nat :=
  match s.readCell f i with
  | some v => v
  | none =>
    match s.readMem f i with
    | some v => v
    | none => (s.readDev f i).getD (s.fld f i)

/-- The value of a register: its fields where they lie; a field reads modulo its width. -/
def State.readReg (s : State) (r : Reg) (i : Nat) : Nat :=
  ((List.range 438).map (fun n =>
    let f := Fld.ofNat n
    if f.desc.reg = r then s.read f i % 2 ^ f.desc.width * 2 ^ f.desc.lsb else 0)).sum

end Sys2Proof.Machine
end

