-- ==== Sys2Proof/Machine/Bar.lean ====
section
/-! DEFINITION. Reads and writes through the BARs (R7 to R12, R263, R278, R325), the clamps of registers and the acts
they set off, accesses that are rejected (R11, R326), the MSI-X table, and the performance-counter controls (R36). -/

namespace Sys2Proof.Machine

/-! ### Where a BAR0 offset leads (R11, R12) -/

/-- The index of a register instance and the byte within it, from a distance to the first one. -/
def dimIdx : List (Nat × Nat) → Nat → Nat → Option (Nat × Nat)
  | [], d, i => some (i, d)
  | (n, st) :: t, d, i => if d / st < n then dimIdx t (d % st) (i * n + d / st) else none

/-- The instance of a register that an offset falls in: index and byte. -/
def Reg.hit (r : Reg) (off : Nat) : Option (Nat × Nat) :=
  if off < r.desc.base then none
  else
    match dimIdx r.desc.dims (off - r.desc.base) 0 with
    | some (i, b) => if b < r.desc.width / 8 then some (i, b) else none
    | none => none

/-- The register that an offset of BAR0 falls in, its index and the byte within it. -/
def regAt (off : Nat) : Option (Reg × Nat × Nat) :=
  (List.range 169).findSome? (fun n => ((Reg.ofNat n).hit off).map (fun x => (Reg.ofNat n, x.1, x.2)))

/-- R11: whether an access of `size` bytes to BAR0 is of the wrong size or alignment. One of 8 bytes in the CXL component
block, whose registers the layouts of CXL give 32 bits, counts as two of 4 (DESIGN CHOICE, log entry 51). -/
def badAccess (off size : Nat) : Bool :=
  let narrow := fun (o : Nat) => match regAt o with | some (r, _, _) => r.desc.width == 32 | none => false
  (size != 4 && size != 8) || off % size != 0 || (size == 8 && (narrow off || narrow (off + 4)))

/-! ### Ranges and clamps -/

/-- The range of a field for which a chapter gives one (R189, R212, R233, R259, R290, R318, R341, R377, R396, R443). -/
def Fld.range : Fld → Option (Nat × Nat)
  | .CFG_SYNC_TIMEOUTS_fe_wait_timeout_ms => some (0, 60000)
  | .CFG_SYNC_TIMEOUTS_dead_target_timeout_us => some (10, 10000)
  | .RAS_SCD_STATUS_scrub_period_h => some (0, 168)
  | .CFG_MEMORY_patrol_period_h => some (0, 168)
  | .CFG_MEMORY_crc_retry_limit => some (1, 8)
  | .CFG_MEMORY_refresh_hot_c => some (75, 95)
  | .CFG_FAR_TIER_completion_timeout_ms => some (1, 100)
  | .PLE_CTL_mig_cap_gbps => some (1, 200)
  | .PLE_CTL_epoch_ms => some (50, 2000)
  | .PLE_CTL_sample_shift => some (0, 10)
  | .PLE_SEASON_warm_thr => some (2, 255)
  | .PLE_SEASON_cool_thr => some (1, 255)
  | .PLE_SEASON_decay_shift => some (1, 4)
  | .PLE_WATER_low_water_pm => some (1, 100)
  | .PLE_WATER_high_water_pm => some (0, 200)
  | .CFE_SCHED_CFG_age_us => some (1, 65535)
  | .CFG_FENCE_fence_wait_timeout_ms => some (0, 3600000)
  | .CFG_HOST_hdm_size_gib => some (0, 1024)
  | .FAB_CFG_hop_limit => some (1, 15)
  | .FAB_CFG_rtt_budget_us => some (1, 255)
  | .FAB_PORT_CFG_rto_us => some (1, 63)
  | .FAB_EXPORT_count => some (1, 2 ^ 28)
  | .TIM_CFG_domain => some (0, 127)
  | .TIM_CFG_lock_thr_ns => some (10, 1000)
  | .TIM_CFG_max_slew_ppm => some (1, 200)
  | .CFG_START_fabric_wait_ms => some (0, 10000)
  | .CFG_START_watchdog_ms => some (10, 3600000)
  | .PWR_CAP_cap_w => some (2100, 2800)
  | .PWR_THERM_CFG_tj_target_c => some (75, 100)
  | _ => none

/-- A value brought into a range. -/
def clampTo (r : Nat × Nat) (v : Nat) : Nat := max r.1 (min r.2 v)

/-- R341: the highest power of two at or below a value below 2^11. -/
def pow2Down (v : Nat) : Nat := ((List.range 11).foldl (fun m k => if 2 ^ k ≤ v then 2 ^ k else m) 0)

/-- The value a field takes when it is given `v`: its chapter's correction. R344: a `width` of 3 is reserved and becomes
the nearest width; R365: a group has at least two members (log entry 32). -/
def Fld.fix (f : Fld) (v : Nat) : Nat :=
  match f with
  | .TIM_CFG_transport => if v = 3 then 2 else v
  | .FAB_ID_dev_id => if v = 0xFFFF then 0 else v
  | .FAB_PORT_CFG_width => min v 2
  | .FAB_ROUTE_port => min v 11
  | .FAB_ROUTE_alt_port => min v 11
  | .FAB_CGRP_n => if v = 0 then 0 else clampTo (2, 256) v
  | .CFG_HOST_hdm_size_gib => pow2Down (min v 1024)
  | _ => match f.range with | some r => clampTo r v | none => v

/-- R341: an `hdm_dpn_base` rounded down to a multiple of the window's pages. -/
def State.hdmBase (s : State) : Nat :=
  let b := s.fld .CFG_HOST_hdm_dpn_base 0
  let n := s.fld .CFG_HOST_hdm_size_gib 0 * 16384
  if n = 0 then b else b / n * n

/-- The limits that one field sets on another (R259, R341, R355). -/
def State.linked (s : State) : List (Fld × Nat) :=
  [(.PLE_SEASON_cool_thr, min (s.fld .PLE_SEASON_cool_thr 0) (s.fld .PLE_SEASON_warm_thr 0 - 1)),
    (.PLE_WATER_high_water_pm, max (s.fld .PLE_WATER_high_water_pm 0) (s.fld .PLE_WATER_low_water_pm 0 + 1)),
    (.CFG_HOST_hdm_dpn_base, s.hdmBase),
    (.FAB_CFG_rtt_budget_us,
      min (s.fld .FAB_CFG_rtt_budget_us 0) (s.fld .CFG_SYNC_TIMEOUTS_dead_target_timeout_us 0 / 2))]
def State.relink (s : State) : State := (s.setFlds 0 s.linked).judgeRoutes

/-! ### Merging a write -/

/-- Whether a write by the host (`kernel` = false) or by a kernel queue reaches a field (R7); CFG_HOST_SUBSYS takes none
after the March load (R341). -/
def Fld.takes (f : Fld) (kernel : Bool) : Bool :=
  match f.desc.acc with
  | .RO => false
  | .RWL => kernel && f.desc.reg != .CFG_HOST_SUBSYS
  | _ => true

/-- A field merged with a written value under a mask (R278). -/
def mergeFld (acc : Acc) (old m v : Nat) : Nat :=
  match acc with
  | .W1C => old - (old &&& (v &&& m))
  | .W1S => old ||| (v &&& m)
  | .WO => v &&& m
  | _ => (old - (old &&& m)) + (v &&& m)

/-- The fields of a register. -/
def Reg.flds (r : Reg) : List Fld := ((List.range 438).map Fld.ofNat).filter (fun f => decide (f.desc.reg = r))

/-- The fields that a masked write to a register sets, with their new values. R129: a `mode` of 3 is discarded. -/
def State.newFlds (s : State) (r : Reg) (i mask val : Nat) (kernel : Bool) : List (Fld × Nat) :=
  r.flds.filterMap (fun f =>
    let m := bits mask f.desc.lsb f.desc.width
    if m = 0 ∨ !f.takes kernel then none
    else
      let v := f.fix (mergeFld f.desc.acc (s.read f i) m (bits val f.desc.lsb f.desc.width))
      if f = .BLK_ABFT_CTL_mode ∧ v = 3 then none else some (f, v))

/-- The new value of a field of a write, if it sets it. -/
def newOf (l : List (Fld × Nat)) (f : Fld) : Option Nat := (l.find? (fun e => decide (e.1 = f))).map (·.2)
def newBit (l : List (Fld × Nat)) (f : Fld) : Bool := newOf l f == some 1

/-! ### Acts of particular registers -/

/-- R36: the counters of a region cleared. -/
def State.pmcClear (s : State) (r : Nat) : State :=
  s.each (List.range 8) (fun s k => s.setFld .REG_PMC_VAL_count (8 * r + k) 0)

/-- R36: the counters of a region and the time copied. -/
def State.pmcSnap (s : State) (r : Nat) : State :=
  (s.each (List.range 8) (fun s k =>
    s.setFld .REG_PMC_SNAP_count (8 * r + k) (s.fld .REG_PMC_VAL_count (8 * r + k)))).setFld .REG_PMC_SNAP_TIME_tai_ns r
    s.now

/-- A write of FTP_CTL (R230, R232): none where it is discarded; a request in a state that R230 does not name for it does
nothing. -/
def State.ftpCtl (s : State) (p : Nat) (off on : Bool) : Option State :=
  let st := s.fld .FTP_STATUS_state p
  if st = 1 ∨ st = 2 ∨ st = ftpEvacuating ∨ (off ∧ s.flag .FTP_CTL_online_req p) ∨ (on ∧ s.flag .FTP_CTL_offline_req p)
      ∨ (off ∧ on) then none
  else if off ∧ st = ftpOnline then (if h : p < 4 then some (s.beginEvac (.port ⟨p, h⟩)) else some s)
  else if on ∧ (st = ftpOffline ∨ st = ftpFailed) then some (s.setFlds p [(.FTP_CTL_online_req, 1), (.FTP_STATUS_state, 1)])
  else some s

/-- A write of CFE_BOOTQ_CTL (R289): each of its bits acts or is discarded on its own. None where all that it asks for
is discarded, which a kernel queue sees as REGISTER_STATE (R278; where only a part is, the rest is performed without a
fault: DESIGN CHOICE, log entry 51). -/
def State.bootWrite (s : State) (l : List (Fld × Nat)) : Option State :=
  let en := newBit l .CFE_BOOTQ_CTL_enable
  let re := newBit l .CFE_BOOTQ_CTL_resume
  let rs := newBit l .CFE_BOOTQ_CTL_reset
  if !s.ready then none
  else
    let s1 := if en then s.bootEnable else s
    let s2 := if re then s1.bootResume (newBit l .CFE_BOOTQ_CTL_retry) else s1
    let s3 := if rs then s2.bootReset else s2
    let acts := (en && s1.qState 0 != s.qState 0) || (re && s1.qState 0 == qFaulted) || (rs && s2.canDrain 0)
    if acts || !(en || re || rs || newBit l .CFE_BOOTQ_CTL_retry) then some s3 else none

/-- Whether a register's own state rule discards a write (R289, R341, R365, R380). -/
def State.barred (s : State) (r : Reg) (i : Nat) : Bool :=
  match r with
  | .CFE_BOOTQ_BASE => !s.ready || s.qState 0 != qDisabled
  | .CFE_BOOTQ_CFG => !s.ready || s.qState 0 != qDisabled
  | .CFE_BOOTQ_CMPL => !s.ready || s.qState 0 != qDisabled
  | .CFG_HOST => s.hif.decoder.isSome
  | .FAB_CGRP => s.colls.any (fun x => x.group == i)
  | .FAB_CGRP_MEMBERS => s.colls.any (fun x => x.group == i)
  | _ => false

/-- R355, R377: a route entry is probed when it is written; full/empty operations whose source it leaves unreachable are
withdrawn (R360). -/
def State.routeWritten (s : State) (d : Nat) : State := (s.sendProbe d).dropFar

/-- R396: what a write of CFG_START leaves for the next chip reset. -/
def State.startWritten (s : State) (l : List (Fld × Nat)) : State :=
  let get := fun (f : Fld) (old : Option Nat) => match newOf l f with | some v => some v | none => old
  { s with later := (get .CFG_START_far_port_en s.later.1, get .CFG_START_fabric_wait_ms s.later.2) }

/-- R417: a write that sets `go`. -/
def State.mbxWrite (s : State) (l : List (Fld × Nat)) : State :=
  let s := s.setFlds 0 (l.filter (fun e => decide (e.1 ≠ .SEC_MBX_CMD_go)))
  if newBit l .SEC_MBX_CMD_go && s.mbxRuns then
    let cmd := s.fld .SEC_MBX_CMD_cmd 0
    if cmd = 7 ∧ s.january then s.chipReset
    else s.mbxGo cmd (s.fld .SEC_MBX_CMD_arg 0 + 2 ^ 32 * s.fld .SEC_MBX_ARGHI_arg32 0)
  else s

/-- What a write sets, and what it sets off; none where the register's own state rule discards it. A write of REG_PMC_CTL
that sets both `snapshot` and `clear` takes the snapshot before it clears (DESIGN CHOICE, log entry 51). -/
def State.actWrite (s : State) (r : Reg) (i : Nat) (l : List (Fld × Nat)) : Option State :=
  let s' := s.setFlds i l
  match r with
  | .REG_PMC_CTL =>
    let s := match newOf l .REG_PMC_CTL_enable with | some v => s.setFld .REG_PMC_CTL_enable i v | none => s
    let s := if newBit l .REG_PMC_CTL_snapshot then s.pmcSnap i else s
    some (if newBit l .REG_PMC_CTL_clear then s.pmcClear i else s)
  | .REG_PMC_SEL => some (s'.setFld .REG_PMC_VAL_count i 0)
  | .FTP_CTL => if l = [] then some s else s.ftpCtl i (newBit l .FTP_CTL_offline_req) (newBit l .FTP_CTL_online_req)
  | .CFE_BOOTQ_CTL => s.bootWrite l
  | .CFE_FENCE_FORCE =>
    (match newOf l .CFE_FENCE_FORCE_value with
      | some v => some (s'.fenceSet i v)
      | none => some s)
  | .RAS_PRESET_CTL =>
    if newBit l .RAS_PRESET_CTL_go then
      let get := fun (f : Fld) => (newOf l f).getD (s.fld f 0)
      s.presetBegin (get .RAS_PRESET_CTL_kind) (get .RAS_PRESET_CTL_index) (get .RAS_PRESET_CTL_action)
    else some s'
  | .SEC_MBX_CMD => some (s.mbxWrite l)
  | .FAB_PORT_CFG =>
    some (if (newOf l .FAB_PORT_CFG_mode).isSome ∨ (newOf l .FAB_PORT_CFG_width).isSome then s'.portModeWritten i else s')
  | .FAB_ROUTE => some (if l = [] then s else s'.routeWritten i)
  | .CFG_START => some (s'.startWritten l)
  | .PWR_CAP => some (if l = [] then s else s'.setFld .PWR_CAP_source 0 2)
  | _ => some s'.relink

/-- A masked write of a register (R278); true where the register's own state rule discards it. -/
def State.writeReg (s : State) (r : Reg) (i mask val : Nat) (kernel : Bool) : State × Bool :=
  let l := s.newFlds r i mask val kernel
  if s.barred r i && !l.isEmpty then (s, true)
  else
    match s.actWrite r i l with
    | some s' => (s', false)
    | none => (s, true)

/-- A masked write at a BAR0 offset, of 4 or 8 bytes that R11 permits. -/
def State.write0 (s : State) (off mask val : Nat) (kernel : Bool) : State × Bool :=
  match regAt off with
  | none => (s, false)
  | some (r, i, b) => s.writeReg r i (mask * 2 ^ (8 * b)) (val * 2 ^ (8 * b)) kernel

/-! ### Rejected accesses, doorbells, the MSI-X table -/

/-- The number of a BAR in HIF_ACCESS_ERR. -/
def Bar.num : Bar → Nat
  | .bar0 => 0
  | .bar2 => 1
  | .bar4 => 2
  | .config => 3
def Bar.size : Bar → Nat
  | .bar0 => 2 ^ 26
  | .bar2 => 2 ^ 24
  | .bar4 => 2 ^ 16
  | .config => 2 ^ 12

/-- R326: whether an access is rejected; one of configuration space is not. -/
def rejects (bar : Bar) (off size : Nat) (write : Bool) : Bool :=
  match bar with
  | .bar0 => badAccess off size
  | .bar2 => if write then size != 8 || off % 4096 != 0 else (size != 4 && size != 8) || off % size != 0
  | .bar4 => (size != 4 && size != 8) || off % size != 0
  | .config => false

/-- R326: a rejected access recorded. -/
def State.accessErr (s : State) (bar : Bar) (off : Nat) (write : Bool) : State :=
  ((s.setFlds 0 [(.HIF_ACCESS_ERR_offset, off), (.HIF_ACCESS_ERR_bar, Bar.num bar), (.HIF_ACCESS_ERR_write, b2n write)]).satFld
    .HIF_ACCESS_ERR_count 0 1).event

/-- One 4-byte word of the MSI-X table written (R336). -/
def State.msixWord (s : State) (off v : Nat) : State :=
  if off ≥ 0x8000 then s
  else
    let n := off / 16
    let m := s.vec n
    let put := fun (m : Msix) => ({ s with msix := mapSet Msix.init s.msix n m } : State)
    match off % 16 / 4 with
    | 0 => put { m with addr := m.addr / 2 ^ 32 * 2 ^ 32 + v }
    | 1 => put { m with addr := m.addr % 2 ^ 32 + 2 ^ 32 * v }
    | 2 => put { m with data := v }
    | _ => if v % 2 = 1 then put { m with masked := true } else s.unmask n

/-- A host write to a BAR. -/
def State.barWrite (s : State) (bar : Bar) (off size v : Nat) : State :=
  if off + size > Bar.size bar then s
  else if rejects bar off size true then s.accessErr bar off true
  else
    match bar with
    | .bar0 => (s.write0 off (2 ^ (8 * size) - 1) (v % 2 ^ (8 * size)) false).1
    | .bar2 => if s.ready then s.ring (off / 4096) v else s
    | .bar4 =>
      let s := s.msixWord off (v % 2 ^ 32)
      if size = 8 then s.msixWord (off + 4) (v / 2 ^ 32 % 2 ^ 32) else s
    | .config => if size = 4 then s.configWrite off (v % 2 ^ 32) else s

/-! ### Reads -/

/-- Bytes of BAR0 at an offset, of an access that R11 permits: the dump aperture, the component registers, a register; an
unassigned offset reads as zero (R9). -/
def State.read0 (s : State) (off size : Nat) : Nat :=
  if 0x3200000 ≤ off ∧ off < 0x3400000 then s.apertureRead (off - 0x3200000) size
  else if componentBase ≤ off ∧ off < componentBase + 0x10000 then
    s.componentRead (off - componentBase) + (if size = 8 then 2 ^ 32 * s.componentRead (off + 4 - componentBase) else 0)
  else
    match regAt off with
    | some (r, i, b) => bits (s.readReg r i) (8 * b) (8 * size)
    | none => 0

/-- R8 to R12, R263, R325: what a read through a BAR that reaches the device returns: zero where it is rejected. -/
def State.barRead (s : State) (bar : Bar) (off size : Nat) : Nat :=
  if off + size > Bar.size bar ∨ rejects bar off size false then 0
  else
    match bar with
    | .bar0 => s.read0 off size
    | .bar2 => if off % 4096 < 8 then bits (s.fld .CFE_Q_WPTR_wptr (off / 4096)) (8 * (off % 8)) (8 * size) else 0
    | .bar4 => s.msixRead off + (if size = 8 then 2 ^ 32 * s.msixRead (off + 4) else 0)
    | .config => bits (s.configRead off) (8 * (off % 4)) (8 * size)

/-- Whether the host's accesses to the BARs reach the device (R321, R322). -/
def State.bars (s : State) : Bool := s.barUp && !s.pwr.perst && !s.hif.crs

/-- What a host read meets: data, Request Retry Status, or no unit that claims it. -/
inductive HostRead where
  | data (v : Nat)
  | retry
  | unclaimed
deriving DecidableEq, Repr

/-- R322, R326, R340: a host read: configuration space answers with Request Retry Status until the March load ends; the
BARs are disabled until then and in D3hot. -/
def State.hostRead (s : State) (bar : Bar) (off size : Nat) : HostRead :=
  if !s.hostThere then .unclaimed
  else if bar = .config then (if s.hif.crs then .retry else .data (s.barRead .config off size))
  else if s.bars then .data (s.barRead bar off size)
  else .unclaimed

/-- REGISTER_WRITE (R7 to R11): by the host, or by a kernel queue, whose write is one to BAR0. -/
def execRegisterWrite (bar : Bar) (off size : Nat) (v : DWord) (kernel : Bool) (s : State) : Out :=
  .next (
    if kernel then
      (if s.ready && bar == .bar0 && !badAccess off size then
        (s.write0 off (2 ^ (8 * size) - 1) (v.toNat % 2 ^ (8 * size)) true).1
      else s)
    else if s.bars || (bar == .config && s.hostThere && !s.hif.crs) then s.barWrite bar off size v.toNat else s)

/-- REJECTED_ACCESS (R8, R326). -/
def execRejectedAccess (bar : Bar) (off size : Nat) (write : Bool) (s : State) : Out :=
  .next (
    if s.bars && decide (off + size ≤ Bar.size bar) && rejects bar off size write then s.accessErr bar off write else s)

/-- PMC_SEL_WRITE, PMC_CLEAR, PMC_SNAPSHOT (R36). -/
def execPmcSelWrite (r : Fin 24) (k : Fin 8) (v : BitVec 32) (s : State) : Out :=
  .next (
    if s.bars || s.ready then
      (s.setFlds (8 * r.val + k.val) [(.REG_PMC_SEL_event, bits v.toNat 0 8), (.REG_PMC_SEL_block, bits v.toNat 8 4)]).setFld
        .REG_PMC_VAL_count (8 * r.val + k.val) 0
    else s)
def execPmcClear (r : Fin 24) (s : State) : Out := .next (if s.bars || s.ready then s.pmcClear r.val else s)
def execPmcSnapshot (r : Fin 24) (s : State) : Out := .next (if s.bars || s.ready then s.pmcSnap r.val else s)

end Sys2Proof.Machine
end

