-- ==== Sys2Proof/Machine/Predicate.lean ====
section
/-!
DEFINITION. The predicate instructions, format F3 (R52).
-/

namespace Sys2Proof.Machine

/-- R51: the reserved fields of F3 are zero. -/
def predRsv (i : PredI) : Bool := !i.rsv && i.rsv2 == 0

/-- R52: a comparison is legal: its `cond`, its `type`, and with `comb` 0 no pq and no ps. -/
def cmpLegal (i : PredI) (conds types : Nat) : Bool :=
  predRsv i && decide (i.cond.toNat < conds) && decide (i.type.toNat < types)
    && (i.comb != 0 || (i.pq == 0 && i.ps == 0))

/-- The predicates a comparison reads and writes. -/
def cmpPreds (i : PredI) : List Nat :=
  i.pd.toNat :: (if i.comb = 0 then [] else [i.pq.toNat, i.ps.toNat]) ++ guardPreds i.g

/-- R52: a comparison on operands of `w` registers: pd takes the outcome, then pq the combination with the old p[ps]. -/
def State.compare (s : State) (t : GTgt) (i : PredI) (legal : Bool) (w : Nat) (f : Nat → Nat → Bool) : State :=
  let va := i.va.toNat
  let vb := i.vb.toNat
  let us : Uses := ⟨regRun va w ++ regRun vb w, cmpPreds i, []⟩
  s.issue t (aluArg i.g legal (misReg w va || misReg w vb) us) (fun s c slot g m =>
    let r := maskOf ((lanesOf m).filter (fun l => f (g.rd w va l) (g.rd w vb l)))
    let g1 := g.setP i.pd.toNat m r
    let g2 := if i.comb = 0 then g1 else g1.setP i.pq.toNat m (combMask i.comb.toNat (g.pr i.ps.toNat) r)
    s.setGroup c slot g2.adv)

/-- ICMP (R52). -/
def execIcmp (t : GTgt) (i : PredI) (s : State) : Out :=
  let ty := i.type.toNat
  .next (s.compare t i (cmpLegal i 6 4) (if ty ≥ 2 then 2 else 1) (fun a b =>
    icmpC i.cond.toNat (intVal ty a) (intVal ty b)))

/-- FCMP (R52). -/
def execFcmp (t : GTgt) (i : PredI) (s : State) : Out :=
  .next (s.compare t i (cmpLegal i 8 1) 1 (fcmpC .fp32 i.cond.toNat))

/-- DCMP (R52). -/
def execDcmp (t : GTgt) (i : PredI) (s : State) : Out :=
  .next (s.compare t i (cmpLegal i 8 1) 2 (fcmpC .fp64 i.cond.toNat))

/-- PLOGIC (R52). -/
def execPlogic (t : GTgt) (i : PredI) (s : State) : Out :=
  let a := i.va.toNat
  let b := i.vb.toNat
  let legal := predRsv i && decide (a < 8) && decide (b < 8) && decide (i.cond.toNat < 4) && i.comb == 0 && i.pq == 0
    && i.ps == 0 && i.type == 0
  .next (s.issue t (aluArg i.g legal false ⟨[], i.pd.toNat :: a % 8 :: b % 8 :: guardPreds i.g, []⟩) (fun s c slot g m =>
    s.setGroup c slot (g.setP i.pd.toNat m (plogicMask i.cond.toNat (g.pr a) (g.pr b))).adv))

/-- R51: the fields that PANY, PALL and PMASK leave unused are zero, but for pd and va. -/
def voteRsv (i : PredI) : Bool :=
  predRsv i && i.pq == 0 && i.vb == 0 && i.cond == 0 && i.comb == 0 && i.type == 0

/-- R52, R464: a vote over the acting lanes, written in them. -/
def State.vote (s : State) (t : GTgt) (i : PredI) (f : Mask → Mask → Bool) : State :=
  let us : Uses := ⟨[], i.pd.toNat :: i.ps.toNat :: guardPreds i.g, []⟩
  s.issue t (aluArg i.g (voteRsv i && i.va == 0) false us) (fun s c slot g m =>
    let r : Mask := if f m (g.pr i.ps.toNat) then 0xFFFFFFFF else 0
    s.setGroup c slot (g.setP i.pd.toNat m r).adv)

/-- PANY (R52): whether any acting lane has p[ps] true. -/
def execPany (t : GTgt) (i : PredI) (s : State) : Out := .next (s.vote t i (fun m p => m &&& p != 0))

/-- PALL (R52): whether all acting lanes have p[ps] true. -/
def execPall (t : GTgt) (i : PredI) (s : State) : Out := .next (s.vote t i (fun m p => m &&& ~~~p == 0))

/-- PMASK (R52): the mask of acting lanes with p[ps] true, into va of each acting lane. -/
def execPmask (t : GTgt) (i : PredI) (s : State) : Out :=
  let us : Uses := ⟨[i.va.toNat], i.ps.toNat :: guardPreds i.g, []⟩
  .next (s.issue t (aluArg i.g (voteRsv i && i.pd == 0) false us) (fun s c slot g m =>
    let x := (m &&& g.pr i.ps.toNat).toNat
    s.setGroup c slot (g.wrs 1 i.va.toNat ((lanesOf m).map (fun l => (l, x)))).adv))

end Sys2Proof.Machine
end

