-- ==== Sys2Proof/Machine/Branch.lean ====
section
/-!
DEFINITION. Branch and control, format F4 (R60 to R62, R70), and what follows when a group ends (R45, R62, R87).
-/

namespace Sys2Proof.Machine

/-- The branch target and rpc of R50: PC plus a signed count of 8-byte words. -/
def wordOff (pc : DWord) (off : BitVec 24) : DWord := pc + (off.signExtend 64) * 8

/-- R60: a branch's outcome. -/
inductive BrOut where
  | go (g : Group)
  | overflow
deriving DecidableEq, Repr

/-- R60: a push onto the reconvergence stack. -/
def pushEnt (g : Group) (e : StackEnt) (pc : DWord) (m : Mask) : BrOut :=
  if g.stack.length ≥ 16 then .overflow else .go { g with pc := pc, active := m, stack := e :: g.stack }

/-- R60: BR. -/
def brGo (g : Group) (target rpc : DWord) (cond : Mask) : BrOut :=
  let taken := g.active &&& cond
  let nt := g.active &&& ~~~cond
  let fall := g.pc + 8
  if nt = 0 then .go { g with pc := target }
  else if taken = 0 then .go { g with pc := fall }
  else if target = rpc ∨ fall = rpc then
    let pc := if target = rpc then fall else target
    let m := if target = rpc then nt else taken
    match g.stack with
    | top :: _ =>
      if top.rpc = rpc then .go { g with pc := pc, active := m } else pushEnt g ⟨rpc, 0, 0, g.active⟩ pc m
    | [] => pushEnt g ⟨rpc, 0, 0, g.active⟩ pc m
  else
    match g.stack with
    | top :: rest =>
      if top.rpc = rpc ∧ top.otherMask = 0 then
        .go { g with pc := target, active := taken, stack := { top with otherPc := fall, otherMask := nt } :: rest }
      else pushEnt g ⟨rpc, fall, nt, g.active⟩ target taken
    | [] => pushEnt g ⟨rpc, fall, nt, g.active⟩ target taken

/-- What the issue stage checks of an F4 instruction. -/
def brArg (i : BrI) (legal : Bool) (us : Uses) : IssueArg := aluArg i.g legal false us

/-- R52: both offsets are zero. -/
def noOff (i : BrI) : Bool := i.toff == 0 && i.roff == 0

/-- BR (R60). -/
def execBr (t : GTgt) (i : BrI) (s : State) : Out :=
  .next (s.issue t (brArg i true ⟨[], guardPreds i.g, []⟩) (fun s c slot g _ =>
    match brGo g (wordOff g.pc i.toff) (wordOff g.pc i.roff) (g.guardMask i.g) with
    | .go g' => s.setGroup c slot g'
    | .overflow => s.haltGroup c slot hrReconv none))

/-- CALL (R61): u31 takes the return address. -/
def execCall (t : GTgt) (i : BrI) (s : State) : Out :=
  .next (s.issue t (brArg i (!i.g.ge && i.roff == 0) ⟨[], [], [31]⟩) (fun s c slot g _ =>
    s.setGroup c slot { g.setU 31 (g.pc + 8).toNat with pc := wordOff g.pc i.toff }))

/-- RET (R61). -/
def execRet (t : GTgt) (i : BrI) (s : State) : Out :=
  .next (s.issue t (brArg i (!i.g.ge && noOff i) ⟨[], [], [31]⟩) (fun s c slot g _ =>
    let a := g.ur 31
    if a % 8 ≠ 0 then s.haltGroup c slot hrMisaligned none
    else s.setGroup c slot { g with pc := BitVec.ofNat 64 a }))

/-- What follows when a group may have ended: barrier release (R62) and the queue checks (R87). -/
def State.groupEnded (s : State) (c slot : Nat) : State :=
  match s.group c slot with
  | some g => if g.ended then (s.barRelease c g.tb).qpCheck planOf c else s
  | none => s

/-- EXIT (R61). -/
def execExit (t : GTgt) (i : BrI) (s : State) : Out :=
  .next (s.issue t (brArg i (noOff i) ⟨[], guardPreds i.g, []⟩) (fun s c slot g m =>
    let g := { g.adv with exited := g.exited ||| m, active := g.active &&& ~~~m }
    let g := if g.active = 0 then g.reconv else g
    (s.setGroup c slot g).groupEnded c slot))

/-- BAR_SYNC (R62, R464): it acts for the whole group if its guard holds in an active lane. -/
def execBarSync (t : GTgt) (i : BrI) (s : State) : Out :=
  .next (s.issue t (brArg i (noOff i) ⟨[], guardPreds i.g, []⟩) (fun s c slot g m =>
    if m = 0 then s.setGroup c slot g.adv
    else if !g.stack.isEmpty || g.active != ~~~g.exited then s.haltGroup c slot hrBarDiverged none
    else (s.setGroup c slot { g.adv with wait := .barrier }).barRelease c g.tb))

/-- BKPT (R70, R464). -/
def execBkpt (t : GTgt) (i : BrI) (s : State) : Out :=
  .next (s.issue t (brArg i (noOff i) ⟨[], guardPreds i.g, []⟩) (fun s c slot g m =>
    if m = 0 then s.setGroup c slot g.adv else s.haltGroup c slot hrBreakpoint none))

/-- NOP_INSTRUCTION (R52). -/
def execNopInstruction (t : GTgt) (i : BrI) (s : State) : Out :=
  .next (s.issue t (brArg i (noOff i) ⟨[], guardPreds i.g, []⟩) (fun s c slot g _ => s.setGroup c slot g.adv))

end Sys2Proof.Machine
end

