-- ==== Sys2Proof/Machine/Fetch.lean ====
section
/-!
DEFINITION. Fetching packets: the checks at fetch (R273 to R276, R292, R366, R436), the fetch loop (R264, R265), indirect
buffers (R271).
-/

namespace Sys2Proof.Machine

/-! ### Checks at fetch -/

/-- R272: the engine classes. -/
inductive EngClass where
  | compute
  | copy
  | collective
  | control
  | fetcher
deriving DecidableEq, Repr

/-- R272: the opcodes and their classes. -/
def Pkt.cls (p : Pkt) : Option EngClass :=
  let o := p.opcode
  if o = 0x01 then some .compute
  else if o = 0x02 ∨ o = 0x03 then some .copy
  else if o = 0x0B then some .collective
  else if o = 0x0E then some .fetcher
  else if (0x04 ≤ o ∧ o ≤ 0x0D) ∨ (0x80 ≤ o ∧ o ≤ 0x8C) then some .control
  else none

/-- The payload bits that an opcode's table names (R274 to R276, R366), as (first bit, width); R300 gives those of
`cmpl_base`. -/
def namedBits (op : Nat) : List (Nat × Nat) :=
  match op with
  | 0x01 => [(64, 208), (272, 1), (320, 128), (448, 6), (464, 41)]
  | 0x02 => [(64, 192)]
  | 0x03 => [(64, 192)]
  | 0x04 => [(64, 12), (80, 16), (96, 1), (128, 64)]
  | 0x05 => [(64, 12), (96, 96)]
  | 0x06 => [(64, 72), (160, 96)]
  | 0x07 => [(64, 136)]
  | 0x08 => [(64, 64)]
  | 0x09 => [(64, 32)]
  | 0x0B => [(64, 25), (96, 16), (128, 256)]
  | 0x0C => [(64, 128)]
  | 0x0E => [(64, 96)]
  | 0x80 => [(64, 17), (128, 128)]
  | 0x81 => [(72, 8), (128, 64)]
  | 0x82 => [(72, 8)]
  | 0x83 => [(64, 35), (104, 16), (128, 80), (224, 84), (319, 17)]
  | 0x84 => [(64, 8), (80, 48)]
  | 0x85 => [(80, 24), (128, 32)]
  | 0x86 => [(64, 80)]
  | 0x87 => [(64, 32)]
  | 0x88 => [(64, 128)]
  | 0x89 => [(64, 16)]
  | 0x8A => [(64, 140), (208, 4)]
  | 0x8B => [(64, 1), (128, 64)]
  | 0x8C => [(64, 40), (128, 128)]
  | _ => []

/-- R266, R269, R285: whether a reserved flag, payload bit or wait field is nonzero. -/
def Pkt.reservedSet (p : Pkt) : Bool :=
  bits p.num 11 5 != 0
    || (List.range 3).any (fun i => decide (i ≥ p.wcount) && p.wait i != 0)
    || (namedBits p.opcode).foldl (fun n e => setBits n e.1 e.2 0) (p.num / 2 ^ 64 * 2 ^ 64) != 0

/-- R269: whether every wait distance is 1 to `step`. -/
def Pkt.waitsOk (p : Pkt) : Bool := p.waits.all (fun d => decide (1 ≤ d) && decide (d ≤ p.step))

/-- R275: whether `n` bytes at a virtual address lie below 2^57. -/
def inVa (a n : Nat) : Bool := decide (a < 2 ^ 57) && decide (a + n ≤ 2 ^ 57)

/-- Whether two ranges share a byte. -/
def meet (a n b m : Nat) : Bool := decide (n > 0) && decide (m > 0) && decide (a < b + m) && decide (b < a + n)

/-- R274. -/
def Pkt.badLaunch (p : Pkt) : Bool :=
  let tile := p.b 34 1 % 2 == 1
  let n := p.b 56 8 % 64
  !(p.b 8 8 % 8 == 0 && decide (p.b 8 8 < 2 ^ 57) && p.b 24 4 != 0 && p.b 28 2 != 0 && p.b 30 2 != 0
    && decide (1 ≤ p.b 32 1) && decide (p.b 32 1 ≤ 16) && decide (p.b 33 1 ≤ 64) && (!tile || p.b 33 1 == 0)
    && p.b 40 8 % 16 == 0 && p.b 48 8 % 16 == 0 && decide (p.b 40 8 < 2 ^ 57) && decide (p.b 48 8 < 2 ^ 57)
    && (tile || (p.b 40 8 == 0 && p.b 48 8 == 0)) && (n == 0 || (decide (16 ≤ n) && decide (n ≤ 56))))

/-- R366, R367: the bytes a COLLECTIVE reads and writes among `n` members. -/
def Pkt.collRead (p : Pkt) (n : Nat) : Nat := if p.cop = 4 then 0 else p.ccount * p.elem * (if p.cop = 1 then n else 1)
def Pkt.collWrite (p : Pkt) (n : Nat) : Nat := if p.cop = 4 then 0 else p.ccount * p.elem * (if p.cop = 2 then n else 1)

/-- R366, R367: a COLLECTIVE among `n` members out of range. -/
def Pkt.badColl (p : Pkt) (n : Nat) : Bool :=
  !(decide (2 ≤ n) && (p.cop != 3 || decide (p.root < n)) && p.csrc % 16 == 0 && p.cdst % 16 == 0
    && inVa p.csrc (p.collRead n) && inVa p.cdst (p.collWrite n) && decide (p.ccount ≤ 2 ^ 36)
    && (p.ccount != 0 || p.cop == 4)
    && (!meet p.csrc (p.collRead n) p.cdst (p.collWrite n) || (p.cop == 0 && p.csrc == p.cdst)))

/-- R275 to R277, R300, R366: an undefined action or mode, or an index out of range. -/
def Pkt.badIndex (p : Pkt) : Bool :=
  match p.opcode with
  | 0x06 => decide (p.b 16 1 > 1)
  | 0x07 => decide (p.b 24 1 > 2)
  | 0x0B => decide (p.cop > 4) || decide (p.b 9 1 > 1) || (decide (p.cop < 2) && decide (p.rop > 2))
  | 0x80 => decide (p.b 8 1 > 3) || decide (p.b 9 1 ≥ 64)
  | 0x81 => decide (p.b 9 1 ≥ 64)
  | 0x82 => decide (p.b 9 1 ≥ 64)
  | 0x83 =>
    decide (p.b 8 1 > 5) || decide (p.b 10 2 ≥ 4096)
      || (p.b 8 1 == 0 && (decide (p.b 9 1 ≥ 64) || decide (p.b 14 1 > 7)
        || (decide (p.b 40 2 ≥ 2048) && p.b 40 2 != 0xFFFF)))
  | 0x84 => decide (p.b 8 1 > 1) || (p.b 8 1 == 0 && decide (p.b 10 2 ≥ 4096))
  | 0x85 => decide (p.b 10 2 ≥ 4096) || decide (p.b 12 1 > 7)
  | 0x86 => decide (p.b 16 1 > 3) || decide (p.b 17 1 > 15)
  | 0x87 =>
    decide (p.b 8 1 > 5) || decide (p.b 9 1 > 23)
      || (p.b 8 1 == 0 && (decide (p.b 10 1 > 11) || decide (p.b 11 1 > 8)))
  | _ => false

/-- R275, R276, R261, R300, R366, R436: a breach of an alignment, length or range rule. -/
def State.badRange (s : State) (p : Pkt) : Bool :=
  let a := p.b 8 8
  match p.opcode with
  | 0x02 =>
    let n := p.b 24 8
    !(decide (1 ≤ n) && decide (n ≤ 2 ^ 40) && inVa a n && inVa (p.b 16 8) n && !meet a n (p.b 16 8) n)
  | 0x03 =>
    let n := p.b 16 8
    !(a % 8 == 0 && n % 8 == 0 && decide (8 ≤ n) && decide (n ≤ 2 ^ 40) && inVa a n)
  | 0x06 => !(a % 8 == 0 && inVa a 8 && p.b 24 8 % 8 == 0 && inVa (p.b 24 8) 8)
  | 0x07 => !(a % 65536 == 0 && p.b 16 8 % 65536 == 0 && p.b 16 8 != 0 && inVa a (p.b 16 8))
  | 0x08 => !(a % 16 == 0 && inVa a 16)
  | 0x0B => p.badColl (s.fld .FAB_CGRP_n p.cgroup)
  | 0x0C => !(a % 128 == 0 && p.b 16 8 % 128 == 0 && inVa a (p.b 16 8))
  | 0x80 =>
    let d := p.b 16 8
    let n := p.b 24 8
    (match p.b 8 1 with
      | 0 => !inVa d n
      | 3 => d % 4096 != 0 || decide (d ≥ 2 ^ 44)
      | _ => !(decide (d < 2 ^ 28) && decide (1 ≤ n) && decide (n ≤ 2 ^ 28) && decide (d + n ≤ 2 ^ 28)))
  | 0x81 => p.b 16 8 % 4096 != 0 || decide (p.b 16 8 ≥ 2 ^ 44)
  | 0x83 =>
    p.b 8 1 == 0 && !(decide (6 ≤ p.b 13 1) && decide (p.b 13 1 ≤ 16) && p.b 16 8 % (64 * 2 ^ p.b 13 1) == 0
      && decide (p.b 16 8 < 2 ^ 52) && p.b 32 8 % 4096 == 0)
  | 0x84 => p.b 8 1 == 1 && !(decide (1 ≤ p.b 14 2) && decide (p.b 12 2 + p.b 14 2 ≤ 65536))
  | 0x86 => !(decide (p.b 8 4 < 2 ^ 28) && decide (1 ≤ p.b 12 4) && decide (p.b 8 4 + p.b 12 4 ≤ 2 ^ 28))
  | 0x88 => !(a % 4096 == 0 && decide (p.b 16 8 ≥ 4751616))
  | 0x8C => !((p.b 12 1 == 4 || p.b 12 1 == 8) && p.b 8 4 % p.b 12 1 == 0 && decide (p.b 8 4 < 2 ^ 26))
  | _ => false

/-- R273: the payload rules of an opcode; where a packet breaks both kinds, BAD_INDEX is the one reported (DESIGN CHOICE,
log entry 35). -/
def State.badPayload (s : State) (p : Pkt) : Nat :=
  if p.opcode = 0x01 then (if p.badLaunch then fcBadLaunch else 0)
  else if p.opcode = 0x0E then
    (if p.b 8 8 % 64 = 0 ∧ inVa (p.b 8 8) (64 * p.b 16 4) ∧ 1 ≤ p.b 16 4 ∧ p.b 16 4 ≤ 2 ^ 20 then 0 else fcBadChain)
  else if p.badIndex then fcBadIndex
  else if s.badRange p then fcBadRange
  else 0

/-- R292: whether a queue may name a fence. -/
def State.fenceOk (s : State) (q f : Nat) : Bool :=
  s.flag .CFE_Q_CFG_kernel q || s.flag .CFE_FENCE_CTL_open f
    || s.fld .CFE_FENCE_CTL_owner f == s.fld .CFE_Q_CFG_asc q

/-- R273, R285: the first check that a packet fails at fetch, 0 for none. FENCE_OWNER is tested with privilege (DEDUCED,
log entry 35). -/
def State.checkPkt (s : State) (p : Pkt) : Nat :=
  if p.cls.isNone then fcBadOpcode
  else if p.opcode ≥ 0x80 ∧ !s.flag .CFE_Q_CFG_kernel p.q then fcKernelOpcode
  else if (p.opcode = 0x04 ∨ p.opcode = 0x05) ∧ p.b 8 2 < 4096 ∧ !s.fenceOk p.q (p.b 8 2) then fcFenceOwner
  else if p.reservedSet then fcReserved
  else if !p.stepOk (s.queue p.q) then fcBadStep
  else if !p.waitsOk then fcBadWait
  else s.badPayload p

/-! ### The fetch loop -/

/-- The sequence number of the step that lies `d` steps back, passing over numbers that hold no step (R269). -/
def stepBack (skips : List Nat) : Nat → Nat → Nat → Nat
  | 0, seq, _ => seq
  | k + 1, seq, d =>
    if d = 0 then seq
    else if skips.contains (seq - 1) then stepBack skips k (seq - 1) d
    else stepBack skips k (seq - 1) (d - 1)

/-- How the fetcher's read of a packet ends. -/
inductive FetchRead where
  | ok (s : State) (bs : List Byte)
  | wait (s : State)
  | fail (s : State)

/-- R261, R271: the 64 bytes of a packet read at a physical address of the ring, or at a virtual address of the indirect
buffer; a line read uncorrectably is a fetch fault (R418). A ring packet in host memory is read by RdCurr, of which
nothing is cached (R331); without CXL.cache a queue with a host ring or a host completion area cannot fetch (R320). -/
def State.readPkt (s : State) (q addr : Nat) (ind : Bool) : FetchRead :=
  let r : Except MFault Target × State :=
    if ind then s.access feMmu (s.fld .CFE_Q_CFG_asc q) addr .read
    else (.ok (if s.flag .CFE_Q_CFG_ring_host q then .host addr else .dev addr), s)
  match r with
  | (.error (.wait t), s) => .wait (s.biSnoop t false)
  | (.error _, s) => .fail s
  | (.ok (.peer _ _), s) => .fail s
  | (.ok t, s) =>
    let up := match t with
      | .host _ => s.hostUp
      | .dev d => decide (d < 2 ^ 44) && (s.answerOf t).isNone
      | _ => false
    if !up || (s.flag .CFE_Q_CMPL_cmpl_host q && !s.hostUp) then .fail s
    else if s.biHeld t false then .wait (s.biSnoop t false)
    else
      let x := s.takeBad t 64
      if x.2 then .fail x.1
      else .ok (match t with | .host _ => if ind then x.1.scdTouch none t false else x.1 | _ => x.1.scdTouch none t false)
        (s.targetBytes t 64)

/-- The 64-bit words of a packet. -/
def pktWords (bs : List Byte) : List DWord :=
  (List.range 8).map (fun i => BitVec.ofNat 64 (leNat ((bs.drop (8 * i)).take 8)))

/-- The next packet address of a queue: in the indirect buffer in use, else in the ring (R262, R271). -/
def State.nextAddr (s : State) (q : Nat) : Nat × Bool :=
  if s.flag .CFE_Q_STATUS_in_chain q then (s.fld .CFE_Q_CHAIN_next q, true)
  else (s.fld .CFE_Q_BASE_base q + 64 * (s.fld .CFE_Q_RPTR_rptr q % 2 ^ s.fld .CFE_Q_CFG_size_log2 q), false)

/-- The fetcher moved past a packet. -/
def State.passPkt (s : State) (q : Nat) (ind : Bool) : State :=
  if ind then
    let left := s.fld .CFE_Q_CHAIN_LEFT_left q - 1
    s.setFlds q [(.CFE_Q_CHAIN_next, s.fld .CFE_Q_CHAIN_next q + 64), (.CFE_Q_CHAIN_LEFT_left, left),
      (.CFE_Q_STATUS_in_chain, if left = 0 then 0 else 1)]
  else s.setFld .CFE_Q_RPTR_rptr q (s.fld .CFE_Q_RPTR_rptr q + 1)

/-- R267, R273, R286: a packet just read enters the pool; one that fails a check stops the queue with the fetcher's entry
(R311). True where the run goes on. -/
def State.admitPkt (s : State) (p : Pkt) (code : Nat) : State × Bool :=
  let s : State := { s with pool := s.pool ++ [p] }
  if code = 0 then (s.setQueue p.q ((s.queue p.q).after p), p.cls != some .fetcher)
  else
    let ent := engineEntry 6 (2 ^ 16 * s.fld .CFE_Q_CHAIN_LEFT_left p.q) (s.nextAddr p.q).1
    let s := s.setQueue p.q { s.queue p.q with refetch := some (p.addr, p.ind) }
    ((s.modPkt p.q p.seq (fun x => { x with st := .running, fault := code })).stopQueue p.q (some p) code p.step 0
      [ent], false)

/-- A packet read at an address under a sequence number; one that cannot be read is recorded as zeros (log entry 35). -/
def State.fetchPkt (s : State) (q addr : Nat) (ind again : Bool) : State × Bool :=
  match s.readPkt q addr ind with
  | .wait s => (s, false)
  | r =>
    let ok := match r with | .ok _ _ => true | _ => false
    let bs := match r with | .ok _ bs => bs | _ => []
    let s := match r with | .ok s _ => s | .wait s => s | .fail s => s
    let seq := s.fld .CFE_Q_SEQ_fetched_seq q + if again then 0 else 1
    let x := s.queue q
    let p : Pkt :=
      { q := q, seq := seq, addr := addr, ind := ind, words := pktWords bs, deps := [], st := .fetched, since := none
        start := 0, acct := s.fld .CFE_Q_CFG_acct q, pos := 0, eng := 0, fault := 0, lim := 0, crcLim := 0, cxlLim := 0
        held := 0, buf := [] }
    let p := { p with deps := p.waits.map (stepBack x.skips 2048 seq) }
    let code := if ok then s.checkPkt p else fcFetchFault
    let s := if again then s.setQueue q { x with refetch := none } else s.passPkt q ind
    (s.setFld .CFE_Q_SEQ_fetched_seq q seq).admitPkt p code

/-- R264, R271: whether a queue's fetcher runs: it is ACTIVE and no CHAIN waits for the fetcher. -/
def State.fetches (s : State) (q : Nat) : Bool :=
  s.qState q == qActive && !s.pool.any (fun p => p.q == q && p.cls == some .fetcher && p.fault == 0)

/-- R264: the packets of the next run: of the indirect buffer, or of the ring up to `q.w` and the ring's end. -/
def State.runLength (s : State) (q : Nat) : Nat :=
  if s.flag .CFE_Q_STATUS_in_chain q then min 16 (s.fld .CFE_Q_CHAIN_LEFT_left q)
  else
    let r := s.fld .CFE_Q_RPTR_rptr q
    let size := 2 ^ s.fld .CFE_Q_CFG_size_log2 q
    min 16 (min ((s.queue q).w - r) (size - r % size))

/-- R265: whether a queue has a packet to fetch and window room for it. -/
def State.wantsRoom (s : State) (q : Nat) : Bool :=
  s.fetches q && decide (s.pool.countP (fun p => p.q == q) < 1024)
    && (decide (s.runLength q > 0) || (s.queue q).refetch.isSome)

/-- R265: whether the pool has room for a queue: with few entries left, one for each queue that waits for room and comes
before it, in the order of queue numbers after the queue last served. -/
def State.poolRoom (s : State) (q : Nat) : Bool :=
  decide (s.pool.length + 4096 ≤ 65536) ||
    decide (s.pool.length + ((List.range ((q + 4095 - s.roomTurn % 4096) % 4096)).countP (fun i =>
      s.wantsRoom ((s.roomTurn + 1 + i) % 4096))) < 65536)

/-- R265: whether a queue may fetch one more packet: its window and the pool have room. -/
def State.mayFetch (s : State) (q : Nat) : Bool :=
  s.fetches q && decide (s.pool.countP (fun p => p.q == q) < 1024) && s.poolRoom q

/-- The turn for pool room passed to the queues after one (R265). -/
def State.roomTaken (s : State) (q : Nat) : State := { s with roomTurn := q }

/-- R264: a run of at most `n` packets. -/
def State.fetchRun (q : Nat) : Nat → State → State
  | 0, s => s
  | n + 1, s =>
    if !s.mayFetch q then s
    else
      let a := s.nextAddr q
      match (s.roomTaken q).fetchPkt q a.1 a.2 false with
      | (s, true) => State.fetchRun q n s
      | (s, false) => s

/-- R264: with nothing left below `q.w`, the latch is cleared and the write pointer read again; a fetcher without new
work goes idle. -/
def State.reread (s : State) (q : Nat) : State :=
  let s := s.setFld .CFE_Q_STATUS_doorbell_latch q 0
  let w := s.fld .CFE_Q_WPTR_wptr q
  if w = (s.queue q).w then s.setFld .CFE_Q_STATUS_idle q 1 else s.setQueue q { s.queue q with w := w }

/-- One turn of a queue's fetcher: the packet of a RESUME with `retry` again, or a run (R264, R287). -/
def State.fetchTurn (s : State) (q : Nat) : State :=
  if !s.fetches q then s
  else
    match (s.queue q).refetch with
    | some a => if s.mayFetch q then ((s.roomTaken q).fetchPkt q a.1 a.2 true).1 else s
    | none =>
      let s := if s.runLength q = 0 then s.reread q else s
      State.fetchRun q (s.runLength q) s

/-- FETCH_RUN (R264). -/
def execFetchRun (q : Fin 4096) (s : State) : Out := .next (if s.ready then s.fetchTurn q.val else s)

/-- CHAIN (R271): the fetcher turns to the buffer that a CHAIN packet it has fetched names, and the packet completes. -/
def execChain (q : Fin 4096) (seq : Nat) (s : State) : Out :=
  .next (
    match s.pkt q.val seq with
    | none => s
    | some p =>
      if !s.ready || p.cls != some .fetcher || p.fault != 0 then s
      else
        (s.setFlds p.q [(.CFE_Q_CHAIN_next, p.b 8 8), (.CFE_Q_CHAIN_LEFT_left, p.b 16 4),
          (.CFE_Q_STATUS_in_chain, 1)]).endPkt p 0)

end Sys2Proof.Machine
end

