-- ==== Sys2Proof/Machine/Packet.lean ====
section
/-!
DEFINITION. Packets start and are performed: dependences (R269, R270), arbitration (R281 to R283), the operations of
R272, expiries (R298, R308), completion records on their way (R302, R304). A packet that has to wait, for the host or
because it is told to, stays started; its command given again carries it on.
-/

namespace Sys2Proof.Machine

/-! ### Which packet starts -/

/-- R269: a failed step among those a packet waits on. -/
def State.depFailed (s : State) (p : Pkt) : Option StepFail :=
  p.deps.findSome? (fun d => s.fails.find? (fun f => f.q == p.q && f.seq == d))

/-- R270: whether a packet may start. -/
def State.startable (s : State) (p : Pkt) : Bool :=
  p.st == .fetched && p.fault == 0 && p.cls != some .fetcher && s.qState p.q == qActive
    && p.deps.all (fun d => (s.pkt p.q d).isNone)
    && s.pool.all (fun x => x.q != p.q || decide (x.seq ≥ p.seq)
      || (x.opcode != 0x0A && !(x.cls == p.cls && x.st == .fetched)))

/-- R281: the time since which each packet has been startable. -/
def State.markStartable (s : State) : State :=
  { s with pool := s.pool.map (fun p => { p with since := if s.startable p then some (p.since.getD s.now) else none }) }

/-- R282: the copy engine with the fewest steps, of those with fewer than 4. -/
def State.copyFree (s : State) : Option Nat :=
  minBy (fun e => (mapGet [] s.copyEng e).length) ((List.range 8).filter (fun e => decide ((mapGet [] s.copyEng e).length < 4)))

/-- R281, R283, R369: the engine of a class that can take a packet: 0 compute, 1 collective, 2 control, 3 to 10 copy. -/
def State.engineOf (s : State) (c : EngClass) : Option Nat :=
  match c with
  | .compute => if s.kernels.length < 64 then some 0 else none
  | .collective => if s.colls.length < 16 then some 1 else none
  | .control => some 2
  | .copy => s.copyFree.map (· + 3)
  | .fetcher => none

/-- R281: the effective priority of a startable packet. -/
def State.effPrio (s : State) (p : Pkt) : Nat :=
  if s.now > p.since.getD s.now + s.fld .CFE_SCHED_CFG_age_us 0 * 1000 then 7 else s.fld .CFE_Q_CFG_prio p.q

/-- R281: the packet that an engine chooses for a class. -/
def State.choose (s : State) (c : EngClass) (e : Nat) : Option Pkt :=
  let cands := s.pool.filter (fun p => p.cls == some c && s.startable p)
  let top := cands.foldl (fun m p => max m (s.effPrio p)) 0
  minBy (fun p => (p.q + 4096 - mapGet 4095 s.lastQ e - 1) % 4096) (cands.filter (fun p => s.effPrio p == top))

/-- R189, R298, R318, R366: the time limit in ns of a packet's own wait, 0 for none: its `timeout_ms`, or the configured
default. -/
def State.pktLim (s : State) (p : Pkt) : Nat :=
  let ms := fun (t d : Nat) => (if t = 0xFFFFFFFF then d else t) * 1000000
  match p.opcode with
  | 0x05 => ms (p.b 12 4) (s.fld .CFG_FENCE_fence_wait_timeout_ms 0)
  | 0x06 => ms (p.b 20 4) (s.fld .CFG_SYNC_TIMEOUTS_fe_wait_timeout_ms 0)
  | 0x0B => ms (p.b 40 4) (s.fld .CFG_FENCE_fence_wait_timeout_ms 0)
  | _ => 0

/-- R280, R281: a packet taken by an engine: it starts under its queue's tag, and under the limits then in force. -/
def State.takePkt (s : State) (p : Pkt) (e : Nat) : State :=
  ({ s with lastQ := mapSet 4095 s.lastQ e p.q }).modPkt p.q p.seq (fun x => { x with
    st := .running, start := s.now, acct := s.fld .CFE_Q_CFG_acct p.q, eng := e - 3, lim := s.pktLim p
    crcLim := s.fld .CFG_MEMORY_crc_retry_limit 0, cxlLim := s.fld .CFG_FAR_TIER_completion_timeout_ms 0 })

/-- A started packet carried on: one that neither waits for a peer nor has stopped its queue. -/
def State.carriesOn (s : State) (p : Pkt) : Bool :=
  p.st == .running && p.fault == 0 && s.qState p.q != qDraining && !s.owed p.q p.seq
    && !s.remote.any (fun r => r.svc == .fence p.q p.seq)

/-- R269, R270, R281: a packet of a kind performed: it ends with DEP_FAILED, is chosen and started, or is carried on. -/
def State.perform (s : State) (q seq : Nat) (kind : Pkt → Bool) (go : State → Pkt → State) : State :=
  match s.pkt q seq with
  | none => s
  | some p =>
    if !s.ready || !kind p then s
    else if s.carriesOn p then go s p
    else if p.st != .fetched || s.qState q != qActive then s
    else
      match s.depFailed p with
      | some f => s.finishPkt p fcDepFailed f.fstep false false
      | none =>
        let s := s.markStartable
        match p.cls.bind (fun c => (s.engineOf c).map (fun e => (c, e))) with
        | none => s
        | some (c, e) =>
          if ((s.choose c e).map (fun x => (x.q, x.seq))) != some (q, seq) then s
          else
            let s := s.takePkt p e
            match s.pkt q seq with
            | some p => go s p
            | none => s

/-- A packet's opcode, and its `action` where it has one. -/
def isOp (op : Nat) (p : Pkt) : Bool := p.opcode == op
def isAct (op act : Nat) (p : Pkt) : Bool := p.opcode == op && p.b 8 1 == act

/-- The packet's next stop after an access that may have to wait. -/
def StepAns.finish (r : StepAns) (p : Pkt) : State :=
  match r with
  | .wait s => s
  | .fail s c => s.failPkt p c 0 []
  | .ok s => if s.owed p.q p.seq then s else s.endPkt p 0

/-! ### Kernels, copies -/

/-- R274, R283, R284, R204: a kernel admitted. -/
def State.admitKernel (s : State) (p : Pkt) : State :=
  if s.kernels.any (fun k => k.q == p.q && k.seq == p.seq) then s
  else
    let ep := if (s.kepoch + 1) % 2 ^ 24 = 0 then 1 else (s.kepoch + 1) % 2 ^ 24
    let b := s.fld .CFE_Q_BUDGET_budget_ms p.q
    let k : Kernel :=
      { id := s.nextKern, q := p.q, seq := p.seq, asc := s.fld .CFE_Q_CFG_asc p.q, acct := p.acct, epoch := ep
        priv := s.flag .CFE_Q_CFG_kernel p.q, prio := s.fld .CFE_Q_CFG_prio p.q
        budget := if b = 0xFFFFFFFF then s.fld .CFE_SCHED_CFG_budget_default_ms 0 else b
        entry := p.b 8 8, args := p.b 16 8, gx := p.b 24 4, gy := p.b 28 2, gz := p.b 30 2, groups := p.b 32 1
        pages := p.b 33 1, tile := p.b 34 1 % 2 == 1, aEntry := p.b 40 8, xEntry := p.b 48 8, affin := p.b 56 8
        share := none, next := 0, retired := 0, due := s.now, passed := none, first := none, code := 0
        aborted := false, short := false, lost := false, cells := [] }
    { s with kernels := s.kernels ++ [k], nextKern := s.nextKern + 1, kepoch := ep }

/-- LAUNCH (R274, R283). -/
def execLaunch (q : Fin 4096) (seq : Nat) (s : State) : Out := .next (s.perform q.val seq (isOp 0x01) State.admitKernel)

/-- R282: a COPY or FILL step given to the copy engine that took it. -/
def State.giveCopy (s : State) (p : Pkt) : State :=
  if s.copyHas p.q p.seq then s
  else { s with copyEng := mapSet [] s.copyEng p.eng (mapGet [] s.copyEng p.eng ++ [(p.q, p.seq)]) }

/-- COPY, FILL (R275, R282): their pieces follow with COPY_PIECE_DONE. -/
def execCopyPkt (q : Fin 4096) (seq : Nat) (s : State) : Out := .next (s.perform q.val seq (isOp 0x02) State.giveCopy)
def execFill (q : Fin 4096) (seq : Nat) (s : State) : Out := .next (s.perform q.val seq (isOp 0x03) State.giveCopy)

/-! ### Fences and full/empty waits -/

/-- R293, R363: a fence signalled, here or at a peer. -/
def State.signalPkt (s : State) (p : Pkt) : State :=
  let dev := p.b 10 2
  if dev = 0xFFFF ∨ dev = s.fld .FAB_ID_dev_id 0 then
    let r := s.fenceSignal (p.b 8 2) (p.b 16 8)
    r.1.finishPkt p 0 0 r.2 false
  else
    let f := { Frame.blank with
      dst := BitVec.ofNat 16 dev, addr := BitVec.ofNat 64 (p.b 8 2), data := natLe 8 (p.b 16 8) }
    match s.sendReq none (some p.acct) ftFenceSig f (.fence p.q p.seq) with
    | some s => s
    | none => s.failPkt p fcRemoteUnreachable 0 []

/-- R294: a fence wait's first test. -/
def State.waitPkt (s : State) (p : Pkt) : State :=
  if fenceSat (s.fld .CFE_FENCE_VALUE_value (p.b 8 2)) (p.b 16 8) then s.endPkt p 0 else s

/-- FENCE_SIGNAL, FENCE_WAIT (R293, R294). -/
def execFenceSignal (q : Fin 4096) (seq : Nat) (s : State) : Out :=
  .next (s.perform q.val seq (isOp 0x04) State.signalPkt)
def execFenceWait (q : Fin 4096) (seq : Nat) (s : State) : Out := .next (s.perform q.val seq (isOp 0x05) State.waitPkt)

/-- Whether an FE_WAIT has a waiter at a die of this device. -/
def State.feWaits (s : State) (p : Pkt) : Bool := s.waiters.any (fun w => w.src == .packet p.q p.seq)

/-- R275, R165, R308, R335: an FE_WAIT, a home operation, arrives at the die that holds its word; an operation returned
by a full table arrives again when it is carried on. -/
def State.fePkt (s : State) (p : Pkt) : State :=
  if p.pos != 0 then s
  else if s.feWaits p then (s.feDstSnoop p).feServeAll
  else
    let take := p.b 16 1 == 1
    match s.access feMmu (s.fld .CFE_Q_CFG_asc p.q) (p.b 8 8) (if take then .write else .read) with
    | (.error (.wait t), s) => s.biSnoop t false
    | (.error f, s) => s.failPkt p (stepCode f) 0 []
    | (.ok (.host _), s) => s.failPkt p fcStepProtection 0 []
    | (.ok (.peer i a), s) =>
      let f := { Frame.blank with
        dst := BitVec.ofNat 16 i, addr := BitVec.ofNat 64 a, size := 3, aop := if take then 0 else 1 }
      (match s.sendReq none (some p.acct) ftFeReq f (.piece p.q p.seq 0) with
        | some s => s
        | none => s.failPkt p fcRemoteUnreachable 0 [])
    | (.ok (.dev d), s) =>
      if s.biHeld (.dev d) true then s.biSnoop (.dev d) true
      else
        match s.feArrive d (if take then feWaitTake else feWaitPeek) 0 (.packet p.q p.seq) s.now
            (s.fld .CFE_Q_CFG_asc p.q) with
        | (s, .fault f) => s.failPkt p (stepCode f) 0 []
        | (s, .notSync) => s.failPkt p fcStepProtection 0 []
        | (s, .waits) => s.feDstSnoop p
        | (s, _) => s

/-- FE_WAIT (R275). -/
def execFeWait (q : Fin 4096) (seq : Nat) (s : State) : Out := .next (s.perform q.val seq (isOp 0x06) State.fePkt)

/-- FENCE_WAIT_TIMEOUT (R298, R311). -/
def execFenceWaitTimeout (q : Fin 4096) (seq : Nat) (s : State) : Out :=
  .next (
    match s.pkt q.val seq with
    | none => s
    | some p =>
      let f := p.b 8 2
      if s.ready && p.waitsFence f && s.waitOver p then
        s.failPkt p fcWaitTimeout 0 [engineEntry 4 f (s.fld .CFE_FENCE_VALUE_value f)]
      else s)

/-- FE_WAIT_EXPIRED (R308, R311): the waiter is withdrawn, here or at the peer. -/
def execFeWaitExpired (q : Fin 4096) (seq : Nat) (s : State) : Out :=
  .next (
    match s.pkt q.val seq with
    | none => s
    | some p =>
      if !s.ready || p.opcode != 0x06 || p.st != .running || p.fault != 0 || p.pos != 0 || !s.waitOver p then s
      else
        let full := s.waiters.any (fun w => w.src == .packet p.q p.seq && s.isFull w.word)
        let s := s.feWithdraw (fun w => w.src == .packet p.q p.seq)
        let s := s.each (s.remote.filter (fun r => match r.svc with
            | .piece a b _ => a == p.q && b == p.seq
            | _ => false)) State.withdrawRemote
        s.failPkt p fcFeWaitExpired 0 [engineEntry 5 (b2n full) (p.b 8 8)])

/-! ### The other user packets -/

/-- R254: a hint set on pages from a list of addresses on; whether all were reached. -/
def State.hintPages (asc hint : Nat) : List Nat → State → State × Bool
  | [], s => (s, true)
  | va :: t, s =>
    match s.hintPage asc va hint with
    | (s, true) => State.hintPages asc hint t s
    | (s, false) => (s, false)

/-- PLACE_HINT (R254, R275); it waits while the host holds a line of a table that it reads. -/
def State.hintPkt (s : State) (p : Pkt) : State :=
  match State.hintPages (s.fld .CFE_Q_CFG_asc p.q) (p.b 24 1)
      ((List.range (p.b 16 8 / 65536)).map (fun i => p.b 8 8 + 65536 * i)) s with
  | (s, true) => s.endPkt p 0
  | (s, false) => s
def execPlaceHint (q : Fin 4096) (seq : Nat) (s : State) : Out := .next (s.perform q.val seq (isOp 0x07) State.hintPkt)

/-- TIMESTAMP (R275): the time counter at the start of the step as 16 bytes; its fraction is kept while the write has to
wait. -/
def State.stampPkt (s : State) (p : Pkt) : State :=
  let frac := if p.pos = 0 then s.time.frac else p.pos - 1
  let s := if p.pos = 0 then s.modPkt p.q p.seq (fun x => { x with pos := frac + 1 }) else s
  (s.stepWrite p (p.b 8 8) (natLe 8 p.start ++ natLe 2 frac ++ natLe 6 0) true).finish p
def execTimestamp (q : Fin 4096) (seq : Nat) (s : State) : Out := .next (s.perform q.val seq (isOp 0x08) State.stampPkt)

/-- MARK (R275). -/
def State.markPkt (s : State) (p : Pkt) : State := (s.setFld .CFE_Q_MARK_mark p.q (p.b 8 4)).endPkt p 0
def execMarkPkt (q : Fin 4096) (seq : Nat) (s : State) : Out := .next (s.perform q.val seq (isOp 0x09) State.markPkt)

/-- MEMBAR (R153): it completes once every earlier packet of its queue has. -/
def State.membarPkt (s : State) (p : Pkt) : State :=
  if s.pool.any (fun x => x.q == p.q && decide (x.seq < p.seq)) then s else s.endPkt p 0
def execMembar (q : Fin 4096) (seq : Nat) (s : State) : Out := .next (s.perform q.val seq (isOp 0x0A) State.membarPkt)

/-- R366 to R371: a collective step starts, or is carried on. -/
def State.collPkt (s : State) (p : Pkt) : State :=
  let s := if (s.collOf p.q p.seq).isSome then s else s.collStart p
  s.collPoll p.q p.seq

/-- ALL_REDUCE, REDUCE_SCATTER, ALL_GATHER, BROADCAST, BARRIER (R367). -/
def execAllReduce (q : Fin 4096) (seq : Nat) (s : State) : Out := .next (s.perform q.val seq (isAct 0x0B 0) State.collPkt)
def execReduceScatter (q : Fin 4096) (seq : Nat) (s : State) : Out :=
  .next (s.perform q.val seq (isAct 0x0B 1) State.collPkt)
def execAllGather (q : Fin 4096) (seq : Nat) (s : State) : Out := .next (s.perform q.val seq (isAct 0x0B 2) State.collPkt)
def execBroadcast (q : Fin 4096) (seq : Nat) (s : State) : Out := .next (s.perform q.val seq (isAct 0x0B 3) State.collPkt)
def execBarrier (q : Fin 4096) (seq : Nat) (s : State) : Out := .next (s.perform q.val seq (isAct 0x0B 4) State.collPkt)

/-- The lines that `n` bytes at a target of this device or the host touch, written back and dropped. -/
def State.dropLines (s : State) (tag : Option Nat) (t : Target) (n : Nat) : State :=
  s.each (List.range (ceilDiv n 128)) (fun s i => s.scdDrop (t.plus (128 * i)) true tag)

/-- INVALIDATE (R275): lines of the range written back and invalidated, unit by unit. -/
def State.invalPkt (s : State) (p : Pkt) : State :=
  ((spans (p.b 16 8 / 4096 + 2) (p.b 8 8) (p.b 16 8)).foldl (fun (r : StepAns) c =>
    match r with
    | .ok s =>
      (match s.access feMmu (s.fld .CFE_Q_CFG_asc p.q) c.1 .read with
        | (.error (.wait t), s) => .wait (s.biSnoop t false)
        | (.error f, s) => .fail s (stepCode f)
        | (.ok (.peer _ _), s) => .ok s
        | (.ok t, s) => .ok (s.dropLines p.tag t c.2))
    | r => r) (.ok s)).finish p
def execInvalidate (q : Fin 4096) (seq : Nat) (s : State) : Out := .next (s.perform q.val seq (isOp 0x0C) State.invalPkt)

/-- NOP (R275). -/
def execNopPkt (q : Fin 4096) (seq : Nat) (s : State) : Out :=
  .next (s.perform q.val seq (isOp 0x0D) (fun s p => s.endPkt p 0))

/-! ### Contexts and translations -/

/-- R279: an action of MAP_UPDATE on an ACTIVE ASC. -/
def State.onAsc (s : State) (p : Pkt) (go : State → State) : State :=
  if s.fld .CFE_ASC_STATE_state (p.b 9 1) = 1 then go s else s.failPkt p fcAscState 0 []

/-- MAP_UPDATE INVALIDATE (R237). -/
def State.invalMap (s : State) (p : Pkt) : State :=
  s.onAsc p (fun s => (s.tlbInval (p.b 9 1) (p.b 16 8) (p.b 24 8)).endPkt p 0)
def execMapUpdateInvalidate (q : Fin 4096) (seq : Nat) (s : State) : Out :=
  .next (s.perform q.val seq (isAct 0x80 0) State.invalMap)

/-- DPN_ALLOC (R241); it waits for a released frame or sync slot that is being cleared. -/
def State.allocPkt (s : State) (p : Pkt) : State :=
  s.onAsc p (fun s =>
    match s.allocPages (p.b 16 8) (p.b 24 8) (p.b 10 1 % 2 == 1) with
    | (s, c) => if c = 0 then s.endPkt p 0 else if c = allocWaits then s else s.failPkt p c 0 [])
def execDpnAlloc (q : Fin 4096) (seq : Nat) (s : State) : Out := .next (s.perform q.val seq (isAct 0x80 1) State.allocPkt)

/-- DPN_FREE (R241, R335): it waits until the host has given up every line of the range. -/
def State.freePkt (s : State) (p : Pkt) : State :=
  s.onAsc p (fun s =>
    let held := s.pagesHeld (p.b 16 8) (p.b 24 8)
    if held.isEmpty then (s.freePages (p.b 16 8) (p.b 24 8)).endPkt p 0 else s.snoopLines held)
def execDpnFree (q : Fin 4096) (seq : Nat) (s : State) : Out := .next (s.perform q.val seq (isAct 0x80 2) State.freePkt)

/-- An ASC's root set, 0 for none. -/
def State.setRoot (s : State) (a root : Nat) : State :=
  s.setFlds a [(.CFE_ASC_ROOT_root, root), (.CFE_ASC_STATE_root_valid, b2n (root != 0))]

/-- SET_ROOT (R276). -/
def State.rootPkt (s : State) (p : Pkt) : State :=
  s.onAsc p (fun s => ((s.setRoot (p.b 9 1) (p.b 16 8)).tlbInval (p.b 9 1) 0 0).endPkt p 0)
def execSetRoot (q : Fin 4096) (seq : Nat) (s : State) : Out := .next (s.perform q.val seq (isAct 0x80 3) State.rootPkt)

/-- ASC_CREATE (R279). -/
def State.ascCreatePkt (s : State) (p : Pkt) : State :=
  let a := p.b 9 1
  if s.fld .CFE_ASC_STATE_state a ≠ 0 then s.failPkt p fcAscState 0 []
  else
    let s := (s.setFld .CFE_ASC_STATE_state a 1).setRoot a (p.b 16 8)
    (s.setFlds a [(.CFE_ASC_FAULT_first_code, 0), (.CFE_ASC_FAULT_first_queue, 0), (.CFE_ASC_FAULT_count, 0),
      (.CFE_ASC_FAULT_valid, 0)]).endPkt p 0
def execAscCreate (q : Fin 4096) (seq : Nat) (s : State) : Out :=
  .next (s.perform q.val seq (isOp 0x81) State.ascCreatePkt)

/-- ASC_DESTROY (R279, R313): it completes with the destruction. -/
def State.ascDestroyPkt (s : State) (p : Pkt) : State :=
  let a := p.b 9 1
  let st := s.fld .CFE_ASC_STATE_state a
  if p.pos = 1 then s
  else if st ≠ 1 ∨ a = 0 ∨ a = s.fld .CFE_Q_CFG_asc p.q then s.failPkt p fcAscState 0 []
  else (s.modPkt p.q p.seq (fun x => { x with pos := 1 })).ascDrain a
def execAscDestroy (q : Fin 4096) (seq : Nat) (s : State) : Out :=
  .next (s.perform q.val seq (isOp 0x82) State.ascDestroyPkt)

/-! ### Queues -/

/-- The queue that a packet names. -/
def Pkt.names (p : Pkt) : Nat := p.b 10 2

/-- R285, R287: a QUEUE_CTL action on another queue in a legal state. -/
def State.onQueue (s : State) (p : Pkt) (legal : Nat → Bool) (go : State → State) : State :=
  if p.names ≠ p.q ∧ legal (s.qState p.names) then go s else s.failPkt p fcQueueState 0 []

/-- Whether every write of a queue's completion area has been sent. -/
def State.areaIdle (s : State) (q : Nat) : Bool := !s.acks.any (fun a => a.q == q && !a.writes.isEmpty)

/-- QUEUE_CTL CREATE (R276, R279, R287, R300): it completes once the completion area is written. -/
def State.createPkt (s : State) (p : Pkt) : State :=
  let fin := fun (s : State) => if s.areaIdle p.names then s.endPkt p 0 else s
  if p.pos = 1 then fin (s.areaNext p.names)
  else s.onQueue p (· == qDisabled) (fun s =>
    s.onAsc p (fun s =>
      let c : QueueCfg :=
        { kernel := (p.b 12 1).testBit 0, ringHost := (p.b 12 1).testBit 1, size := p.b 13 1, asc := p.b 9 1
          prio := p.b 14 1, acct := p.b 24 2, base := p.b 16 8, cmpl := p.b 32 8 % 2 ^ 52
          cmplHost := (p.b 32 8).testBit 63, vector := if p.b 40 2 = 0xFFFF then none else some (p.b 40 2)
          budget := p.b 28 4 }
      fin ((s.createQueue p.names c).modPkt p.q p.seq (fun x => { x with pos := 1 }))))
def execQueueCreate (q : Fin 4096) (seq : Nat) (s : State) : Out :=
  .next (s.perform q.val seq (isAct 0x83 0) State.createPkt)

/-- R287: DESTROY and RESET drain the queue; the step completes when the queue leaves DRAINING. -/
def State.drainPkt (s : State) (p : Pkt) (d : Drain) : State :=
  if p.pos = 1 then s
  else
    s.onQueue p (fun _ => s.canDrain p.names) (fun s =>
      (s.modPkt p.q p.seq (fun x => { x with pos := 1 })).startDrain p.names d)
def execQueueDestroy (q : Fin 4096) (seq : Nat) (s : State) : Out :=
  .next (s.perform q.val seq (isAct 0x83 1) (fun s p => s.drainPkt p .destroy))
def execQueueReset (q : Fin 4096) (seq : Nat) (s : State) : Out :=
  .next (s.perform q.val seq (isAct 0x83 5) (fun s p => s.drainPkt p .reset))

/-- QUEUE_CTL STOP and START (R287). -/
def State.stopPkt (s : State) (p : Pkt) : State :=
  s.onQueue p (· == qActive) (fun s =>
    (s.setFlds p.names [(.CFE_Q_STATUS_state, qStopped), (.CFE_Q_STATUS_idle, 0)]).endPkt p 0)
def State.startPkt (s : State) (p : Pkt) : State :=
  s.onQueue p (· == qStopped) (fun s => (s.setFld .CFE_Q_STATUS_state p.names qActive).endPkt p 0)
def execQueueStop (q : Fin 4096) (seq : Nat) (s : State) : Out := .next (s.perform q.val seq (isAct 0x83 2) State.stopPkt)
def execQueueStart (q : Fin 4096) (seq : Nat) (s : State) : Out :=
  .next (s.perform q.val seq (isAct 0x83 3) State.startPkt)

/-- QUEUE_CTL RESUME (R287). -/
def State.resumePkt (s : State) (p : Pkt) : State :=
  s.onQueue p (· == qFaulted) (fun s => (s.resumeQueue p.names ((p.b 12 1).testBit 2)).endPkt p 0)
def execQueueResume (q : Fin 4096) (seq : Nat) (s : State) : Out :=
  .next (s.perform q.val seq (isAct 0x83 4) State.resumePkt)

/-- R285: an operation on a queue that is not DISABLED. -/
def State.onLive (s : State) (p : Pkt) (go : State → State) : State :=
  if s.qState p.names = qDisabled then s.failPkt p fcQueueState 0 [] else go s

/-- ACCT_SET ASSIGN (R317). -/
def State.assignPkt (s : State) (p : Pkt) : State :=
  s.onLive p (fun s => (s.setFld .CFE_Q_CFG_acct p.names (p.b 12 2)).endPkt p 0)
def execAssign (q : Fin 4096) (seq : Nat) (s : State) : Out := .next (s.perform q.val seq (isAct 0x84 0) State.assignPkt)

/-- R317: the eight meters of a tag at zero. -/
def State.clearTag (s : State) (t : Nat) : State :=
  s.setFlds t [(.CFE_ACCT_cell_ns, 0), (.CFE_ACCT_matrix_tokens, 0), (.CFE_ACCT_vector_ops, 0), (.CFE_ACCT_close_bytes, 0),
    (.CFE_ACCT_far_bytes, 0), (.CFE_ACCT_fabric_bytes, 0), (.CFE_ACCT_energy_mj, 0), (.CFE_ACCT_kernels, 0)]

/-- ACCT_SET CLEAR (R317). -/
def State.clearPkt (s : State) (p : Pkt) : State :=
  (s.each (List.range (p.b 14 2)) (fun s i => s.clearTag (p.b 12 2 + i))).endPkt p 0
def execClear (q : Fin 4096) (seq : Nat) (s : State) : Out := .next (s.perform q.val seq (isAct 0x84 1) State.clearPkt)

/-- PRIO_SET (R276). -/
def State.prioPkt (s : State) (p : Pkt) : State :=
  s.onLive p (fun s =>
    (s.setFlds p.names [(.CFE_Q_CFG_prio, p.b 12 1), (.CFE_Q_BUDGET_budget_ms, p.b 16 4)]).endPkt p 0)
def execPrioSet (q : Fin 4096) (seq : Nat) (s : State) : Out := .next (s.perform q.val seq (isOp 0x85) State.prioPkt)

/-! ### Pages, regions, registers -/

/-- PLACE_PIN (R255, R276). -/
def State.pinStart (s : State) (p : Pkt) : State :=
  if s.pinWait.contains (p.q, p.seq) then s.pinPkt p
  else
    let s := s.setPins (p.b 8 4) (p.b 12 4) (p.b 16 1) (p.b 17 1)
    ({ s with pinWait := s.pinWait ++ [(p.q, p.seq)] }).pinPkt p
def execPlacePin (q : Fin 4096) (seq : Nat) (s : State) : Out := .next (s.perform q.val seq (isOp 0x86) State.pinStart)

/-- R277: an action on a region on which no other is in progress. -/
def State.onRegion (s : State) (p : Pkt) (go : State → State) : State :=
  if s.pool.any (fun x => x.onRegion p.rgn && !(x.q == p.q && x.seq == p.seq)) then s.failPkt p fcRegionState 0 []
  else go s

/-- R277: a packet of a kind whose action on a region goes on by itself is carried on; any other is performed. -/
def State.regionCtl (s : State) (q seq act : Nat) (go : State → Pkt → State) : State :=
  let kind := isAct 0x87 act
  match s.pkt q seq with
  | none => s
  | some p =>
    if s.alive && kind p && p.midAction then go s p
    else s.perform q seq kind (fun s p => s.onRegion p (fun s => go s p))

/-- REGION_CTL (R277). -/
def execIsolate (q : Fin 4096) (seq : Nat) (s : State) : Out := .next (s.regionCtl q.val seq 0 State.ctlIsolate)
def execRegionReset (q : Fin 4096) (seq : Nat) (t : SelfTest) (s : State) : Out :=
  .next (s.regionCtl q.val seq 1 (fun s p => s.ctlReset p t))
def execSelftest (q : Fin 4096) (seq : Nat) (t : SelfTest) (s : State) : Out :=
  .next (s.regionCtl q.val seq 2 (fun s p => s.ctlReset p t))
def execQuarantine (q : Fin 4096) (seq : Nat) (s : State) : Out := .next (s.regionCtl q.val seq 3 State.ctlQuarantine)
def execRegionPowerDown (q : Fin 4096) (seq : Nat) (s : State) : Out := .next (s.regionCtl q.val seq 4 State.ctlDown)
def execRegionPowerUp (q : Fin 4096) (seq : Nat) (t : SelfTest) (s : State) : Out :=
  .next (s.regionCtl q.val seq 5 (fun s p => s.ctlUp p t))

/-- R443: the power cap set from a source, clamped to 2,100 W to 2,800 W. -/
def State.setCap (s : State) (w source : Nat) : State :=
  s.setFlds 0 [(.PWR_CAP_cap_w, max 2100 (min 2800 w)), (.PWR_CAP_source, source)]

/-- POWER_CAP (R443). -/
def State.capPkt (s : State) (p : Pkt) : State := (s.setCap (p.b 8 2) 2).endPkt p 0
def execPowerCap (q : Fin 4096) (seq : Nat) (s : State) : Out := .next (s.perform q.val seq (isOp 0x89) State.capPkt)

/-- FW_STAGE (R404 to R408): it waits for the host's lines, or for the acknowledgement of its relays. -/
def execFwStage (q : Fin 4096) (seq : Nat) (e : FlashEnv) (s : State) : Out :=
  .next (s.perform q.val seq (isOp 0x8A) (fun s p =>
    if s.sec.ends.any (fun x => x.2 == (p.q, p.seq)) then s else s.fwStage p e))

/-- FW_ACTIVATE (R410). -/
def execFwActivate (q : Fin 4096) (seq : Nat) (e : FlashEnv) (s : State) : Out :=
  .next (s.perform q.val seq (isOp 0x8B) (fun s p => s.fwActivate p e))

/-- REG_WRITE (R278): a write that R9 or R7 discards raises no fault; one that the register's state rule discards is
REGISTER_STATE. One of 8 bytes that falls on a 32-bit register, which R11 lets the host interface reject and record, is
discarded with no fault and no record (DESIGN CHOICE, log entry 51). -/
def State.regWritePkt (s : State) (p : Pkt) : State :=
  let off := p.b 8 4
  let w := p.b 12 1
  if badAccess off w then s.endPkt p 0
  else
    let r := s.write0 off (p.b 16 8 % 2 ^ (8 * w)) (p.b 24 8 % 2 ^ (8 * w)) true
    if r.2 then s.failPkt p fcRegisterState 0 [] else r.1.endPkt p 0
def execRegWrite (q : Fin 4096) (seq : Nat) (s : State) : Out := .next (s.perform q.val seq (isOp 0x8C) State.regWritePkt)

/-! ### Completion records on their way -/

/-- COMPLETION_RECORD_WRITE (R302). -/
def execCompletionRecordWrite (q : Fin 4096) (s : State) : Out := .next (if s.alive then s.recordOut q.val else s)

/-- RECORD_WRITE_ACK (R304, R306): the write of a queue's completion area that was sent acknowledged. -/
def execRecordWriteAck (q : Fin 4096) (s : State) : Out := .next (if s.alive then s.areaAcked q.val else s)

end Sys2Proof.Machine
end

