-- ==== Sys2Proof/Machine/DumpSync.lean ====
section
/-!
DEFINITION. The sync dump (R436): fences, queues, fence waiters and full/empty waiters, written without stopping the
device.
-/

namespace Sys2Proof.Machine

/-- The entry of a queue. -/
def State.dumpQueue (s : State) (q : Nat) : List Byte :=
  padTo 64 (natLe 8 (s.fld .CFE_Q_WPTR_wptr q) ++ natLe 8 (s.fld .CFE_Q_RPTR_rptr q)
    ++ natLe 8 (s.fld .CFE_Q_SEQ_fetched_seq q) ++ natLe 8 (s.fld .CFE_Q_DONE_done_seq q) ++ natLe 1 (s.qState q)
    ++ natLe 1 (s.fld .CFE_Q_CFG_asc q) ++ natLe 2 (s.fld .CFE_Q_STATUS_fault_code q) ++ natLe 2 (s.fld .CFE_Q_CFG_acct q)
    ++ natLe 2 (s.pool.countP (fun p => p.q == q)) ++ natLe 8 (s.fld .CFE_Q_FAULT_SEQ_seq q))

/-- The header. -/
def State.dumpHead (s : State) (start : Nat) : List Byte :=
  let h := padTo 252 (natLe 4 0x434E5953 ++ natLe 2 0x4812 ++ natLe 2 1 ++ natLe 2 (s.fld .FAB_ID_dev_id 0) ++ natLe 6 0
    ++ natLe 8 start ++ natLe 8 s.now ++ natLe 4 s.fenceWaiters.length ++ natLe 4 s.waiters.length)
  h ++ natLe 4 (crc32c h)

/-- R436: the sync dump of a step that started at a time. -/
def State.syncDump (s : State) (start : Nat) : List Byte :=
  s.dumpHead start ++ (List.range 4096).flatMap (fun f => natLe 8 (s.fld .CFE_FENCE_VALUE_value f))
    ++ (List.range 4096).flatMap s.dumpQueue ++ padTo 0x200000 (s.fenceWaiters.flatMap s.dumpFence)
    ++ padTo 0x240000 (s.waiters.flatMap s.dumpFe)

/-- The DUMP_SYNC steps under way other than one. -/
def State.otherDumps (s : State) (p : Pkt) : List Pkt :=
  s.pool.filter (fun x => x.opcode == 0x88 && x.st == .running && x.fault == 0 && !(x.q == p.q && x.seq == p.seq))

/-- DUMP_SYNC (R436): steps run one at a time in the order they start, which `pos` numbers. -/
def State.dumpPkt (s : State) (p : Pkt) : State :=
  let l := (s.otherDumps p).map (·.pos)
  let n := if p.pos = 0 then l.foldl max 0 + 1 else p.pos
  let s := s.modPkt p.q p.seq (fun x => { x with pos := n })
  if l.any (fun m => m != 0 && decide (m < n)) then s
  else (s.stepWrite p (p.b 8 8) (s.syncDump p.start) true).finish p
def execDumpSync (q : Fin 4096) (seq : Nat) (s : State) : Out := .next (s.perform q.val seq (isOp 0x88) State.dumpPkt)

end Sys2Proof.Machine
end

