-- ==== Sys2Proof/Machine/March.lean ====
section
/-!
DEFINITION. The March load (R385 to R391), the March report (R392), and its log in the boot flash (R393).
-/

namespace Sys2Proof.Machine

/-! ### The fields of the records (R388, R394) -/

/-- What a field entry sets: one register field in its instances, one word of a register, an isolation mark, a user
offset within a bound. -/
inductive MarchFld where
  | plain (f : Fld) (is : List Nat)
  | image (r : Reg) (i w : Nat)
  | isolate (c : Nat)
  | cal (key bound : Nat)

/-- The records whose fields each set one register field: `rtype`, `fid`, field. -/
def marchPlain : List (Nat × Nat × Fld) :=
  [(0x10, 1, .FAB_ID_dev_id), (0x10, 2, .FAB_CFG_hop_limit), (0x10, 3, .FAB_CFG_rtt_budget_us),
    (0x10, 4, .FAB_CFG_ethertype), (0x10, 5, .SEC_RELAY_relay_accept), (0x11, 1, .FAB_PORT_CFG_mode),
    (0x11, 2, .FAB_PORT_CFG_width), (0x11, 3, .FAB_PORT_CFG_ptp_en), (0x11, 4, .FAB_PORT_CFG_pfc_en),
    (0x11, 5, .FAB_PORT_CFG_pfc_prio), (0x11, 6, .FAB_PORT_CFG_jumbo), (0x11, 7, .FAB_PORT_CFG_rto_us),
    (0x11, 8, .FAB_PORT_CFG_asym_ns), (0x11, 9, .FAB_PORT_MAC_mac), (0x20, 1, .TIM_CFG_domain),
    (0x20, 2, .TIM_CFG_transport), (0x20, 3, .TIM_CFG_lock_thr_ns), (0x20, 4, .TIM_CFG_max_slew_ppm),
    (0x30, 1, .PWR_CAP_cap_w), (0x40, 1, .CFG_FAR_TIER_completion_timeout_ms), (0x40, 2, .CFG_FAR_TIER_hot_add),
    (0x40, 3, .CFG_START_far_port_en)] ++
  [(0x41, 1, .CFG_MEMORY_patrol_period_h), (0x41, 2, .CFG_MEMORY_crc_retry_limit), (0x41, 3, .CFG_MEMORY_refresh_hot_c),
    (0x41, 4, .RAS_SCD_STATUS_scrub_period_h), (0x41, 5, .CFG_TILE_CHECK_unchecked_action), (0x42, 1, .PLE_CTL_migrate_en),
    (0x42, 2, .PLE_CTL_mig_cap_gbps), (0x42, 3, .PLE_CTL_epoch_ms), (0x42, 4, .PLE_CTL_sample_shift),
    (0x42, 5, .PLE_SEASON_warm_thr), (0x42, 6, .PLE_SEASON_cool_thr), (0x42, 7, .PLE_SEASON_min_dwell),
    (0x42, 8, .PLE_SEASON_decay_shift), (0x42, 9, .PLE_WATER_low_water_pm), (0x42, 10, .PLE_WATER_high_water_pm),
    (0x42, 11, .PLE_WP_aff_weight)] ++
  [(0x50, 1, .CFE_SCHED_CFG_age_us), (0x50, 2, .CFE_SCHED_CFG_budget_default_ms), (0x50, 3, .CFG_FENCE_fence_wait_timeout_ms),
    (0x50, 4, .CFG_QUEUE_FAULTS_store_lost_stops), (0x50, 5, .CFG_SYNC_TIMEOUTS_fe_wait_timeout_ms),
    (0x50, 6, .CFG_SYNC_TIMEOUTS_dead_target_timeout_us), (0x51, 1, .CFG_HOST_hdm_size_gib), (0x51, 2, .CFG_HOST_hdm_dpn_base),
    (0x51, 3, .CFG_HOST_SUBSYS_subsys_vendor), (0x51, 4, .CFG_HOST_SUBSYS_subsys_id), (0x60, 1, .BLK_ABFT_CTL_mode),
    (0x60, 2, .BLK_ABFT_CTL_tol_shift), (0x60, 3, .CFG_START_watchdog_ms), (0x60, 4, .CFG_START_fabric_wait_ms)]

/-- The instances of a field that one field entry sets. -/
def marchInst (rt inst fid : Nat) : List Nat :=
  if rt = 0x11 then [inst]
  else if rt = 0x60 ∧ fid ≤ 2 then List.range 288
  else if rt = 0x41 ∧ fid = 4 then [0, 1]
  else [0]

/-- The current `rver` of a record type; none where it is unknown. -/
def marchVer (rt : Nat) : Option Nat :=
  if ([0x10, 0x11, 0x12, 0x30, 0x40, 0x41, 0x42, 0x50, 0x51, 0x60, 0x70] : List Nat).contains rt then some 1
  else if rt = 0x20 then some 2
  else none

/-- Bounds of the user offsets (R394). -/
def calBound : Nat → Nat
  | 1 => 10
  | 2 => 10
  | 3 => 24
  | 4 => 200
  | 5 => 20000
  | 6 => 20
  | 7 => 2
  | _ => 0

/-- The images of FABRIC_TABLES: how many indices a `fid` has, and what an index names. -/
def marchTable (fid idx : Nat) : Option (Bool × MarchFld) :=
  match fid with
  | 1 => some (decide (idx < 65536), .image .FAB_ROUTE idx 0)
  | 2 => some (decide (idx < 4096), .image .FAB_NBR idx 0)
  | 3 => some (decide (idx < 256), .image .FAB_EXPORT idx 0)
  | 4 => some (decide (idx < 256), .image .FAB_EXPORT idx 1)
  | 5 => some (decide (idx < 256), .image .FAB_CGRP idx 0)
  | 6 => some (decide (idx < 16384), .image .FAB_CGRP_MEMBERS (idx / 64) (idx % 64))
  | _ => none

/-- What a field entry names, and whether its `idx` is in range; none for an unknown `fid`. -/
def marchFld (rt inst fid idx : Nat) : Option (Bool × MarchFld) :=
  if rt = 0x12 then marchTable fid idx
  else if rt = 0x70 then
    (if fid = 0 ∨ fid > 7 then none else some (decide (idx < calCount fid), .cal (65536 * fid + idx) (calBound fid)))
  else if rt = 0x60 ∧ fid = 5 then
    some (decide (idx / 256 < 24) && decide (idx / 16 % 16 < 12) && decide (idx % 16 < 9),
      .isolate ((idx / 256 * 12 + idx / 16 % 16) * 9 + idx % 16))
  else
    (marchPlain.find? (fun e => e.1 == rt && e.2.1 == fid)).map
      (fun e => (decide (idx = 0), .plain e.2.2 (marchInst rt inst fid)))

/-! ### The report (R392) -/

/-- The reasons. -/
def mrClamped : Nat := 0x01
def mrDefaulted : Nat := 0x02
def mrReserved : Nat := 0x03
def mrDependent : Nat := 0x04
def mrUnknownField : Nat := 0x10
def mrDuplicate : Nat := 0x11
def mrIndex : Nat := 0x12
def mrRecordCrc : Nat := 0x20
def mrUnknownRecord : Nat := 0x21
def mrOld : Nat := 0x22
def mrNewer : Nat := 0x23
def mrNoImage : Nat := 0x30
def mrHeader : Nat := 0x31
def mrTruncated : Nat := 0x32
def mrIsolate : Nat := 0x33

/-- An entry of the report as its 32 bytes. -/
def marchEntry (rt inst reason fid idx given applied ordinal : Nat) : List Byte :=
  let l := natLe 2 rt ++ natLe 1 inst ++ natLe 1 reason ++ natLe 2 fid ++ natLe 2 idx ++ natLe 8 given ++ natLe 8 applied
    ++ natLe 4 ordinal
  l ++ natLe 4 (crc32c l)

/-- The load as it goes: the state, the entries made so far (newest first), the field entries already set with their
records' positions and the values the image gives, the records whose fields were checked, those ignored. -/
structure March where
  st      : State
  entries : List (List Byte)
  sets    : List ((Nat × Nat × Nat × Nat) × Nat × Nat)
  read    : Nat
  ignored : Nat

def March.note (m : March) (e : List Byte) : March := { m with entries := e :: m.entries }

/-! ### Fields -/

/-- The fields whose values are enumerated, with the highest defined value (R129, R344, R377). -/
def Fld.lastEnum : Fld → Option Nat
  | .FAB_PORT_CFG_mode => some 3
  | .FAB_PORT_CFG_width => some 2
  | .TIM_CFG_transport => some 2
  | .BLK_ABFT_CTL_mode => some 2
  | _ => none

/-- A plain field's value applied, with the reason of its correction: 0 for none. -/
def marchValue (f : Fld) (v : Nat) : Nat × Nat :=
  match f.lastEnum with
  | some n => if v > n then (if f = .TIM_CFG_transport then 2 else f.desc.reset, mrDefaulted) else (v, 0)
  | none =>
    let x := clampTo (f.range.getD (0, 2 ^ f.desc.width - 1)) v
    (x, if x = v then 0 else mrClamped)

/-- A signed value of 64 bits brought within bounds, with the reason of its correction. -/
def marchSigned (lo hi : Int) (v : Nat) : Int × Nat :=
  let x := sgn 64 v
  let y := max lo (min hi x)
  (y, if x = y then 0 else mrClamped)

/-- The bits of word `w` of a register that a field covers, and those that RWL fields cover. -/
def Reg.wordMask (r : Reg) (w : Nat) (rwl : Bool) : Nat :=
  (r.flds.map (fun f =>
    if !rwl || f.desc.acc == .RWL then (2 ^ f.desc.width - 1) * 2 ^ f.desc.lsb / 2 ^ (64 * w) % 2 ^ 64 else 0)).sum

/-- R388: an image that holds an undefined value. -/
def badImage (r : Reg) (w v : Nat) : Bool :=
  match r with
  | .FAB_ROUTE => decide (bits v 0 4 > 11) || decide (bits v 6 4 > 11)
  | .FAB_EXPORT => w == 0 && (decide (bits v 32 29 > 2 ^ 28) || (v.testBit 63 && bits v 32 29 == 0))
  | .FAB_CGRP => bits v 0 9 == 1 || decide (bits v 0 9 > 256)
  | _ => false

/-- One word of a register set by an image. -/
def State.putImage (s : State) (r : Reg) (i w v : Nat) : State :=
  s.each r.flds (fun s f =>
    if f.desc.acc != .RWL then s
    else
      let old := s.fld f i * 2 ^ f.desc.lsb
      let m := (2 ^ 64 - 1) * 2 ^ (64 * w)
      s.setFld f i (((old - (old &&& m)) + v * 2 ^ (64 * w)) / 2 ^ f.desc.lsb))

/-- A field entry that has passed the checks of `fid`, `idx` and repetition: what it sets, the value applied and the
reason of a correction. -/
def State.marchSet (s : State) (k : MarchFld) (v : Nat) : State × Nat × Nat :=
  match k with
  | .plain .FAB_PORT_CFG_asym_ns is =>
    let r := marchSigned (-32768) 32767 v
    (s.each is (fun s i => s.setFld .FAB_PORT_CFG_asym_ns i (lowBits 16 r.1)), lowBits 64 r.1, r.2)
  | .plain f is =>
    let r := marchValue f v
    let s := s.each is (fun s i => s.setFld f i r.1)
    (if f = .PWR_CAP_cap_w then s.setFld .PWR_CAP_source 0 1 else s, r.1, r.2)
  | .image r i w =>
    if badImage r w v then (s, 0, mrDefaulted)
    else
      let x := v &&& r.wordMask w false
      (s.putImage r i w (x &&& r.wordMask w true), x, if x = v then 0 else mrReserved)
  | .isolate c => if s.cellEnabled c then (s.markIsolate c, 1, if v = 1 then 0 else mrClamped) else (s, 0, mrIsolate)
  | .cal key b =>
    let r := marchSigned (-(b : Int)) b v
    ({ s with usercal := mapSet 0 s.usercal key r.1 }, lowBits 64 r.1, r.2)

/-- R389: one field entry of a record. -/
def March.field (m : March) (rt inst ord : Nat) (e : List Byte) : March :=
  let fid := leNat (e.take 2)
  let idx := leNat ((e.drop 2).take 2)
  let v := leNat ((e.drop 8).take 8)
  let note := fun (m : March) (why applied : Nat) => m.note (marchEntry rt inst why fid idx v applied ord)
  match marchFld rt inst fid idx with
  | none => note m mrUnknownField 0
  | some (ok, k) =>
    if !ok then note m mrIndex 0
    else if m.sets.any (fun x => x.1 == (rt, inst, fid, idx)) then note m mrDuplicate 0
    else
      let r := m.st.marchSet k v
      let m := { m with st := r.1, sets := ((rt, inst, fid, idx), ord, v) :: m.sets }
      if r.2.2 = 0 then m else note m r.2.2 r.2.1

/-! ### Records -/

/-- R386, R387, R389: one record, its bytes found within `length`. The zero bytes of its field entries are checked with
the record's (DEDUCED, log entry 33). -/
def March.record (m : March) (ord : Nat) (b : List Byte) : March :=
  let rt := leNat (b.take 2)
  let rver := leNat ((b.drop 2).take 1)
  let inst := leNat ((b.drop 3).take 1)
  let rlen := leNat ((b.drop 4).take 2)
  let bad := fun (why given applied : Nat) =>
    let m := m.note (marchEntry rt inst why 0xFFFF 0xFFFF given applied ord)
    { m with ignored := m.ignored + 1 }
  if rlen % 16 ≠ 0 ∨ leNat ((b.drop 6).take 2) ≠ 0 ∨ leNat ((b.drop (8 + rlen)).take 4) ≠ crc32c (b.take (8 + rlen))
      ∨ leNat ((b.drop (12 + rlen)).take 4) ≠ 0
      ∨ (List.range (rlen / 16)).any (fun i => leNat ((b.drop (12 + 16 * i)).take 4) != 0) then bad mrRecordCrc 0 0
  else
    match marchVer rt with
    | none => bad mrUnknownRecord 0 0
    | some cur =>
      if rver < cur then bad mrOld rver cur
      else if rver > cur then bad mrNewer rver cur
      else if inst ≥ (if rt = 0x11 then 12 else 1) then bad mrIndex 0 0
      else
        let es := (List.range (rlen / 16)).map (fun i => (b.drop (8 + 16 * i)).take 16)
        let m := es.foldl (fun m e => m.field rt inst ord e) m
        { m with read := m.read + 1 }

/-- R389: the records from byte `off` of an image on, `left` of them still to come. -/
def March.records : Nat → March → Nat → Nat → List Byte → March
  | 0, m, _, _, _ => m
  | left + 1, m, ord, off, img =>
    let rlen := leNat ((img.drop (off + 4)).take 2)
    if off + 8 > img.length ∨ off + 16 + rlen > img.length then
      let here := decide (off + 8 ≤ img.length)
      let rt := if here then leNat ((img.drop off).take 2) else 0xFFFF
      let inst := if here then leNat ((img.drop (off + 3)).take 1) else 0
      let m := m.note (marchEntry rt inst mrTruncated 0xFFFF 0xFFFF 0 0 ord)
      { m with ignored := m.ignored + (left + 1) }
    else March.records left (m.record ord ((img.drop off).take (16 + rlen))) (ord + 1) (off + 16 + rlen) img

/-! ### The dependency pass (R390) -/

/-- The fields of the dependency pass in its order, with the record and field numbers they have. -/
def marchLinks : List (Fld × Nat × Nat) :=
  [(.PLE_SEASON_cool_thr, 0x42, 6), (.PLE_WATER_high_water_pm, 0x42, 10), (.CFG_HOST_hdm_size_gib, 0x51, 1),
    (.CFG_HOST_hdm_dpn_base, 0x51, 2), (.FAB_CFG_rtt_budget_us, 0x10, 3), (.FAB_ID_dev_id, 0x10, 1)]

/-- What the dependency pass makes of a field. -/
def State.linkOf (s : State) (f : Fld) : Nat :=
  match s.linked.find? (fun e => decide (e.1 = f)) with
  | some e => e.2
  | none => f.fix (s.fld f 0)

/-- One field of the dependency pass. Its entry gives the value in the image, or what the field held where the image does
not set it (DEDUCED, log entry 33). -/
def March.link (m : March) (e : Fld × Nat × Nat) : March :=
  let old := m.st.fld e.1 0
  let new := m.st.linkOf e.1
  if new = old then m
  else
    let given := ((m.sets.find? (fun x => x.1 == (e.2.1, 0, e.2.2, 0))).map (·.2)).getD (0xFFFFFFFF, old)
    ({ m with st := m.st.setFld e.1 0 new }).note (marchEntry e.2.1 0 mrDependent e.2.2 0 given.2 new given.1)

/-! ### The whole image -/

/-- R385: whether an image header keeps its rules. -/
def imageOk (h : List Byte) (size : Nat) : Bool :=
  let num := fun o n => leNat ((h.drop o).take n)
  num 0 4 == 0x4643594B && num 4 2 == 0x4812 && num 6 2 == 1 && decide (num 8 4 ≤ size) && decide (num 8 4 ≥ 64)
    && ((h.drop 24).take 36).all (· == 0) && num 60 4 == crc32c (h.take 60)

/-- An entry that concerns the whole image. -/
def imageEntry (why : Nat) : List Byte := marchEntry 0xFFFF 0 why 0xFFFF 0xFFFF 0 0 0xFFFFFFFF

/-- R385 to R390: the image read and applied; Limhel keeps the digest of the image as read (R339). -/
def State.marchImage (s : State) : March :=
  let m : March := ⟨s, [], [], 0, 0⟩
  match s.partition 0x10 with
  | none => m.note (imageEntry mrNoImage)
  | some (off, size) =>
    let h := s.flashBytes off 64
    if h.all (· == 0xFF) then m.note (imageEntry mrNoImage)
    else if !imageOk h size then ({ m with st := { s with sec := { s.sec with image := sha512 h } } }).note (imageEntry mrHeader)
    else
      let img := s.flashBytes off (leNat ((h.drop 8).take 4))
      let s := (s.setFld .CFG_MARCH_STATUS_image_used 0 1).setFld .CFG_MARCH_IMAGE_image_seq 0 (leNat ((h.drop 16).take 8))
      let s : State := { s with sec := { s.sec with image := sha512 img } }
      let m := March.records (leNat ((h.drop 12).take 4)) { m with st := s } 0 64 img
      marchLinks.foldl March.link m

/-! ### The log (R393) -/

/-- Whether a complete log block begins where `p` does, `left` bytes before the end of the partition: its `boot_count`
and its length. -/
def logBlock (p : List Byte) (left : Nat) : Option (Nat × Nat) :=
  let h := p.take 64
  let count := leNat ((h.drop 16).take 4)
  if leNat (h.take 4) = 0x474F4C4D ∧ (h.drop 20).all (· == 0) ∧ 64 + 32 * count ≤ left ∧ count ≤ 4096 then
    some (leNat ((h.drop 4).take 4), 64 + 32 * count)
  else none

/-- The last complete block from an offset of the log on: its `boot_count` and where it ends, or what is given. -/
def lastBlock : Nat → List Byte → Nat → Nat → Nat × Nat → Nat × Nat
  | 0, _, _, _, a => a
  | n + 1, p, off, size, a =>
    lastBlock n (p.drop 32) (off + 32) size
      (match logBlock p (size - off) with
        | some (c, len) => if c > a.1 then (c, off + len) else a
        | none => a)

/-- The erase unit by which the log is erased. DESIGN CHOICE, log entry 33. -/
def logUnit : Nat := 4096

/-- R393: one block appended to the log. -/
def State.marchLog (s : State) (entries : List (List Byte)) (ok : Bool) : State :=
  match s.partition 0x11 with
  | none => s
  | some (base, size) =>
    if !ok then s.setFld .CFG_MARCH_STATUS_log_failed 0 1
    else
      let es := entries.take 4096
      let last := lastBlock (size / 32) (s.flashBytes base size) 0 size (0, 0)
      let need := 64 + 32 * es.length
      let blk := natLe 4 0x474F4C4D ++ natLe 4 (last.1 + 1) ++ natLe 8 (s.fld .CFG_MARCH_IMAGE_image_seq 0)
        ++ natLe 4 es.length ++ List.replicate 44 0 ++ es.flatten
      let erased := fun (a n : Nat) => (mapRange s.flash (base + a) (base + a + n)).isEmpty
      let cut := ceilDiv last.2 logUnit * logUnit
      let pos := if erased last.2 (min need (cut - last.2)) then last.2 else cut
      let pos := if pos + need > size then 0 else pos
      let from_ := if pos = 0 then 0 else ceilDiv pos logUnit * logUnit
      let upto := ceilDiv (pos + need) logUnit * logUnit
      let s := if erased pos need then s else s.eraseFlash (base + from_) (upto - from_)
      s.program (base + pos) blk

/-- R385 to R393: the March load. -/
def State.marchLoad (s : State) (logOk : Bool) : State :=
  let m := s.marchImage
  let es := m.entries.reverse
  let s := m.st.each (es.take 256).zipIdx (fun s e => s.setFld .CFG_MARCH_ENTRY_entry e.2 (leNat e.1))
  let s := s.setFlds 0 [(.CFG_MARCH_STATUS_entries, min es.length 0xFFFF), (.CFG_MARCH_STATUS_records_read, min m.read 0xFFFF),
    (.CFG_MARCH_STATUS_records_ignored, min m.ignored 0xFFFF)]
  (s.marchLog es logOk).setFld .CFG_MARCH_STATUS_done 0 1

end Sys2Proof.Machine
end

