-- ==== Sys2Proof/Machine/Start.lean ====
section
/-!
DEFINITION. Chip reset and start-up (R378 to R382, R403, R414), the mailbox's RESTART (R416), and the swap of firmware
(R410 steps 4 to 9, R411, R412). Start-up is one command with what it meets: DESIGN CHOICE, log entry 34.
-/

namespace Sys2Proof.Machine

/-! ### Start-up -/

/-- `boot_state` set, with `ready` following it. -/
def State.phase (s : State) (v : Nat) : State := s.setBoot v

/-- R414, R415: January mode. -/
def State.enterJanuary (s : State) (cause : Nat) : State :=
  let s : State := { s with hif := { s.hif with crs := false } }
  let s : State := { s.setFlds 0 [(.SEC_JAN_cause, cause), (.SEC_FW_STATE_running_slot, 3)] with retrain := [] }
  (s.each (List.range 12) (fun s p => s.setFlds p [(.FAB_PORT_CFG_mode, 1), (.FAB_PORT_STATUS_state, portTraining)])).setBoot
    9

/-- Step 2 of R379: the fuses and the flash; the cause of January mode, if there is one (R383, R384, R414). -/
def State.romCause (s : State) (e : StartEnv) : Option Nat :=
  if s.flashDev.isNone then some 1
  else if s.directory = none then some 2
  else if s.flag .SEC_FW_STATE_january_next 0 then some 5
  else if !e.recoveryN then some 6
  else none

/-- A set that starts (R403). -/
def State.runSet (s : State) (slot : Nat) (first : Bool) : State :=
  let m := s.manifest slot
  ({ s with sec := { s.sec with running := m } }).setFlds 0
    [(.SEC_FW_RUN_version, s.setVersion slot), (.SEC_FW_STATE_running_slot, slot), (.SEC_FW_STATE_fallback, b2n (!first))]

/-- Step 5 of R379 for one region (R23, R25, R201, R423). -/
def State.firstReset (s : State) (r : Nat) (t : SelfTest) : State :=
  let s := (s.setFlds r [(.REG_STATUS_state, rgnResetting), (.REG_SPEED_vcore_mv, 750)]).bumpEpoch (unitRgn r)
  s.rebuildRegion r t true

/-- The self-test of a region that start-up meets. -/
def selfTestOf (e : StartEnv) (r : Nat) : SelfTest :=
  ((e.tests.find? (fun x => x.1.val == r)).map (·.2)).getD ⟨[], []⟩

/-- Step 5 of R379. -/
def State.startTest (s : State) (e : StartEnv) : State :=
  let s := s.phase 4
  match firstBelow 2 (fun j => e.scdOk.getD j true == false) with
  | some j => (s.setFld .RAS_SCD_STATUS_selftest_failed j 1).fatalStop 0x0102 (28 + j)
  | none =>
    let s := ({ s with normScd := true } : State).each (List.range 24) (fun s r => s.firstReset r (selfTestOf e r))
    if (List.range 24).any s.rgnUp then s else s.fatalStop 0x0103 39

/-- R216, R220, R238: the sites of a MID in service, its slice of the location table and the dump region placed. -/
def State.startMid (s : State) (k : Nat) : State :=
  match (List.range 3).filter (fun j => s.locUp (3 * k + j)) with
  | [] => s
  | a :: t =>
    ({ s with slices := mapIns s.slices k (some (3 * k + a), t.head?.map (3 * k + ·)) }).setFld .MEM_SITE_STATUS_dump_region
      (3 * k + a) 1

/-- Step 6 of R379 (R220, R238, R381, R382). -/
def State.startMem (s : State) (e : StartEnv) : State :=
  let s := s.phase 5
  let s := s.each (List.range 12) (fun s i =>
    if e.badSites.any (fun x => x.val == i) then (s.bumpEpoch (unitSite i)).setFld .MEM_SITE_STATUS_state i siteFailed
    else s.setFlds i [(.MEM_SITE_STATUS_state, siteOnline), (.MEM_SITE_STATUS_chan_ok, 15)])
  let s := s.each (List.range 4) State.startMid
  match firstBelow 4 (fun k => (List.range 3).all (fun j => !s.locUp (3 * k + j))) with
  | some k => s.fatalStop 0x0104 (24 + k)
  | none => if e.initOk then s else s.fatalStop 0x0105 24

/-- Step 7 of R379: the enabled far-tier ports. -/
def State.startFar (s : State) (e : StartEnv) : State :=
  (s.phase 6).each (List.range 4) (fun s p =>
    if !bitOf (s.fld .CFG_START_far_port_en 0) p then s
    else
      match e.ports.find? (fun x => x.1.val == p) with
      | some x => s.enumerate p x.2
      | none => s.setFld .FTP_STATUS_state p 1)

/-- Step 8 of R379: the Silit ports that are not OFF; the probes of R355 start once they are done. -/
def State.startFabric (s : State) (e : StartEnv) : State :=
  let s := (s.phase 7).each (List.range 12) (fun s p =>
    if s.fld .FAB_PORT_CFG_mode p = modeOff then s
    else
      match e.silit.find? (fun x => x.1.val == p) with
      | some x => s.portResult p x.2
      | none =>
        let s : State := { s with trainAt := mapIns s.trainAt p s.now }
        s.setFld .FAB_PORT_STATUS_state p portTraining)
  s.each (List.range 12) State.probeVia

/-- A step of start-up, unless an earlier one has stopped it. -/
def State.next (s : State) (f : State → State) : State := if s.alive then f s else s

/-- R396: CFG_START as it was written for this start; its March load has gone before. -/
def State.startSet (s : State) : State :=
  let s := match s.later.1 with | some v => s.setFld .CFG_START_far_port_en 0 v | none => s
  let s := match s.later.2 with | some v => s.setFld .CFG_START_fabric_wait_ms 0 v | none => s
  { s with later := (none, none) }

/-- Steps 4 to 9 of R379. -/
def State.startRest (s : State) (e : StartEnv) : State :=
  let s := ((s.phase 3).marchLoad e.logOk).startSet
  let s : State := { s with hif := { s.hif with crs := false } }
  let s := (((s.startTest e).next (·.startMem e)).next (·.startFar e)).next (·.startFabric e)
  s.next (·.phase 8)

/-- R379: start-up from step 1, with the region rails at 0.75 V (R440). The strap and `january_next` are read, and the
latter is spent; the flash is discovered (R383). -/
def State.startUp (s : State) (e : StartEnv) : State :=
  let s : State := { s with
    pwr := { s.pwr with recovery := e.recoveryN }
    flashDev := e.flash.bind (fun d => if flashMeets d then some d else none) }
  let s := s.each (List.range 24) (fun s r => s.setFld .REG_SPEED_vcore_mv r 750)
  let cause := s.romCause e
  let s := (s.setFld .SEC_FW_STATE_january_next 0 0).phase 1
  if !e.fuseOk then s.fatalStop 0x0101 39
  else
    match cause with
    | some c => s.enterJanuary c
    | none =>
      let s := s.phase 2
      match s.chooseSet e.starts with
      | .error c => s.enterJanuary c
      | .ok (slot, first) => (s.runSet slot first).startRest e

/-- CHIP_RESET_RELEASE (R378, R379): PWRGOOD and PERST# both released, or the chip reset of a RESTART ends. -/
def execChipResetRelease (e : StartEnv) (s : State) : Out :=
  .next (
    if s.pwr.regsOff || (s.pwr.pwrgood && !s.pwr.perst && s.fld .HIF_PROMPT_STATE_boot_state 0 != 0) then s
    else
      let s := s.chipReset
      ({ s with pwr := { s.pwr with pwrgood := true, perst := false } }).startUp e)

/-- R378, R451: chip reset by PERST#; during an orderly power-down only once PWROFF_RDY is high. -/
def State.perstNow (s : State) : State :=
  let s := s.chipReset
  { s with pwr := { s.pwr with perst := true } }
def execPerstAssert (s : State) : Out :=
  .next (
    if !s.pwr.pwrgood || s.pwr.perst then s
    else if s.pwr.offReq && !s.pwr.offRdy then { s with pwr := { s.pwr with perstWait := true } }
    else s.perstNow)

/-- PWRGOOD_FALL (R378, R439). -/
def execPwrgoodFall (s : State) : Out := .next (if s.pwr.pwrgood then s.powerLoss else s)

/-- RESTART (R416, R417): a chip reset in January mode; otherwise refused with STATE. -/
def execRestart (e : StartEnv) (s : State) : Out :=
  .next (
    if !s.mbxUp then s
    else if s.january then s.chipReset.startUp e
    else s.mbx 7 0 (fun s => (s, 7)))

/-! ### The swap of firmware -/

/-- The Silit ports that are not OFF. -/
def State.portsOn (s : State) : List Nat := (List.range 12).filter (fun p => s.fld .FAB_PORT_CFG_mode p != modeOff)

/-- ARMED_INSTANT (R410 steps 4 to 7). -/
def execArmedInstant (s : State) : Out :=
  .next (
    if !s.ready || s.stage != stArmed || decide (s.now < s.fld .SEC_FW_ARM_at_ns 0) then s
    else
      let s := s.setFld .SEC_FW_STATE_stage_state 0 stActivating
      let s : State := { s with hif := { s.hif with rst := .swap }, sec := { s.sec with swapAt := s.now } }
      ((s.setBoot 0xB).endWork).each s.portsOn State.portReset)

/-- R410 step 9: the ports that are not powered down retrain, READY; a host-side reset that has come besides goes on to
its own end. -/
def State.swapEnd (s : State) : State :=
  let ps := s.portsOn.filter (fun p => !s.siliOff.contains p)
  let s := s.each ps (fun s p => s.setFld .FAB_PORT_STATUS_state p portTraining)
  let s : State := { s with trainAt := ps.foldl (fun m p => mapIns m p s.now) s.trainAt }
  if s.hif.rst = .swap then ({ s with hif := { s.hif with rst := .none } }).setBoot 8 else s.resetCheck

/-- R412: the fuses blown at a seal. -/
def State.blowFuses (s : State) (m : List Byte) : State :=
  if mnum m 0xE 2 % 2 = 0 then s
  else { s with fuses := { s.fuses with svn := max s.fuses.svn (mnum m 0x18 4), revoked := s.fuses.revoked ||| mnum m 0x1C 2 } }

/-- Whether a swap is under way (R410 steps 5 to 8). -/
def State.swapping (s : State) : Bool := s.alive && s.stage == stActivating && s.hif.rst != .none

/-- R411: the dies swap back. -/
def State.swapBack (s : State) : State :=
  (s.setFlds 0 [(.SEC_FW_STATE_last_result, 2), (.SEC_FW_STATE_stage_state, stStaged)]).swapEnd

/-- Whether the bound of R410 step 8 is over. -/
def State.swapLate (s : State) : Bool := decide (s.now ≥ s.sec.swapAt + 2000000000)

/-- DIES_STARTED (R410 steps 8 and 9, R412, R413): nothing before the work of step 5 has ended; after the bound of step 8
the dies have swapped back. -/
def execDiesStarted (s : State) : Out :=
  .next (
    if !s.swapping then s
    else if s.swapLate then s.swapBack
    else if !s.drained then s
    else
      let slot := s.sec.slot
      let m := s.manifest slot
      let seq := (s.sealSeq (s.fld .SEC_FW_STATE_running_slot 0)).getD 0 + 1
      let s := (s.writeSeal slot seq).blowFuses m
      let s := s.setFlds 0 [(.SEC_FW_STATE_last_result, if s.sec.late then 3 else 1), (.SEC_FW_RUN_version, mnum m 0x10 8),
        (.SEC_FW_STATE_running_slot, slot)]
      ({ s with sec := { s.sec with running := m, late := false } }).unstaged.swapEnd)

/-- DIE_START_TIMEOUT (R411). -/
def execDieStartTimeout (s : State) : Out :=
  .next (
    if !s.swapping || !s.swapLate then s else s.swapBack)

end Sys2Proof.Machine
end

