-- ==== Sys2Proof/Machine/Power.lean ====
section
/-!
DEFINITION. The power manager: measurement, power cap and rails (R442 to R446), thermal actions (R447, R448), energy
(R315), the sample ring (R461), the heartbeat (R328) and orderly power-down (R450, R451). Log entry 39.
-/

namespace Sys2Proof.Machine

/-! ### The power manager -/

/-- R453: whether the power manager's firmware runs: from its start on, not in January mode and not after FW_FAULT. -/
def State.pmRuns (s : State) : Bool :=
  s.pwr.pwrgood && !s.pwr.regsOff && s.pmStarted && s.fld .RAS_FATAL_fatal_code 0 != 0x0207

/-- R379: whether the region rails are the power manager's to move: once READY has been reached. -/
def State.railsFree (s : State) : Bool :=
  let b := s.fld .HIF_PROMPT_STATE_boot_state 0
  s.pmRuns && (b == 8 || b == 0xB || (b == 0xA && decide (s.fld .RAS_FATAL_fatal_code 0 ≥ 0x200)))

/-- R395: the bounds of a region's setpoint in mV: 700 and 850 once its rail's trim is added. -/
def State.railFloor (s : State) (r : Nat) : Nat := (700 - s.calOf 1 r).toNat
def State.railCeil (s : State) (r : Nat) : Nat := (850 - s.calOf 1 r).toNat

/-- A region's setpoint; a move begins the time of R448 afresh. -/
def State.setRail (s : State) (r mv : Nat) : State :=
  if s.fld .REG_SPEED_vcore_mv r = mv then s
  else { s.setFld .REG_SPEED_vcore_mv r mv with pwr := { s.pwr with off50 := mapSet 0 s.pwr.off50 r 0 } }

/-- R444: a region's rail, if it is on, moved down by a number of mV, to 700 at least. -/
def State.lowerRail (s : State) (r mv : Nat) : State :=
  let v := s.fld .REG_SPEED_vcore_mv r
  s.setRail r (max (min v (s.railFloor r)) (v - mv))

/-- R443 to R448: the rail of an ONLINE region moved down. -/
def State.lower (s : State) (r mv : Nat) : State := if s.rgnUp r then s.lowerRail r mv else s

/-- R444: a region's rail, if it is on, raised by 5 mV, to 850 at most, unless its temperature keeps it down (R448). -/
def State.raise (s : State) (r : Nat) : State :=
  let v := s.fld .REG_SPEED_vcore_mv r
  if v ≠ 0 ∧ mapGet 0 s.pwr.therm r = 0 then s.setRail r (max v (min (s.railCeil r) (v + 5))) else s

/-- PWR_STATUS `state`: BRAKE before THERMAL before CAPPED; CAPPED from a mean above the cap until one below the cap less
2 %; an entry to any of the three counts (log entry 39). -/
def State.pwrState (s : State) (hi under : Bool) : State :=
  let old := s.fld .PWR_STATUS_state 0
  let new := if s.pwr.brake then 3 else if !s.pwr.therm.isEmpty then 2 else if hi || (old == 1 && !under) then 1 else 0
  let s := s.setFld .PWR_STATUS_state 0 new
  if new ≠ 0 ∧ new ≠ old then s.satFld .PWR_STATUS_throttle_events 0 1 else s

/-- R448: a POWER_THERMAL stop with its cause; by temperature (causes 1 and 2) the region rails are switched off. -/
def State.thermalStop (s : State) (cause : Nat) : State :=
  if s.fld .HIF_PROMPT_STATE_boot_state 0 = 0xA then s
  else
    let s := (s.setFld .PWR_STATUS_trip_cause 0 cause).fatalStop 0x0208 39
    if cause ≤ 2 then (s.each (List.range 24) (fun s r => s.setRail r 0)).pldmEvent 0x82 else s

/-- Since when (time plus one) each of a list of units has met a condition. -/
def since (now : Nat) (m : NMap Nat) (on : Nat → Bool) (l : List Nat) : NMap Nat :=
  l.foldl (fun m n => if on n then mapSet 0 m n (if mapGet 0 m n = 0 then now + 1 else mapGet 0 m n) else mapSet 0 m n 0) m

/-- Whether something has met its condition for a time. -/
def lasts (now ns : Nat) (m : NMap Nat) : Bool := m.any (fun e => decide (now + 1 ≥ e.2 + ns))

/-- R442: the measurements of all rails shown, the current corrected by the rail's gain in 0.01 % (R394, R395). -/
def State.measured (s : State) (m : RailSample) : State :=
  s.each m.rails (fun s x => s.setFlds x.1.val
    [(.PWR_RAIL_mv, x.2.1), (.PWR_RAIL_ma, ((x.2.2 : Int) * (10000 + s.calOf 4 x.1.val) / 10000).toNat)])

/-- The power of a rail in µW. -/
def State.railUw (s : State) (n : Nat) : Nat := s.fld .PWR_RAIL_mv n * s.fld .PWR_RAIL_ma n

/-- R442: package power in mW: rails 40 to 43. -/
def State.packageMw (s : State) : Nat := ((List.range 4).map (fun i => s.railUw (40 + i))).sum / 1000

/-- R315, R442: the rail whose energy is a unit's (regions 0 to 23, sites 24 to 35, fabric dies 36 to 41, FTA 42, FTB
43). -/
def unitRail (u : Nat) : Nat :=
  if u < 24 then u else if u < 36 then 20 + u else if u < 42 then u - 6 else u - 5

/-- R315, R442: 10 µs of every unit's power joins its energy, in units of 10 pJ. -/
def State.metered (s : State) : State :=
  let pj := (List.range 44).foldl (fun m u => mapSet 0 m u (mapGet 0 m u + s.railUw (unitRail u))) s.pwr.unitPj
  { s with pwr := { s.pwr with unitPj := pj } }

/-- R444: the new sample joins the last 100; the mean and the energy (10 µs of it) show. -/
def State.averaged (s : State) : State :=
  let p := s.packageMw
  let l := (p :: s.pwr.avg).take 100
  let s : State := { s with pwr := { s.pwr with avg := l, energy := s.pwr.energy + p } }
  s.setFld .PWR_STATUS_power_w 0 (min 65535 (l.sum / l.length / 1000))

/-- R444, R446: what the rails do at a tick, where the mean is above the cap or below the cap less 2 %. -/
def State.railTick (s : State) (hi under surge : Bool) : State :=
  let rs := List.range 24
  let s := if surge then s.each rs (fun s r => s.lowerRail r 25) else s
  if s.pwr.brake then s.each rs (fun s r => s.lower r 150)
  else if hi then ({ s with pwr := { s.pwr with slow := 0 } }).each rs (fun s r => s.lower r 5)
  else if under then
    if s.pwr.slow + 1 ≥ 10 then ({ s with pwr := { s.pwr with slow := 0 } }).each rs State.raise
    else { s with pwr := { s.pwr with slow := s.pwr.slow + 1 } }
  else { s with pwr := { s.pwr with slow := 0 } }

/-- R448: how long each measured region rail has been more than 50 mV from its setpoint, and VIN12 below 11.0 V. -/
def State.watchRails (s : State) (m : RailSample) : State :=
  let off := fun (r : Nat) =>
    let mv := s.fld .PWR_RAIL_mv r
    let v := s.fld .REG_SPEED_vcore_mv r
    v != 0 && (decide (mv > v + 50) || decide (mv + 50 < v))
  let l := m.rails.map (fun x => x.1.val)
  let vin := if !l.contains 40 then s.pwr.vinLow else if s.fld .PWR_RAIL_mv 40 ≥ 11000 then 0
    else if s.pwr.vinLow = 0 then s.now + 1 else s.pwr.vinLow
  { s with pwr := { s.pwr with off50 := since s.now s.pwr.off50 off (l.filter (fun r => decide (r < 24))), vinLow := vin } }

/-- R448: a regulator off its setpoint for 10 µs or over its current, or VIN12 low for 100 µs: the stop. -/
def State.railFaults (s : State) (m : RailSample) : State :=
  if m.regFault || lasts s.now 10000 s.pwr.off50 then s.thermalStop 3
  else if m.vin12Low || (s.pwr.vinLow != 0 && decide (s.now + 1 ≥ s.pwr.vinLow + 100000)) then s.thermalStop 4
  else s

/-- R438, R439: VDDQ, V1P2 or V1P8 measured below its tolerance; VIN12 falls under R448 (log entry 39). -/
def railLost (m : RailSample) : Bool :=
  m.rails.any (fun x =>
    decide (x.2.1 < (if x.1.val = 41 ∨ x.1.val = 42 then 1164 else if x.1.val = 43 then 1710 else 0)))

/-- POWER_MANAGER_TICK (R439, R442, R444, R446, R448). -/
def execPowerManagerTick (m : RailSample) (s : State) : Out :=
  .next (
    if !s.pwr.pwrgood then s
    else if railLost m then s.powerLoss
    else if !s.pmRuns then s
    else
      let s := ((s.measured m).averaged.metered).watchRails m
      let n := s.pwr.avg.length
      let cap := s.fld .PWR_CAP_cap_w 0 * 1000 * n
      let hi := decide (s.pwr.avg.sum > cap)
      let under := decide (s.pwr.avg.sum * 100 < cap * 98)
      let s := if s.railsFree then s.railTick hi under (decide (s.fld .PWR_RAIL_ma 40 > 235000)) else s
      (s.pwrState hi under).railFaults m)

/-! ### Brake -/

/-- PWR_BRAKE_ASSERT, PWR_BRAKE_RELEASE (R446). -/
def execPwrBrakeAssert (s : State) : Out :=
  let s : State := { s with pwr := { s.pwr with brake := true } }
  .next (
    if s.pmRuns then
      (if s.railsFree then s.each (List.range 24) (fun s r => s.lower r 150) else s).pwrState false false
    else s)
def execPwrBrakeRelease (s : State) : Out :=
  let s : State := { s with pwr := { s.pwr with brake := false } }
  .next (if s.pmRuns then s.pwrState false false else s)

/-! ### Temperatures -/

/-- The temperature of a sensor in 0.125 °C. -/
def State.sensor (s : State) (n : Nat) : Int := sgn 16 (s.fld .PWR_TEMP_temp n)
def State.sensed (s : State) (n : Nat) : Bool := s.flag .PWR_TEMP_valid n

/-- One sensor read, its offset applied (R394, R395); a crossing of `tj_target_c` or of 105 °C is an event (R448, R452).
-/
def State.sense (s : State) (n : Nat) (raw : Int) : State :=
  let t := raw + s.calOf 3 n
  let was := s.sensed n
  let old := s.sensor n
  let s := s.setFlds n [(.PWR_TEMP_temp, lowBits 16 t), (.PWR_TEMP_valid, 1)]
  let tgt : Int := (s.fld .PWR_THERM_CFG_tj_target_c 0 : Int) * 8
  let up := fun (x : Int) => decide (t > x) && !(was && decide (old > x))
  if up tgt || up 840 then s.pldmEvent 2 else s

/-- R447: the highest of the sensors read. -/
def State.tjNow (s : State) : Int :=
  (((List.range 128).filter s.sensed).map s.sensor).foldl (fun a t => max a t) 0

/-- R330: the maxima of the samples of the last 1 ms, a new one among them. -/
def State.keepMax (s : State) : State :=
  let l := s.pwr.maxima.filter (fun x => decide (s.now < x.1 + 1000000))
  { s with pwr := { s.pwr with maxima := (s.now, s.tjNow) :: l } }

/-- R330, R452: `tj_max_c` in 0.125 °C: the highest of the last 1 ms. -/
def State.tjMax (s : State) : Int := (s.pwr.maxima.map (·.2)).foldl (fun a t => max a t) 0

/-- R448: a region throttled by its temperature: from a sensor above the target until all four are 3 °C below it. -/
def State.regionTherm (s : State) (r : Nat) : State :=
  let tgt : Int := (s.fld .PWR_THERM_CFG_tj_target_c 0 : Int) * 8
  let ts := ((List.range 4).map (4 * r + ·)).filter s.sensed
  if ts.any (fun n => decide (s.sensor n > tgt)) then
    let s : State := { s with pwr := { s.pwr with therm := mapSet 0 s.pwr.therm r 1 } }
    if s.railsFree then s.lower r 5 else s
  else if ts.all (fun n => decide (s.sensor n ≤ tgt - 24)) then
    { s with pwr := { s.pwr with therm := mapSet 0 s.pwr.therm r 0 } }
  else s

/-- R448: THERMTRIP_N: every on-package regulator off; nothing stays but what outlasts a loss of power. -/
def State.thermTrip (s : State) : State :=
  let s := s.powerLoss
  { s with pwr := { s.pwr with pwrgood := true, thermtrip := true, regsOff := true } }

/-- SENSOR_SAMPLE (R447, R448). THERMTRIP_N needs no firmware: any sensor at 125 °C drives it. -/
def execSensorSample (m : List (Nat × Int)) (s : State) : Out :=
  .next (
    if !s.pwr.pwrgood || s.pwr.regsOff then s
    else if m.any (fun x => decide (x.1 < 128) && decide (x.2 + s.calOf 3 x.1 ≥ 1000)) then s.thermTrip
    else if !s.pmRuns then s
    else
      let s := s.each (m.filter (fun x => decide (x.1 < 128))) (fun s x => s.sense x.1 x.2)
      if (List.range 128).any (fun n => s.sensed n && decide (s.sensor n ≥ 1000)) then s.thermTrip
      else
        let s := s.keepMax
        let s := s.setFld .PWR_STATUS_tj_max_c 0 (min 255 (s.tjMax / 8).toNat)
        let s := (s.each (List.range 24) State.regionTherm).pwrState false false
        let s : State := { s with pwr := { s.pwr with
          hot115 := since s.now s.pwr.hot115 (fun n => s.sensed n && decide (s.sensor n ≥ 920)) (List.range 128)
          memHot := since s.now s.pwr.memHot (fun k => decide (mapGet 0 s.dieTemp k ≥ 110)) (List.range 192) } }
        if lasts s.now 1000000 s.pwr.hot115 then s.thermalStop 1
        else if lasts s.now 10000000 s.pwr.memHot then s.thermalStop 2
        else s)

/-! ### Millisecond events -/

/-- POWER_SAMPLE (R461): a sample into the ring of 1,000. -/
def execPowerSample (s : State) : Out :=
  .next (
    if !s.pmRuns then s
    else
      let x : PwrSample := ⟨s.now, s.fld .PWR_STATUS_power_w 0, s.fld .PWR_CAP_cap_w 0,
        (List.range 56).map (fun n => min 65535 (s.railUw n / 100000)), (List.range 128).map s.sensor⟩
      let l := s.pwr.ring ++ [x]
      { s with pwr := { s.pwr with ring := l.drop (l.length - 1000) } })

/-- BEAT (R328): by the control die's firmware, which runs neither in January mode nor after CTL_WATCHDOG or a stop of
January mode. -/
def execBeat (s : State) : Out :=
  let b := s.fld .HIF_PROMPT_STATE_boot_state 0
  let code := s.fld .RAS_FATAL_fatal_code 0
  .next (
    if s.pwr.pwrgood && !s.pwr.regsOff && decide (b ≥ 3) && b != 9 && !(b == 0xA && (code == 0x0101 || code == 0x0209 || s.fld .SEC_JAN_cause 0 != 0))
    then s.addFld .HIF_PROMPT_BEAT_beat 0 1 else s)

/-- R315: an amount of energy in µJ split among tags by their use `l`; `got` of `tot` has been used before them. -/
def splitEnergy (e tot : Nat) : Nat → List (Nat × Nat) → List (Nat × Nat)
  | _, [] => []
  | got, (t, n) :: l => (t, e * (got + n) / tot - e * got / tot) :: splitEnergy e tot (got + n) l

/-- R315: a tag owed some µJ: whole millijoules go to its meter, the rest is kept. -/
def State.owe (s : State) (x : Nat × Nat) : State :=
  let u := mapGet 0 s.energyRem (x.1 % 65536) + x.2
  ({ s with energyRem := mapSet 0 s.energyRem (x.1 % 65536) (u % 1000) }).meter (some (x.1 % 65536)) .CFE_ACCT_energy_mj
    (u / 1000)

/-- R315: the whole microjoules of a unit split among its tags; without any they are no one's. -/
def State.splitUnit (s : State) (x : Nat × Nat) : State :=
  let us := (mapRange s.used (65536 * x.1) (65536 * (x.1 + 1))).map (fun e => (e.1 % 65536, e.2))
  s.each (splitEnergy (x.2 / 100000) (us.map (·.2)).sum 0 us) State.owe

/-- ENERGY_SPLIT (R315): the energy measured of each unit since the last split, among its tags. -/
def execEnergySplit (_ : Unit) (s : State) : Out :=
  .next (
    if !s.pmRuns then s
    else
      let s := s.each s.pwr.unitPj State.splitUnit
      { s with
        used := []
        pwr := { s.pwr with unitPj := s.pwr.unitPj.filterMap (fun x =>
          if x.2 % 100000 = 0 then none else some (x.1, x.2 % 100000)) } })

/-! ### Orderly power-down -/

/-- R439, R454: every output at high impedance: while PWRGOOD is low, or by HIGHZ. -/
def State.outputsHiz (s : State) : Bool := !s.pwr.pwrgood || s.tap.hiz

/-- R185: dirty shared-cache lines of the far tier written back to their expanders. -/
def State.farBack (s : State) : State :=
  s.each s.scds (fun s e =>
    let far := fun (l : CLine) =>
      match lineTarget l.addr with
      | .dev d => !l.dirty.isEmpty && decide ((s.loc (d / 65536)).loc ≥ 12)
      | _ => false
    let s := s.each (e.2.lines.filter (fun x => far x.2)) (fun s x => s.lineBack none x.2.addr)
    s.setScd e.1 { s.scd e.1 with lines := (s.scd e.1).lines.map (fun x =>
      if far x.2 then (x.1, { x.2 with dirty := [] }) else x) })

/-- R185: every buffer drained; whether nothing of it has to wait. -/
def State.drainAll (s : State) : State × Bool :=
  let s := s.each s.cells (fun s c => s.drainCell c.1)
  let out := s.blocks.foldl (fun (x : State × Bool) b =>
    let y := x.1.l2Clean b.1 511 (x.1.block b.1).l2.lines
    (y.1, x.2 && y.2)) (s, true)
  let s := if out.1.hostUp then out.1.farBack.hostFlush else out.1.farBack
  (s, out.2 && s.cells.all (fun c => s.cellDrained c.1) && s.remote.all (fun r => r.type != ftWrReq))

/-- R450, R451: the sites in self-refresh and PWROFF_RDY driven high; a PERST# that waited for it is acted on. -/
def State.offDone (s : State) : State :=
  let w := s.pwr.perstWait
  let s : State := { s with pwr := { s.pwr with selfRef := true, offRdy := true, perstWait := false } }
  if w then s.perstNow else s

/-- R186: what a drain of the device has left at its limit lost, and what that frees drained. -/
def State.offLose (s : State) : State := (s.each s.cells (fun s c => s.drainLose c.1)).drainAll.1

/-- R185, R450: an orderly power-down carried on: what is not drained at the wait limit of R186, or after 5 ms, is lost.
After a fatal stop nothing is drained (R431). -/
def State.offStep (s : State) : State :=
  if !s.pwr.pwrgood || s.pwr.regsOff || !s.pwr.offReq || s.pwr.offRdy then s
  else if !s.serves then s.offDone
  else
    let d := s.drainAll
    if d.2 then d.1.offDone
    else if s.now ≥ s.pwr.offAt + 5000000 then d.1.offLose.offDone
    else if s.now ≥ s.pwr.offLim then d.1.offLose
    else d.1

/-- PWROFF_REQ, PWROFF_REQ_N_RELEASE (R450, R451): once begun, the power-down completes. -/
def execPwroffReq (s : State) : Out :=
  .next (
    let s : State := { s with pwr := { s.pwr with offPin := true } }
    if !s.pwr.pwrgood || s.pwr.perst || s.pwr.regsOff || s.pwr.offReq then s
    else
      let s := s.each s.migs (fun s m => s.abandonMig m false)
      ({ s with pwr := { s.pwr with offReq := true, offAt := s.now, offLim := s.now + s.deadNs false } }).offStep)
def execPwroffReqNRelease (s : State) : Out := .next { s with pwr := { s.pwr with offPin := false } }

end Sys2Proof.Machine
end

