-- ==== Sys2Proof/Machine/Side.lean ====
section
/-!
DEFINITION. The management sideband (R452, R453) and the test access port (R454, R455). Log entry 40.
-/

namespace Sys2Proof.Machine

/-! ### MCTP and PLDM -/

/-- R453: the MCTP endpoint answers from step 2 of start-up on. -/
def State.sideUp (s : State) : Bool :=
  s.pwr.pwrgood && !s.pwr.regsOff && s.fld .HIF_PROMPT_STATE_boot_state 0 != 0

/-- R452: the SMBus address, by the straps SMB_ADDR1 and SMB_ADDR0. -/
def State.smbAddr (s : State) : Nat := 0x60 + 2 * b2n s.side.addr1 + b2n s.side.addr0

/-- SET_ENDPOINT_ID (R452): 0 and 0xFF are no endpoint IDs. -/
def execSetEndpointId (eid : Byte) (s : State) : Out :=
  .next (
    if s.sideUp && eid != 0 && eid != 0xFF then { s with side := { s.side with eid := eid.toNat } } else s)

/-- SET_EVENT_RECEIVER (R452). -/
def execSetEventReceiver (eid : Byte) (s : State) : Out :=
  .next (if s.sideUp then { s with side := { s.side with receiver := some eid.toNat } } else s)

/-- R452, R453: the reading of a sensor: none where there is no such sensor or it is unavailable. -/
def State.pldmSensor (s : State) (id : Nat) : Option Int :=
  let pm := fun (n : Nat) => if s.pmRuns then some (n : Int) else none
  if id = 1 then pm (s.fld .PWR_STATUS_power_w 0)
  else if id = 2 then (if s.pmRuns then some s.tjMax else none)
  else if id = 3 then pm (s.pwr.energy / 100000000)
  else if 0x10 ≤ id ∧ id < 0x1C then pm (s.fld .MEM_SITE_STATUS_temp_c (id - 0x10))
  else if 0x20 ≤ id ∧ id < 0x58 then pm (s.railUw (id - 0x20) / 1000000)
  else if id = 0x80 then some (s.fld .HIF_PROMPT_STATE_boot_state 0 : Int)
  else if id = 0x81 then some (s.fld .RAS_FATAL_fatal_code 0 : Int)
  else none

/-- PLDM_SENSOR_READ (R452). -/
def execPldmSensorRead (id : Nat) (s : State) : Out :=
  .next (if s.sideUp then { s with side := { s.side with reading := some (id, s.pldmSensor id) } } else s)

/-- PLDM_EFFECTER_SET (R443, R452): the power cap, through the power manager. -/
def execPldmEffecterSet (id : Nat) (v : Nat) (s : State) : Out :=
  .next (if s.sideUp && s.pmRuns && id == 1 then s.setCap v 3 else s)

/-- EVENT_ACKNOWLEDGE (R452): the events are taken, ALERT_N is released. -/
def execEventAcknowledge (s : State) : Out :=
  .next (if s.sideUp then { s with side := { s.side with events := [], alert := false } } else s)

/-! ### The test access port -/

/-- R455: the cells of the boundary register from TDI to TDO: a Silit lane's TX cell, then its two RX cells; the host's
and the far tier's the same; the clocks; the control group's lands in their order, input, output and control cell each.
The order within a lane and within a land is the model's (DESIGN CHOICE, log entry 40). -/
def silitCell (port lane k : Nat) : Nat := 24 * port + 3 * lane + k
def hostCell (lane k : Nat) : Nat := 288 + 3 * lane + k
def farCell (port lane k : Nat) : Nat := 336 + 48 * port + 3 * lane + k
def clockCell (k : Nat) : Nat := 528 + k
def controlCell (land k : Nat) : Nat := 536 + 3 * land + k

/-- R455, R458: the lands of the control group with boundary cells: rows 060 to 084 and TEST_N. -/
def controlLands : List Nat := (List.range 25).map (60 + ·) ++ [90]

/-- What the output of the control land of a number carries while the TAP drives the outputs. -/
def State.landDriven (s : State) (land : Nat) : Option Bool :=
  s.tap.drive.bind (fun d => if d.getLsbD (controlCell land 2) then some (d.getLsbD (controlCell land 1)) else none)

/-- R455, R340, R358: every high-speed link treated as down. -/
def State.linksDrop (s : State) : State :=
  let s := if s.hostThere then s.hostReset .host true else s
  if !s.alive then s
  else
    let up := fun (s : State) (p : Nat) =>
      let st := s.fld .FAB_PORT_STATUS_state p
      st == portUp || st == portDegraded
    let s := s.each ((List.range 12).filter (up s)) State.portRetrain
    s.each (List.range 4) (fun s p =>
      if s.fld .FTP_STATUS_state p = ftpOnline ∨ s.fld .FTP_STATUS_state p = ftpEvacuating then s.portFail p else s)

/-- R454: an instruction loaded into the TAP, with power good. -/
def State.tapLoad (s : State) (ir : BitVec 8) (drive : Option (BitVec 614)) (hiz bypass : Bool) : State :=
  if !s.pwr.pwrgood then s
  else
    let had := s.linksHeld
    let s : State := { s with tap := { s.tap with ir := ir, drive := drive, hiz := hiz, bypass := bypass } }
    if s.linksHeld && !had then s.linksDrop else s

/-- EXTEST, CLAMP, HIGHZ, EXTEST_PULSE, EXTEST_TRAIN (R454, R455): the outputs carry the preloaded cells, or nothing. -/
def execExtest (s : State) : Out := .next (s.tapLoad 0x00 (some s.tap.preload) false false)
def execClamp (s : State) : Out := .next (s.tapLoad 0x03 (some s.tap.preload) false true)
def execHighz (s : State) : Out := .next (s.tapLoad 0x04 none true true)
def execExtestPulse (s : State) : Out := .next (s.tapLoad 0x09 (some s.tap.preload) false false)
def execExtestTrain (s : State) : Out := .next (s.tapLoad 0x0A (some s.tap.preload) false false)

/-- R454: IDCODE selected. -/
def State.tapId (s : State) : State :=
  let t := s.tapLoad 0x01 none false false
  if s.pwr.pwrgood then { t with tap := { t.tap with dr := 0x1481256F } } else t

/-- IDCODE, TEST_LOGIC_RESET; BYPASS, which every undefined code acts as (R454). -/
def execIdcode (s : State) : Out := .next s.tapId
def execTestLogicReset (s : State) : Out := .next s.tapId
def execBypass (s : State) (code : BitVec 8 := 0xFF) : Out :=
  .next (if ([0x00, 0x01, 0x02, 0x03, 0x04, 0x09, 0x0A] : List (BitVec 8)).contains code then s
    else s.tapLoad code none false true)

/-- SAMPLE_PRELOAD (R454): the boundary register takes the lands and then the preload. -/
def execSamplePreload (pins : BitVec 614) (pre : BitVec 614) (s : State) : Out :=
  .next (
    if !s.pwr.pwrgood then s
    else
      let s := s.tapLoad 0x02 none false false
      { s with tap := { s.tap with sampled := pins, preload := pre } })

end Sys2Proof.Machine
end

