-- ==== Sys2Proof/Machine/Time.lean ====
section
/-!
DEFINITION. The time counter's discipline by PTP (R374 to R376) and its running. Log entry 37 says what the rules leave
open: the order of time transmitters, the measured offset before the counter's step, the size of the slew.
-/

namespace Sys2Proof.Machine

/-- TIM_STATUS `state` values (R376). -/
def timFree : Nat := 0
def timAcquiring : Nat := 1
def timLocked : Nat := 2
def timHoldover : Nat := 3

def State.timState (s : State) : Nat := s.fld .TIM_STATUS_state 0

/-- Whether a port takes part in PTP (R344, R375). -/
def State.ptpPort (s : State) (p : Nat) : Bool :=
  let m := s.fld .FAB_PORT_CFG_mode p
  s.portLive p && (m == modeEncap || m == modePlain) && s.flag .FAB_PORT_CFG_ptp_en p

/-- Whether a message is of the configured domain and transport (R375). -/
def State.ptpHears (s : State) (p : Nat) (m : PtpMsg) : Bool :=
  let t := s.fld .TIM_CFG_transport 0
  s.ptpPort p && m.domain == s.fld .TIM_CFG_domain 0 && (t == 2 || (t == 1) == m.udp)

/-- Whether a message comes from the chosen time transmitter. -/
def State.ptpChosen (s : State) (p : Nat) (m : PtpMsg) : Bool :=
  match s.time.chosen with
  | some c => c.1 == p && c.2.1 == m.clockId
  | none => false

/-- R375: an arrival time stamp lies within 4 ns of the counter. -/
def State.stamped (s : State) (t : Nat) : Bool := decide (t ≤ s.now + 4) && decide (s.now ≤ t + 4)

/-- R376: the counter's state, with the slew stopped in HOLDOVER. -/
def State.toHoldover (s : State) : State :=
  { s.setFld .TIM_STATUS_state 0 timHoldover with time := { s.time with inLock := 0, slewPpm := 0 } }

/-- R375, R376: a time transmitter chosen; a change of an earlier choice is HOLDOVER. -/
def State.chooseGm (s : State) (p : Nat) (m : PtpMsg) : State :=
  let had := s.time.chosen.isSome
  let s := s.setFlds 0 [(.TIM_GM_clock_id, m.clockId.toNat), (.TIM_STATUS_port, p)]
  let s : State := { s with time := { s.time with
    chosen := some (p, m.clockId, m.rank), inLock := 0, twoStep := none, t1 := 0, t2 := 0, t3 := 0, delay := 0, lead := none
    annAt := s.now, annIv := 0, syncAt := 0, syncIv := 0 } }
  if had then s.toHoldover else s.setFld .TIM_STATUS_state 0 timAcquiring

/-- R375: the Announce receipt timeout: three intervals without an Announce of the chosen time transmitter, the interval
measured, or 2 s while only one has come (PRESUMED, log entry 37). -/
def State.gmSilent (s : State) : Bool :=
  decide (s.now ≥ s.time.annAt + 3 * (if s.time.annIv = 0 then 2000000000 else s.time.annIv))

/-- Whether a message's sender is to be preferred to the chosen one: by rank, then clockIdentity, then port; any sender
to one that has fallen silent. -/
def State.betterGm (s : State) (p : Nat) (m : PtpMsg) : Bool :=
  match s.time.chosen with
  | none => true
  | some c =>
    s.gmSilent || decide (m.rank < c.2.2) ||
      (m.rank == c.2.2 && (decide (m.clockId.toNat < c.2.1.toNat) || (m.clockId == c.2.1 && decide (p < c.1))))

/-- ANNOUNCE (R375). -/
def execAnnounce (p : Fin 12) (m : PtpMsg) (s : State) : Out :=
  .next (
    if !s.alive || !s.ptpHears p.val m then s
    else if s.ptpChosen p.val m then
      { s with time := { s.time with
        chosen := some (p.val, m.clockId, m.rank), annAt := s.now, annIv := s.now - s.time.annAt } }
    else if s.betterGm p.val m then s.chooseGm p.val m
    else s)

/-- R374, R376: the first lock: the counter jumps forward to TAI, once. -/
def State.stepTime (s : State) (off : Int) : State :=
  if s.flag .TIM_STATUS_stepped 0 then s
  else
    { s.setFld .TIM_STATUS_stepped 0 1 with time := { s.time with
        ns := s.now + (-off).toNat, lead := none, t1 := 0, t2 := 0, t3 := 0
        annAt := s.time.annAt + (-off).toNat, syncAt := s.time.syncAt + (-off).toNat } }

/-- R374: the rate slewed against an offset, by an open amount of at most `max_slew_ppm`. -/
def State.slew (s : State) (off : Int) : State :=
  let n : Int := (s.freeAt 0 % (s.fld .TIM_CFG_max_slew_ppm 0 + 1) : Nat)
  { s.drew 1 with time := { s.time with slewPpm := if off > 0 then -n else if off < 0 then n else 0 } }

/-- R376: an offset measured from a Sync. -/
def State.offset (s : State) (off : Int) : State :=
  let stepped := s.flag .TIM_STATUS_stepped 0
  let lead := if stepped then 0 else s.time.lead.getD off
  let rest := off - lead
  let s := s.setFld .TIM_STATUS_offset_ns 0 (lowBits 32 (clampInt 32 off))
  let s := if s.timState = timHoldover then s.setFld .TIM_STATUS_state 0 timAcquiring else s
  let ok := decide (rest.natAbs ≤ s.fld .TIM_CFG_lock_thr_ns 0)
  let n := if ok then s.time.inLock + 1 else 0
  let s : State := { s with time := { s.time with
    inLock := n, lead := if stepped then none else some (if ok then lead else off) } }
  if s.timState = timAcquiring ∧ n ≥ 16 then ((s.setFld .TIM_STATUS_state 0 timLocked).stepTime off).slew rest
  else if stepped then s.slew rest
  else s

/-- The offset of a Sync sent at `t1` (corrected) that arrived at `t2`: the path delay and the port's asymmetry taken
off (R375). -/
def State.syncOffset (s : State) (p : Nat) (t1 : Int) (t2 : Nat) : Int :=
  t2 - sgn 16 (s.fld .FAB_PORT_CFG_asym_ns p) - t1 - s.time.delay

/-- A Sync's time stamps complete. -/
def State.synced (s : State) (p : Nat) (t1 : Int) (t2 : Nat) : State :=
  ({ s with time := { s.time with twoStep := none, t1 := t1.toNat, t2 := t2 } }).offset (s.syncOffset p t1 t2)

/-- R376: a Sync of the chosen time transmitter has come; the interval to the last one is measured. -/
def State.heardSync (s : State) : State :=
  { s with time := { s.time with syncAt := s.now, syncIv := if s.time.syncAt = 0 then 0 else s.now - s.time.syncAt } }

/-- PTP_SYNC (R375, R376): of a one-step clock it carries its time stamp; of a two-step clock Follow_Up does. -/
def execPtpSync (p : Fin 12) (m : PtpMsg) (s : State) : Out :=
  .next (
    if !s.alive || !s.ptpHears p.val m || !s.ptpChosen p.val m || !s.stamped m.arrival then s
    else
      let s := s.heardSync
      if m.twoStep then { s with time := { s.time with twoStep := some (m.seq, m.arrival, m.corr) } }
      else s.synced p.val (m.origin + m.corr) m.arrival)

/-- FOLLOW_UP (R375). -/
def execFollowUp (p : Fin 12) (m : PtpMsg) (s : State) : Out :=
  .next (
    if !s.alive || !s.ptpHears p.val m || !s.ptpChosen p.val m then s
    else
      match s.time.twoStep with
      | some x => if x.1 = m.seq then s.synced p.val (m.origin + x.2.2 + m.corr) x.2.1 else s
      | none => s)

/-- DELAY_REQ (R344, R375): sent on the chosen time transmitter's port once a Sync has been measured. -/
def execDelayReq (p : Fin 12) (s : State) : Out :=
  .next (
    if !s.alive || !s.ptpPort p.val || (s.time.chosen.map (·.1)) != some p.val || s.time.t2 == 0 then s
    else
      { s with
        time := { s.time with t3 := s.now }
        plainTx := s.plainTx ++ [⟨0xF7, { Frame.blank with src := BitVec.ofNat 16 (s.fld .FAB_ID_dev_id 0) }, none⟩] })

/-- DELAY_RESP (R375): the end-to-end path delay, the mean of both directions. -/
def execDelayResp (p : Fin 12) (m : PtpMsg) (s : State) : Out :=
  .next (
    let t := s.time
    if !s.alive || !s.ptpHears p.val m || !s.ptpChosen p.val m || t.t3 == 0 || t.t2 == 0 then s
    else
      let d : Int := ((t.t2 : Int) - t.t1 + ((m.origin : Int) - m.corr - t.t3)) / 2
      { s with time := { t with delay := d, t3 := 0 } })

/-- SYNC_LOSS (R376): three Sync intervals have passed without a Sync while LOCKED. -/
def execSyncLoss (s : State) : Out :=
  .next (
    if s.alive && s.timState == timLocked && decide (s.now ≥ s.time.syncAt + 3 * s.time.syncIv) then s.toHoldover
    else s)

/-- R374, R394: the counter advanced by one nanosecond of the oscillator: its rate corrected by the calibration in 0.001
ppm and slewed by no more than the chosen amount, exactly, with the remainder kept. -/
def State.advanceTime (s : State) : TimeSt :=
  let t := s.time
  let n := t.rem + (65536 * (1000000000 + 1000 * t.slewPpm + s.calOf 5 0)).toNat
  let u := t.frac + n / 1000000000
  { t with ns := (t.ns + u / 65536) % 2 ^ 64, frac := u % 65536, rem := n % 1000000000 }

end Sys2Proof.Machine
end

