-- ==== Sys2Proof/Machine/Uniform.lean ====
section
/-! DEFINITION. Uniform, tile, barrier and privileged instructions, format F5 (R52, R56, R63, R64, R67, R154). ULD is
with the loads. -/

namespace Sys2Proof.Machine

/-- R51: the fields an F5 operation may set: ud, ua, ub, sr, imm. -/
def uniLegal (i : UniI) (ud ua ub sr imm : Bool) : Bool :=
  !i.g.ge && guardOk i.g && !i.rsv && (ud || i.ud == 0) && (ua || i.ua == 0) && (ub || i.ub == 0) && (sr || i.sr == 0)
    && (imm || i.imm == 0)

/-- What the issue stage checks of an F5 instruction. -/
def uniArg (i : UniI) (legal : Bool) (u : List Nat) : IssueArg := aluArg i.g legal false ⟨[], [], u⟩

/-- A uniform result written. -/
def State.uniform (s : State) (t : GTgt) (a : IssueArg) (ud : Nat) (f : State → Nat → Group → Nat) : State :=
  s.issue t a (fun s c slot g _ => s.setGroup c slot (g.setU ud (f s c g)).adv)

/-- UMOV (R52). -/
def execUmov (t : GTgt) (i : UniI) (s : State) : Out :=
  .next (s.uniform t (uniArg i (uniLegal i true true false false false) [i.ud.toNat, i.ua.toNat]) i.ud.toNat
    (fun _ _ g => g.ur i.ua.toNat))

/-- UADD (R52): modulo 2^64. -/
def execUadd (t : GTgt) (i : UniI) (s : State) : Out :=
  .next (s.uniform t (uniArg i (uniLegal i true true true false false) [i.ud.toNat, i.ua.toNat, i.ub.toNat]) i.ud.toNat
    (fun _ _ g => (g.ur i.ua.toNat + g.ur i.ub.toNat) % 2 ^ 64))

/-- UADDI (R50, R52): `imm24` is signed. -/
def execUaddi (t : GTgt) (i : UniI) (s : State) : Out :=
  .next (s.uniform t (uniArg i (uniLegal i true true false false true) [i.ud.toNat, i.ua.toNat]) i.ud.toNat
    (fun _ _ g => (BitVec.ofNat 64 (g.ur i.ua.toNat) + i.imm.signExtend 64).toNat))

/-- S2U (R67): SR_LANEID and the reserved registers are illegal. -/
def execS2u (t : GTgt) (i : UniI) (s : State) : Out :=
  let r := i.sr.toNat
  let legal := uniLegal i true false false true false && r != 0 && decide (r < 0x14)
  .next (s.uniform t (uniArg i legal [i.ud.toNat]) i.ud.toNat (fun s c g => s.sr c g 0 r))

/-- R63, R64, R78: a macro-op word appended to a stream. A divergent one is never held, and halts with TILE_OP_DIVERGED
also in a kernel launched without the tile engine (DESIGN CHOICE, log entry 45). -/
def State.tappend (s : State) (t : GTgt) (i : UniI) (st : Stream) : State :=
  let a : IssueArg :=
    { uniArg i (uniLegal i false true true false false) [i.ua.toNat, i.ub.toNat] with
      app := fun g => if !g.stack.isEmpty || g.active != ~~~g.exited then none else some st }
  s.issue t a (fun s c slot g _ =>
    if !g.stack.isEmpty || g.active != ~~~g.exited then s.haltGroup c slot hrTileDiverged none
    else if !((s.cellKernel c).map (·.tile)).getD false then s.haltGroup c slot hrQueueProtocol none
    else
      let m := macroOf (g.ur i.ua.toNat + 2 ^ 64 * g.ur i.ub.toNat)
      let s := s.setGroup c slot g.adv
      (s.modStream c st (fun x => { x with
        buf := x.buf ++ [⟨m.1, m.2, g.pc.toNat, true⟩], pend := x.pend + 1 })).headCheck c st)

/-- TAPPEND_A (R63). -/
def execTappendA (t : GTgt) (i : UniI) (s : State) : Out := .next (s.tappend t i .access)

/-- TAPPEND_X (R63). -/
def execTappendX (t : GTgt) (i : UniI) (s : State) : Out := .next (s.tappend t i .execute)

/-- R64: a group waits until a stream holds at most `imm24` appended macro-ops not retired. -/
def State.twait (s : State) (t : GTgt) (i : UniI) (st : Stream) : State :=
  s.issue t (uniArg i (uniLegal i false false false false true && decide (i.imm.toNat ≤ 7)) []) (fun s c slot g _ =>
    let n := i.imm.toNat
    s.setGroup c slot (if (s.stream c st).pend ≤ n then g.adv else { g.adv with wait := .twait st n }))

/-- TWAIT_A (R64). -/
def execTwaitA (t : GTgt) (i : UniI) (s : State) : Out := .next (s.twait t i .access)

/-- TWAIT_X (R64). -/
def execTwaitX (t : GTgt) (i : UniI) (s : State) : Out := .next (s.twait t i .execute)

/-- R154: a barrier instruction: the group waits until both halves are done, at once where nothing is outstanding. -/
def State.membarI (s : State) (t : GTgt) (i : UniI) (scope : Nat) : State :=
  s.issue t (uniArg i (uniLegal i false false false false false) []) (fun s c slot g _ =>
    (s.setGroup c slot { g.adv with wait := .membar scope (s.now + s.deadNs false) (s.cell c).nextReq s.now }).membarTry c slot scope
      (s.cell c).nextReq)

/-- MEMBAR_CELL (R154). -/
def execMembarCell (t : GTgt) (i : UniI) (s : State) : Out := .next (s.membarI t i 0)

/-- MEMBAR_DEVICE (R154). -/
def execMembarDevice (t : GTgt) (i : UniI) (s : State) : Out := .next (s.membarI t i 1)

/-- MEMBAR_SYSTEM (R154). -/
def execMembarSystem (t : GTgt) (i : UniI) (s : State) : Out := .next (s.membarI t i 2)

/-- MEMBAR_FABRIC (R154). -/
def execMembarFabric (t : GTgt) (i : UniI) (s : State) : Out := .next (s.membarI t i 3)

/-- R56: a privileged instruction: in a kernel launched from a user queue it halts the cell. -/
def State.privileged (s : State) (t : GTgt) (i : UniI) (f : State → Nat → State) : State :=
  s.issue t (uniArg i (uniLegal i false false false false false) []) (fun s c slot g _ =>
    if ((s.cellKernel c).map (·.priv)).getD false then f (s.setGroup c slot g.adv) c
    else s.haltGroup c slot hrPrivileged none)

/-- ICINV (R52, R56). -/
def execIcinv (t : GTgt) (i : UniI) (s : State) : Out := .next (s.privileged t i State.icInval)

/-- L1INV (R52, R56). -/
def execL1inv (t : GTgt) (i : UniI) (s : State) : Out := .next (s.privileged t i State.l1Inval)

end Sys2Proof.Machine
end

