-- ==== Sys2Proof/Machine/Dispatch.lean ====
section
/-!
DEFINITION. The dispatch: one arm for each command, each a direct call of the command's meaning.
-/

namespace Sys2Proof.Machine

def exec (i : Instr) (s : State) : Host.Outcome State Fault Refusal :=
  match i with
  | .iadd t ins => Sys2Proof.Machine.execIadd t ins s
  | .isub t ins => Sys2Proof.Machine.execIsub t ins s
  | .imul t ins => Sys2Proof.Machine.execImul t ins s
  | .imulhi t ins => Sys2Proof.Machine.execImulhi t ins s
  | .imad t ins => Sys2Proof.Machine.execImad t ins s
  | .imin t ins => Sys2Proof.Machine.execImin t ins s
  | .imax t ins => Sys2Proof.Machine.execImax t ins s
  | .iabs t ins => Sys2Proof.Machine.execIabs t ins s
  | .land t ins => Sys2Proof.Machine.execLand t ins s
  | .lor t ins => Sys2Proof.Machine.execLor t ins s
  | .xor t ins => Sys2Proof.Machine.execXor t ins s
  | .lnot t ins => Sys2Proof.Machine.execLnot t ins s
  | .shl t ins => Sys2Proof.Machine.execShl t ins s
  | .shr t ins => Sys2Proof.Machine.execShr t ins s
  | .sar t ins => Sys2Proof.Machine.execSar t ins s
  | .popc t ins => Sys2Proof.Machine.execPopc t ins s
  | .clz t ins => Sys2Proof.Machine.execClz t ins s
  | .brev t ins => Sys2Proof.Machine.execBrev t ins s
  | .mov t ins => Sys2Proof.Machine.execMov t ins s
  | .bfe t ins => Sys2Proof.Machine.execBfe t ins s
  | .bfi t ins => Sys2Proof.Machine.execBfi t ins s
  | .fadd t ins => Sys2Proof.Machine.execFadd t ins s
  | .fmul t ins => Sys2Proof.Machine.execFmul t ins s
  | .ffma t ins => Sys2Proof.Machine.execFfma t ins s
  | .fmin t ins => Sys2Proof.Machine.execFmin t ins s
  | .fmax t ins => Sys2Proof.Machine.execFmax t ins s
  | .fabs t ins => Sys2Proof.Machine.execFabs t ins s
  | .fneg t ins => Sys2Proof.Machine.execFneg t ins s
  | .frcp t ins => Sys2Proof.Machine.execFrcp t ins s
  | .frsq t ins => Sys2Proof.Machine.execFrsq t ins s
  | .fsqrt t ins => Sys2Proof.Machine.execFsqrt t ins s
  | .fexp2 t ins => Sys2Proof.Machine.execFexp2 t ins s
  | .flog2 t ins => Sys2Proof.Machine.execFlog2 t ins s
  | .fsin t ins => Sys2Proof.Machine.execFsin t ins s
  | .fcos t ins => Sys2Proof.Machine.execFcos t ins s
  | .ffma2 t ins => Sys2Proof.Machine.execFfma2 t ins s
  | .hadd2 t ins => Sys2Proof.Machine.execHadd2 t ins s
  | .hmul2 t ins => Sys2Proof.Machine.execHmul2 t ins s
  | .hfma2 t ins => Sys2Proof.Machine.execHfma2 t ins s
  | .hmin2 t ins => Sys2Proof.Machine.execHmin2 t ins s
  | .hmax2 t ins => Sys2Proof.Machine.execHmax2 t ins s
  | .dadd t ins => Sys2Proof.Machine.execDadd t ins s
  | .dmul t ins => Sys2Proof.Machine.execDmul t ins s
  | .dfma t ins => Sys2Proof.Machine.execDfma t ins s
  | .dmin t ins => Sys2Proof.Machine.execDmin t ins s
  | .dmax t ins => Sys2Proof.Machine.execDmax t ins s
  | .drcp t ins => Sys2Proof.Machine.execDrcp t ins s
  | .drsq t ins => Sys2Proof.Machine.execDrsq t ins s
  | .dsqrt t ins => Sys2Proof.Machine.execDsqrt t ins s
  | .cvt t ins => Sys2Proof.Machine.execCvt t ins s
  | .shfl t ins => Sys2Proof.Machine.execShfl t ins s
  | .sel t ins => Sys2Proof.Machine.execSel t ins s
  | .s2v t ins => Sys2Proof.Machine.execS2v t ins s
  | .u2v t ins => Sys2Proof.Machine.execU2v t ins s
  | .v2u t ins => Sys2Proof.Machine.execV2u t ins s
  | .ld t ins => Sys2Proof.Machine.execLd t ins s
  | .st t ins => Sys2Proof.Machine.execSt t ins s
  | .stnt t ins => Sys2Proof.Machine.execStnt t ins s
  | .lds t ins => Sys2Proof.Machine.execLds t ins s
  | .sts t ins => Sys2Proof.Machine.execSts t ins s
  | .ldres t ins => Sys2Proof.Machine.execLdres t ins s
  | .stcond t ins => Sys2Proof.Machine.execStcond t ins s
  | .atomAdd t ins => Sys2Proof.Machine.execAtomAdd t ins s
  | .atomMin t ins => Sys2Proof.Machine.execAtomMin t ins s
  | .atomMax t ins => Sys2Proof.Machine.execAtomMax t ins s
  | .atomAnd t ins => Sys2Proof.Machine.execAtomAnd t ins s
  | .atomOr t ins => Sys2Proof.Machine.execAtomOr t ins s
  | .atomXor t ins => Sys2Proof.Machine.execAtomXor t ins s
  | .atomExch t ins => Sys2Proof.Machine.execAtomExch t ins s
  | .atomCas t ins => Sys2Proof.Machine.execAtomCas t ins s
  | .atomFadd t ins => Sys2Proof.Machine.execAtomFadd t ins s
  | .feTake t ins => Sys2Proof.Machine.execFeTake t ins s
  | .fePeek t ins => Sys2Proof.Machine.execFePeek t ins s
  | .fePut t ins => Sys2Proof.Machine.execFePut t ins s
  | .feUpdate t ins => Sys2Proof.Machine.execFeUpdate t ins s
  | .feClear t ins => Sys2Proof.Machine.execFeClear t ins s
  | .icmp t ins => Sys2Proof.Machine.execIcmp t ins s
  | .fcmp t ins => Sys2Proof.Machine.execFcmp t ins s
  | .dcmp t ins => Sys2Proof.Machine.execDcmp t ins s
  | .plogic t ins => Sys2Proof.Machine.execPlogic t ins s
  | .pany t ins => Sys2Proof.Machine.execPany t ins s
  | .pall t ins => Sys2Proof.Machine.execPall t ins s
  | .pmask t ins => Sys2Proof.Machine.execPmask t ins s
  | .br t ins => Sys2Proof.Machine.execBr t ins s
  | .call t ins => Sys2Proof.Machine.execCall t ins s
  | .ret t ins => Sys2Proof.Machine.execRet t ins s
  | .exit t ins => Sys2Proof.Machine.execExit t ins s
  | .barSync t ins => Sys2Proof.Machine.execBarSync t ins s
  | .bkpt t ins => Sys2Proof.Machine.execBkpt t ins s
  | .nopInstruction t ins => Sys2Proof.Machine.execNopInstruction t ins s
  | .umov t ins => Sys2Proof.Machine.execUmov t ins s
  | .uadd t ins => Sys2Proof.Machine.execUadd t ins s
  | .uaddi t ins => Sys2Proof.Machine.execUaddi t ins s
  | .uld t ins => Sys2Proof.Machine.execUld t ins s
  | .s2u t ins => Sys2Proof.Machine.execS2u t ins s
  | .tappendA t ins => Sys2Proof.Machine.execTappendA t ins s
  | .tappendX t ins => Sys2Proof.Machine.execTappendX t ins s
  | .twaitA t ins => Sys2Proof.Machine.execTwaitA t ins s
  | .twaitX t ins => Sys2Proof.Machine.execTwaitX t ins s
  | .membarCell t ins => Sys2Proof.Machine.execMembarCell t ins s
  | .membarDevice t ins => Sys2Proof.Machine.execMembarDevice t ins s
  | .membarSystem t ins => Sys2Proof.Machine.execMembarSystem t ins s
  | .membarFabric t ins => Sys2Proof.Machine.execMembarFabric t ins s
  | .icinv t ins => Sys2Proof.Machine.execIcinv t ins s
  | .l1inv t ins => Sys2Proof.Machine.execL1inv t ins s
  | .memoryReply c r => Sys2Proof.Machine.execMemoryReply c r s
  | .feResend c id => Sys2Proof.Machine.execFeResend c id s
  | .feWaitTimeout c id => Sys2Proof.Machine.execFeWaitTimeout c id s
  | .watchdog c => Sys2Proof.Machine.execWatchdog c s
  | .combiningEntryIdleFlush c line => Sys2Proof.Machine.execCombiningEntryIdleFlush c line s
  | .deadTargetTimeout c id => Sys2Proof.Machine.execDeadTargetTimeout c id s
  | .haltReport c => Sys2Proof.Machine.execHaltReport c s
  | .threadBlockPlacement => Sys2Proof.Machine.execThreadBlockPlacement s
  | .threadBlockRetire c tb => Sys2Proof.Machine.execThreadBlockRetire c tb s
  | .kernelEnd b => Sys2Proof.Machine.execKernelEnd b s
  | .kernelRetire k => Sys2Proof.Machine.execKernelRetire k s
  | .sync c st w => Sys2Proof.Machine.execSync c st w s
  | .mend c st w => Sys2Proof.Machine.execMend c st w s
  | .jump c st w => Sys2Proof.Machine.execJump c st w s
  | .mloop c st w => Sys2Proof.Machine.execMloop c st w s
  | .setc c st w => Sys2Proof.Machine.execSetc c st w s
  | .setd c st w => Sys2Proof.Machine.execSetd c st w s
  | .dadv c st w => Sys2Proof.Machine.execDadv c st w s
  | .seta c st w => Sys2Proof.Machine.execSeta c st w s
  | .aadv c st w => Sys2Proof.Machine.execAadv c st w s
  | .append c st w => Sys2Proof.Machine.execAppend c st w s
  | .tload c st w => Sys2Proof.Machine.execTload c st w s
  | .tstore c st w => Sys2Proof.Machine.execTstore c st w s
  | .tgather c st w => Sys2Proof.Machine.execTgather c st w s
  | .tverify c st w => Sys2Proof.Machine.execTverify c st w s
  | .mma c st w => Sys2Proof.Machine.execMma c st w s
  | .accst c st w => Sys2Proof.Machine.execAccst c st w s
  | .accld c st w => Sys2Proof.Machine.execAccld c st w s
  | .elem c st w => Sys2Proof.Machine.execElem c st w s
  | .reduce c st w => Sys2Proof.Machine.execReduce c st w s
  | .lut c st w => Sys2Proof.Machine.execLut c st w s
  | .tblld c st w => Sys2Proof.Machine.execTblld c st w s
  | .macroOpCompletion c st n => Sys2Proof.Machine.execMacroOpCompletion c st n s
  | .macroOpRetirement c st n up => Sys2Proof.Machine.execMacroOpRetirement c st n up s
  | .snpdata line => Sys2Proof.Machine.execSnpdata line s
  | .snpinv line => Sys2Proof.Machine.execSnpinv line s
  | .snpcur line => Sys2Proof.Machine.execSnpcur line s
  | .birsp line dirty => Sys2Proof.Machine.execBirsp line dirty s
  | .memrd hpa excl a => Sys2Proof.Machine.execMemrd hpa excl a s
  | .memwr hpa data => Sys2Proof.Machine.execMemwr hpa data s
  | .cacheWritebackAndInvalidate => Sys2Proof.Machine.execCacheWritebackAndInvalidate s
  | .hdmDecoderCommit base size ways => Sys2Proof.Machine.execHdmDecoderCommit base size ways s
  | .heatScan dpn => Sys2Proof.Machine.execHeatScan dpn s
  | .migrationStart mid => Sys2Proof.Machine.execMigrationStart mid s
  | .migrationPassEnd dpn a => Sys2Proof.Machine.execMigrationPassEnd dpn a s
  | .frameZeroed loc frame => Sys2Proof.Machine.execFrameZeroed loc frame s
  | .farTierClear p => Sys2Proof.Machine.execFarTierClear p s
  | .evacuationComplete u => Sys2Proof.Machine.execEvacuationComplete u s
  | .refresh site ch die bank => Sys2Proof.Machine.execRefresh site ch die bank s
  | .retrain site ch die ok => Sys2Proof.Machine.execRetrain site ch die ok s
  | .patrol site addr a => Sys2Proof.Machine.execPatrol site addr a s
  | .scrub j line e => Sys2Proof.Machine.execScrub j line e s
  | .farPortFailure p c => Sys2Proof.Machine.execFarPortFailure p c s
  | .cxlMemTimeout p exp => Sys2Proof.Machine.execCxlMemTimeout p exp s
  | .memdata p poison => Sys2Proof.Machine.execMemdata p poison s
  | .expanderInsertion p e => Sys2Proof.Machine.execExpanderInsertion p e s
  | .pmcSelWrite r k v => Sys2Proof.Machine.execPmcSelWrite r k v s
  | .pmcClear r => Sys2Proof.Machine.execPmcClear r s
  | .pmcSnapshot r => Sys2Proof.Machine.execPmcSnapshot r s
  | .offlineReq p => Sys2Proof.Machine.execOfflineReq p s
  | .onlineReq p e => Sys2Proof.Machine.execOnlineReq p e s
  | .bootqEnable => Sys2Proof.Machine.execBootqEnable s
  | .bootqResume retry => Sys2Proof.Machine.execBootqResume retry s
  | .bootqReset => Sys2Proof.Machine.execBootqReset s
  | .fenceForce f v => Sys2Proof.Machine.execFenceForce f v s
  | .siteEvacuate site => Sys2Proof.Machine.execSiteEvacuate site s
  | .siteReset site ok => Sys2Proof.Machine.execSiteReset site ok s
  | .sitePowerDown site => Sys2Proof.Machine.execSitePowerDown site s
  | .sitePowerUp site ok => Sys2Proof.Machine.execSitePowerUp site ok s
  | .farPortEvacuate p => Sys2Proof.Machine.execFarPortEvacuate p s
  | .farPortPowerDown p => Sys2Proof.Machine.execFarPortPowerDown p s
  | .farPortReset p e => Sys2Proof.Machine.execFarPortReset p e s
  | .farPortPowerUp p e => Sys2Proof.Machine.execFarPortPowerUp p e s
  | .silitPortReset p l => Sys2Proof.Machine.execSilitPortReset p l s
  | .silitPortPowerDown p => Sys2Proof.Machine.execSilitPortPowerDown p s
  | .silitPortPowerUp p l => Sys2Proof.Machine.execSilitPortPowerUp p l s
  | .mbxBegin len target flashOk => Sys2Proof.Machine.execMbxBegin len target flashOk s
  | .chunk n flashOk => Sys2Proof.Machine.execChunk n flashOk s
  | .finish flashOk => Sys2Proof.Machine.execFinish flashOk s
  | .mbxAbort => Sys2Proof.Machine.execMbxAbort s
  | .disarm => Sys2Proof.Machine.execDisarm s
  | .januaryNext v => Sys2Proof.Machine.execJanuaryNext v s
  | .restart e => Sys2Proof.Machine.execRestart e s
  | .msixUnmask v => Sys2Proof.Machine.execMsixUnmask v s
  | .registerWrite bar off size v kernel => Sys2Proof.Machine.execRegisterWrite bar off size v kernel s
  | .rejectedAccess bar off size write => Sys2Proof.Machine.execRejectedAccess bar off size write s
  | .doorbell q v => Sys2Proof.Machine.execDoorbell q v s
  | .fetchRun q => Sys2Proof.Machine.execFetchRun q s
  | .launch q seq => Sys2Proof.Machine.execLaunch q seq s
  | .copyPkt q seq => Sys2Proof.Machine.execCopyPkt q seq s
  | .fill q seq => Sys2Proof.Machine.execFill q seq s
  | .copyPieceDone e a => Sys2Proof.Machine.execCopyPieceDone e a s
  | .fenceSignal q seq => Sys2Proof.Machine.execFenceSignal q seq s
  | .fenceWait q seq => Sys2Proof.Machine.execFenceWait q seq s
  | .feWait q seq => Sys2Proof.Machine.execFeWait q seq s
  | .placeHint q seq => Sys2Proof.Machine.execPlaceHint q seq s
  | .timestamp q seq => Sys2Proof.Machine.execTimestamp q seq s
  | .markPkt q seq => Sys2Proof.Machine.execMarkPkt q seq s
  | .membar q seq => Sys2Proof.Machine.execMembar q seq s
  | .allReduce q seq => Sys2Proof.Machine.execAllReduce q seq s
  | .reduceScatter q seq => Sys2Proof.Machine.execReduceScatter q seq s
  | .allGather q seq => Sys2Proof.Machine.execAllGather q seq s
  | .broadcast q seq => Sys2Proof.Machine.execBroadcast q seq s
  | .barrier q seq => Sys2Proof.Machine.execBarrier q seq s
  | .invalidate q seq => Sys2Proof.Machine.execInvalidate q seq s
  | .nopPkt q seq => Sys2Proof.Machine.execNopPkt q seq s
  | .chain q seq => Sys2Proof.Machine.execChain q seq s
  | .mapUpdateInvalidate q seq => Sys2Proof.Machine.execMapUpdateInvalidate q seq s
  | .dpnAlloc q seq => Sys2Proof.Machine.execDpnAlloc q seq s
  | .dpnFree q seq => Sys2Proof.Machine.execDpnFree q seq s
  | .setRoot q seq => Sys2Proof.Machine.execSetRoot q seq s
  | .ascCreate q seq => Sys2Proof.Machine.execAscCreate q seq s
  | .ascDestroy q seq => Sys2Proof.Machine.execAscDestroy q seq s
  | .queueCreate q seq => Sys2Proof.Machine.execQueueCreate q seq s
  | .queueDestroy q seq => Sys2Proof.Machine.execQueueDestroy q seq s
  | .queueStop q seq => Sys2Proof.Machine.execQueueStop q seq s
  | .queueStart q seq => Sys2Proof.Machine.execQueueStart q seq s
  | .queueResume q seq => Sys2Proof.Machine.execQueueResume q seq s
  | .queueReset q seq => Sys2Proof.Machine.execQueueReset q seq s
  | .assign q seq => Sys2Proof.Machine.execAssign q seq s
  | .clear q seq => Sys2Proof.Machine.execClear q seq s
  | .prioSet q seq => Sys2Proof.Machine.execPrioSet q seq s
  | .placePin q seq => Sys2Proof.Machine.execPlacePin q seq s
  | .isolate q seq => Sys2Proof.Machine.execIsolate q seq s
  | .regionReset q seq t => Sys2Proof.Machine.execRegionReset q seq t s
  | .selftest q seq t => Sys2Proof.Machine.execSelftest q seq t s
  | .quarantine q seq => Sys2Proof.Machine.execQuarantine q seq s
  | .regionPowerDown q seq => Sys2Proof.Machine.execRegionPowerDown q seq s
  | .regionPowerUp q seq t => Sys2Proof.Machine.execRegionPowerUp q seq t s
  | .dumpSync q seq => Sys2Proof.Machine.execDumpSync q seq s
  | .powerCap q seq => Sys2Proof.Machine.execPowerCap q seq s
  | .fwStage q seq e => Sys2Proof.Machine.execFwStage q seq e s
  | .fwActivate q seq e => Sys2Proof.Machine.execFwActivate q seq e s
  | .regWrite q seq => Sys2Proof.Machine.execRegWrite q seq s
  | .completionRecordWrite q => Sys2Proof.Machine.execCompletionRecordWrite q s
  | .recordWriteAck q => Sys2Proof.Machine.execRecordWriteAck q s
  | .budgetExpiry k => Sys2Proof.Machine.execBudgetExpiry k s
  | .fenceWaitTimeout q seq => Sys2Proof.Machine.execFenceWaitTimeout q seq s
  | .feWaitExpired q seq => Sys2Proof.Machine.execFeWaitExpired q seq s
  | .collTimeout q seq => Sys2Proof.Machine.execCollTimeout q seq s
  | .rdReq p f => Sys2Proof.Machine.execRdReq p f s
  | .rdRsp p f => Sys2Proof.Machine.execRdRsp p f s
  | .wrReq p f => Sys2Proof.Machine.execWrReq p f s
  | .wrAck p f => Sys2Proof.Machine.execWrAck p f s
  | .atomReq p f => Sys2Proof.Machine.execAtomReq p f s
  | .atomRsp p f => Sys2Proof.Machine.execAtomRsp p f s
  | .feReq p f => Sys2Proof.Machine.execFeReq p f s
  | .feRsp p f => Sys2Proof.Machine.execFeRsp p f s
  | .feWithdraw p f => Sys2Proof.Machine.execFeWithdraw p f s
  | .fenceSig p f => Sys2Proof.Machine.execFenceSig p f s
  | .fenceAck p f => Sys2Proof.Machine.execFenceAck p f s
  | .collData p f => Sys2Proof.Machine.execCollData p f s
  | .collCredit p f => Sys2Proof.Machine.execCollCredit p f s
  | .collAbort p f => Sys2Proof.Machine.execCollAbort p f s
  | .fwRelayStart p f => Sys2Proof.Machine.execFwRelayStart p f s
  | .fwRelayData p f => Sys2Proof.Machine.execFwRelayData p f s
  | .fwRelayEnd p f e => Sys2Proof.Machine.execFwRelayEnd p f e s
  | .fwRelayActivate p f e => Sys2Proof.Machine.execFwRelayActivate p f e s
  | .probe p f => Sys2Proof.Machine.execProbe p f s
  | .nak p nbr lseq => Sys2Proof.Machine.execNak p nbr lseq s
  | .retransmissionTimer p nbr => Sys2Proof.Machine.execRetransmissionTimer p nbr s
  | .lackStall p => Sys2Proof.Machine.execLackStall p s
  | .silitRetrainTimeout p => Sys2Proof.Machine.execSilitRetrainTimeout p s
  | .portTrainingRetry p l => Sys2Proof.Machine.execPortTrainingRetry p l s
  | .ptpSync p m => Sys2Proof.Machine.execPtpSync p m s
  | .announce p m => Sys2Proof.Machine.execAnnounce p m s
  | .delayResp p m => Sys2Proof.Machine.execDelayResp p m s
  | .syncLoss => Sys2Proof.Machine.execSyncLoss s
  | .perstAssert => Sys2Proof.Machine.execPerstAssert s
  | .chipResetRelease e => Sys2Proof.Machine.execChipResetRelease e s
  | .januaryFlashPoll => Sys2Proof.Machine.execJanuaryFlashPoll s
  | .pwrgoodFall => Sys2Proof.Machine.execPwrgoodFall s
  | .hotReset => Sys2Proof.Machine.execHotReset s
  | .secondaryBusReset => Sys2Proof.Machine.execSecondaryBusReset s
  | .linkDisable => Sys2Proof.Machine.execLinkDisable s
  | .surpriseLinkDown => Sys2Proof.Machine.execSurpriseLinkDown s
  | .flr => Sys2Proof.Machine.execFlr s
  | .cxlReset memClr => Sys2Proof.Machine.execCxlReset memClr s
  | .d3hotEntry => Sys2Proof.Machine.execD3hotEntry s
  | .d3hotToD0 => Sys2Proof.Machine.execD3hotToD0 s
  | .hostLinkTrained mode lanes gts => Sys2Proof.Machine.execHostLinkTrained mode lanes gts s
  | .doeDiscovery inst index => Sys2Proof.Machine.execDoeDiscovery inst index s
  | .tableAccess entry => Sys2Proof.Machine.execTableAccess entry s
  | .doeAbort inst => Sys2Proof.Machine.execDoeAbort inst s
  | .getVersion path => Sys2Proof.Machine.execGetVersion path s
  | .getCapabilities path => Sys2Proof.Machine.execGetCapabilities path s
  | .negotiateAlgorithms path => Sys2Proof.Machine.execNegotiateAlgorithms path s
  | .getDigests path => Sys2Proof.Machine.execGetDigests path s
  | .getCertificate path slot off len => Sys2Proof.Machine.execGetCertificate path slot off len s
  | .challenge path slot nonce => Sys2Proof.Machine.execChallenge path slot nonce s
  | .getMeasurements path op nonce => Sys2Proof.Machine.execGetMeasurements path op nonce s
  | .armedInstant => Sys2Proof.Machine.execArmedInstant s
  | .diesStarted => Sys2Proof.Machine.execDiesStarted s
  | .dieStartTimeout => Sys2Proof.Machine.execDieStartTimeout s
  | .d2dLinkFailure die => Sys2Proof.Machine.execD2dLinkFailure die s
  | .regionNetworkError r => Sys2Proof.Machine.execRegionNetworkError r s
  | .regionManagerSilent r => Sys2Proof.Machine.execRegionManagerSilent r s
  | .regionSlow r => Sys2Proof.Machine.execRegionSlow r s
  | .fwFault die => Sys2Proof.Machine.execFwFault die s
  | .ctlWatchdog => Sys2Proof.Machine.execCtlWatchdog s
  | .tokenRateMeasure r m => Sys2Proof.Machine.execTokenRateMeasure r m s
  | .powerManagerTick m => Sys2Proof.Machine.execPowerManagerTick m s
  | .energySplit m => Sys2Proof.Machine.execEnergySplit m s
  | .powerSample => Sys2Proof.Machine.execPowerSample s
  | .beat => Sys2Proof.Machine.execBeat s
  | .sensorSample m => Sys2Proof.Machine.execSensorSample m s
  | .pwrBrakeAssert => Sys2Proof.Machine.execPwrBrakeAssert s
  | .pwrBrakeRelease => Sys2Proof.Machine.execPwrBrakeRelease s
  | .pwroffReq => Sys2Proof.Machine.execPwroffReq s
  | .setEndpointId eid => Sys2Proof.Machine.execSetEndpointId eid s
  | .setEventReceiver eid => Sys2Proof.Machine.execSetEventReceiver eid s
  | .pldmSensorRead id => Sys2Proof.Machine.execPldmSensorRead id s
  | .pldmEffecterSet id v => Sys2Proof.Machine.execPldmEffecterSet id v s
  | .eventAcknowledge => Sys2Proof.Machine.execEventAcknowledge s
  | .extest => Sys2Proof.Machine.execExtest s
  | .idcode => Sys2Proof.Machine.execIdcode s
  | .samplePreload pins pre => Sys2Proof.Machine.execSamplePreload pins pre s
  | .clamp => Sys2Proof.Machine.execClamp s
  | .highz => Sys2Proof.Machine.execHighz s
  | .extestPulse => Sys2Proof.Machine.execExtestPulse s
  | .extestTrain => Sys2Proof.Machine.execExtestTrain s
  | .bypass c => Sys2Proof.Machine.execBypass s c
  | .dieInternalError die => Sys2Proof.Machine.execDieInternalError die s
  | .ndrCmp p load => Sys2Proof.Machine.execNdrCmp p load s
  | .expanderEventRecord p exp => Sys2Proof.Machine.execExpanderEventRecord p exp s
  | .controlUnit p lack nak cr0 cr1 => Sys2Proof.Machine.execControlUnit p lack nak cr0 cr1 s
  | .silitPortUp p l => Sys2Proof.Machine.execSilitPortUp p l s
  | .farTierLinkUp p e => Sys2Proof.Machine.execFarTierLinkUp p e s
  | .followUp p m => Sys2Proof.Machine.execFollowUp p m s
  | .delayReq p => Sys2Proof.Machine.execDelayReq p s
  | .lldp p => Sys2Proof.Machine.execLldp p s
  | .pfc p prio pause => Sys2Proof.Machine.execPfc p prio pause s
  | .temperatureReading site ch die t => Sys2Proof.Machine.execTemperatureReading site ch die t s
  | .testLogicReset => Sys2Proof.Machine.execTestLogicReset s
  | .pwroffReqNRelease => Sys2Proof.Machine.execPwroffReqNRelease s

end Sys2Proof.Machine
end

