-- ==== Sys2Proof/Machine/Wire.lean ====
section
/-!
DEFINITION. Silit frames as bytes: header, payload and CRC trailer (R346, R347), the 64-byte units of a NATIVE link
(R349), the Ethernet frame of an ENCAP port (R350).
-/

namespace Sys2Proof.Machine

/-! ### The frame (R346) -/

/-- R346: the 32-byte header. Reserved bits are 0. -/
def frameHeader (type : Nat) (f : Frame) : List Byte :=
  natLe 2 f.dst.toNat ++ natLe 2 f.src.toNat ++ natLe 1 type ++ natLe 1 (f.hops.toNat + 16 * b2n f.vc)
    ++ natLe 2 (f.data.length % 8192 + 8192 * f.status.toNat) ++ natLe 4 f.lseq.toNat ++ natLe 4 f.lack.toNat
    ++ natLe 2 f.tid.toNat ++ natLe 1 f.tepoch.toNat ++ natLe 1 (f.size.toNat + 8 * b2n f.sign + 16 * f.aop.toNat)
    ++ natLe 8 f.addr.toNat ++ natLe 4 f.arg.toNat

/-- R346: header and payload, followed by their CRC-32C (R204). -/
def frameBytes (type : Nat) (f : Frame) : List Byte :=
  let l := frameHeader type f ++ f.data
  l ++ natLe 4 (crc32c l)

/-- R346, R347: the frame whose bytes are `l`, and its type: `good` says whether length and trailer agree with them. -/
def frameOf (l : List Byte) : Nat × Frame :=
  let n := fun (o k : Nat) => leNat ((l.drop o).take k)
  let len := n 6 2 % 8192
  let body := l.take (32 + len)
  (n 4 1, {
    dst := BitVec.ofNat 16 (n 0 2), src := BitVec.ofNat 16 (n 2 2), hops := BitVec.ofNat 4 (n 5 1)
    vc := (n 5 1).testBit 4, status := BitVec.ofNat 3 (n 6 2 / 8192), lseq := BitVec.ofNat 32 (n 8 4)
    lack := BitVec.ofNat 32 (n 12 4), tid := BitVec.ofNat 16 (n 16 2), tepoch := BitVec.ofNat 8 (n 18 1)
    size := BitVec.ofNat 3 (n 19 1), sign := (n 19 1).testBit 3, aop := BitVec.ofNat 4 (n 19 1 / 16)
    addr := BitVec.ofNat 64 (n 20 8), arg := BitVec.ofNat 32 (n 28 4), data := (l.drop 32).take len
    good := l.length == 36 + len && n (32 + len) 4 == crc32c body })

/-! ### On a NATIVE link (R349) -/

/-- R349: the 64-byte units of a frame: the header starts a unit, and zeros fill the last before its trailer. -/
def frameUnits (type : Nat) (f : Frame) : List Byte :=
  let l := frameHeader type f ++ f.data
  let pad := (64 - (l.length + 4) % 64) % 64
  l ++ List.replicate pad 0 ++ natLe 4 (crc32c l)

/-- R349: the control units sent after so many frame units: one after every 20. -/
def controlUnits (n : Nat) : Nat := n / 20

/-! ### On an ENCAP port (R350) -/

/-- R350: the Ethernet frame, its FCS left to the port: the neighbour's MAC, the port's, the neighbour's 802.1Q tag if it
has one, the EtherType, and the Silit frame with its trailer. -/
def State.etherFrame (s : State) (p nbr type : Nat) (f : Frame) : List Byte :=
  let tag := if s.flag .FAB_NBR_vlan_en nbr then
      natBe 2 0x8100 ++ natBe 2 (s.fld .FAB_NBR_vlan nbr + 8192 * s.fld .FAB_NBR_pcp nbr)
    else []
  natBe 6 (s.fld .FAB_NBR_mac nbr) ++ natBe 6 (s.fld .FAB_PORT_MAC_mac p) ++ tag
    ++ natBe 2 (s.fld .FAB_CFG_ethertype 0) ++ frameBytes type f

/-- What a frame becomes on a link of a port. -/
def State.onWire (s : State) (p nbr type : Nat) (f : Frame) : List Byte :=
  if s.fld .FAB_PORT_CFG_mode p = modeEncap then s.etherFrame p nbr type f else frameUnits type f

end Sys2Proof.Machine
end

