-- ==== Sys2Proof/Machine/Dump.lean ====
section
/-!
DEFINITION. The December dump (R433, R434) and its host copy (R435): what steps 5 to 7 of a fatal stop (R431) write. Log
entry 21 fixes what R434 leaves open of the sections' layout.
-/

namespace Sys2Proof.Machine

/-! ### Registers as bytes -/

/-- The instances of a register. -/
def Reg.count (r : Reg) : Nat := (r.desc.dims.map (·.1)).foldl (· * ·) 1

/-- The bytes of an instance of a register, and of all its instances in order. -/
def State.regBytes (s : State) (r : Reg) (i : Nat) : List Byte := natLe (r.desc.width / 8) (s.readReg r i)
def State.regsBytes (s : State) (l : List Reg) : List Byte :=
  l.flatMap (fun r => (List.range r.count).flatMap (s.regBytes r))

/-- The registers that each section names, in the order of the register table. -/
def devRegList : List Reg :=
  [.HIF_PROMPT_ID, .HIF_PROMPT_STATE, .HIF_PROMPT_TIME, .HIF_PROMPT_BEAT, .HIF_PROMPT_FATAL, .HIF_PROMPT_POWER,
    .HIF_PROMPT_QUEUE, .HIF_PROMPT_FENCE, .CFG_MARCH_STATUS, .CFG_MARCH_ENTRY, .RAS_FATAL, .RAS_FATAL_TIME]
def rgnRegList : List Reg :=
  [.REG_STATUS, .REG_SPEED, .REG_BLOCK_MAP, .REG_PMC_CTL, .REG_PMC_SEL, .REG_PMC_VAL, .REG_PMC_SNAP,
    .REG_PMC_SNAP_TIME, .REG_PMC_ONLINE_NS, .BLK_CELL_MAP, .BLK_HALTED, .BLK_ABFT_CTL, .BLK_ABFT_COUNT,
    .BLK_L2_STATUS, .BLK_L2_ECC, .BLK_L2_ERR_ADDR]
def cellRegList : List Reg :=
  [.CEL_STATUS, .CEL_HALT_INFO, .CEL_HALT_PC, .CEL_HALT_ADDR, .CEL_HALT_TIME, .CEL_STORE_LOST, .CEL_GRP_PC,
    .CEL_GRP_MASK, .CEL_GRP_WAIT, .CEL_TS_MPC, .CEL_TS_STATE, .CEL_TS_RETIRED, .CEL_TS_QUEUES, .CEL_TS_APPEND,
    .CEL_MX_STATE, .CEL_ABFT_INFO, .CEL_ABFT_RETRIES, .CEL_LUT_STATE, .CEL_CACHE_MODE, .CEL_ECC_COUNT,
    .CEL_TCHK_COUNT, .CEL_TCHK_CRC, .CEL_TCHK_ENTRY]
def queueRegList : List Reg :=
  [.CFE_Q_CFG, .CFE_Q_BASE, .CFE_Q_WPTR, .CFE_Q_RPTR, .CFE_Q_STATUS, .CFE_Q_SEQ, .CFE_Q_DONE, .CFE_Q_FAULT_SEQ,
    .CFE_Q_FAULT_STEP, .CFE_Q_MARK, .CFE_Q_BUDGET, .CFE_Q_CHAIN, .CFE_Q_CHAIN_LEFT, .CFE_Q_DB_STALE,
    .CFE_ASC_STATE, .CFE_ASC_ROOT, .CFE_ASC_FAULT, .CFE_Q_CMPL, .CFE_Q_IRQ]
def placeRegList : List Reg :=
  [.PLE_CTL, .PLE_SEASON, .PLE_WATER, .PLE_WP, .PLE_CAP_CLOSE, .PLE_CAP_FAR, .PLE_CAP_COMMIT, .PLE_SEASON_COUNT,
    .PLE_PAGE_COUNT, .PLE_MIG_STAT, .PLE_QUERY_DPN, .PLE_QUERY_ENTRY, .PLE_MID, .PLE_RGN_TB]
def fabRegList : List Reg :=
  [.FAB_ID, .FAB_CFG, .FAB_COUNT, .FAB_PORT_CFG, .FAB_PORT_STATUS, .FAB_PORT_ERR, .FAB_PORT_MAC, .FAB_ROUTE,
    .FAB_NBR, .FAB_EXPORT, .FAB_CGRP, .FAB_CGRP_MEMBERS, .TIM_NOW, .TIM_FINE, .TIM_STATUS, .TIM_GM, .TIM_CFG]
def memRegList : List Reg :=
  [.RAS_SCD_STATUS, .RAS_SCD_ECC, .RAS_SCD_TILES, .MEM_MID_FE, .MEM_SITE_STATUS, .MEM_SITE_ERR,
    .MEM_SITE_ERR_ADDR, .FTP_STATUS, .FTP_CTL, .FTP_ERR, .FTP_DIE_FE, .FTP_EXP, .RAS_FATAL, .RAS_FATAL_TIME,
    .RAS_PRESET_CTL, .RAS_PRESET_STATUS, .RAS_DUMP_HOST, .RAS_DUMP_HOST_SIZE, .RAS_DUMP_STATUS, .RAS_DUMP_WIN,
    .RAS_UNIT, .RAS_RGN_CAUSE]

/-! ### The sections (R434) -/

/-- The sizes of the sections of R434 in KiB, in order of their IDs from 1. -/
def sectionKiB : List Nat := [80, 384, 10368, 1280, 5120, 64, 128, 2048, 2304, 64, 10240, 64, 512, 4096, 16384]

/-- The offset of section `i` in its piece: one after another from 0x1000, each 4 KiB-aligned. DESIGN CHOICE, log entry
21. -/
def sectionOff (i : Nat) : Nat := 0x1000 + 1024 * (sectionKiB.take i).sum

/-- The registers of a physical cell. -/
def State.cellBytes (s : State) (c : Nat) : List Byte :=
  padTo 4096 (cellRegList.flatMap (fun r =>
    let n := r.count / 2592
    (List.range n).flatMap (fun j => s.regBytes r (c * n + j))))

/-- An entry of the packet pool: the packet, its queue, its sequence number, its state. -/
def Pkt.bytes (p : Pkt) : List Byte :=
  padTo 80 (p.words.flatMap (fun w => natLe 8 w.toNat) ++ natLe 2 p.q ++ natLe 8 p.seq
    ++ natLe 1 (match p.st with | .fetched => 0 | .running => 1) ++ natLe 2 p.fault)

/-- A fence's value, control and status. -/
def State.fenceBytes (s : State) (f : Nat) : List Byte :=
  padTo 32 (s.regBytes .CFE_FENCE_VALUE f ++ s.regBytes .CFE_FENCE_CTL f ++ natLe 4 0 ++ s.regBytes .CFE_FENCE_STATUS f)

/-- The promotion queues, 4 KiB for each MID, and the migration tables, 16 bytes an entry. -/
def State.placeBytes (s : State) : List Byte :=
  (List.range 4).flatMap (fun k => padTo 4096 ((mapGet [] s.promo k).flatMap (natLe 4)))
    ++ s.migs.flatMap (fun m => padTo 16 (natLe 4 m.dpn ++ natLe 1 m.loc ++ natLe 4 m.frame ++ natLe 1 m.pass))

/-- The header of a frame (R346). -/
def FrameHdr.bytes (h : FrameHdr) : List Byte := frameHeader h.type { h.head with data := List.replicate h.len 0 }

/-- The last frame headers sent and received on each port, 128 KiB for each direction. -/
def State.hdrBytes (s : State) : List Byte :=
  (List.range 24).flatMap (fun k => padTo 0x20000 ((mapGet [] s.hdrs k).flatMap FrameHdr.bytes))

/-- R434: the contents of section `i`; the control-die firmware's log, whose entries no rule gives, is open. -/
def State.sectionBytes (s : State) (i : Nat) : List Byte :=
  let size := 1024 * sectionKiB.getD i 0
  match i with
  | 0 => padTo size (s.regsBytes devRegList)
  | 1 => padTo size (s.regsBytes rgnRegList)
  | 2 => (List.range 2592).flatMap s.cellBytes
  | 3 => padTo size (s.regsBytes queueRegList)
  | 4 => padTo size (s.pool.flatMap Pkt.bytes)
  | 5 => (List.range 256).flatMap (fun k => natLe 256 (s.fld .CFE_CAPTURE_capture k))
  | 6 => (List.range 4096).flatMap s.fenceBytes
  | 7 => padTo size (s.fenceWaiters.flatMap s.dumpFence)
  | 8 => padTo size (s.waiters.flatMap s.dumpFe)
  | 9 => padTo size (s.regsBytes placeRegList ++ s.placeBytes)
  | 10 => padTo size (s.regsBytes fabRegList ++ s.hdrBytes)
  | 11 => padTo size (s.regsBytes memRegList)
  | 12 => padTo size (s.pwr.ring.flatMap PwrSample.bytes)
  | 13 => (List.range 65536).flatMap s.acctBytes
  | _ => padTo size (Config.freeBytes s.free size)

/-- The dies that a section is gathered from, apart from the control die. -/
def sectionDies (i : Nat) : List Nat :=
  match i with
  | 1 => List.range 24
  | 2 => List.range 24
  | 8 => [24, 25, 26, 27, 37, 38]
  | 9 => [24, 25, 26, 27]
  | 10 => [30, 31, 32, 33, 34, 35]
  | 11 => [24, 25, 26, 27, 28, 29, 37, 38]
  | _ => []

/-- R434: whether a section can be gathered: not where a die that it comes from is the one that D2D_LINK or DIE_INTERNAL
names. DESIGN CHOICE, log entry 21. -/
def State.gathers (s : State) (i : Nat) : Bool :=
  let code := s.fld .RAS_FATAL_fatal_code 0
  !((code == 0x0201 || code == 0x0206) && (sectionDies i).contains (s.fld .RAS_FATAL_die 0))

/-- A section as it is written: zeros where it is not gathered. -/
def State.sectionOut (s : State) (i : Nat) : List Byte :=
  if s.gathers i then s.sectionBytes i else List.replicate (1024 * sectionKiB.getD i 0) 0

/-- R433: a directory entry. -/
def State.dirEntry (s : State) (i : Nat) : List Byte :=
  natLe 2 (i + 1) ++ [if s.gathers i then 1 else 0, 0] ++ natLe 8 (sectionOff i) ++ natLe 8 (1024 * sectionKiB.getD i 0)
    ++ natLe 4 (crc32c (s.sectionOut i)) ++ List.replicate 8 0

/-- R433: the header of piece `k`. -/
def State.pieceHeader (s : State) (k present : Nat) (primary complete : Bool) : List Byte :=
  let cnt := if primary then 15 else 0
  let l := natLe 4 0x44434544 ++ natLe 2 0x4812 ++ natLe 2 1 ++ natLe 1 k ++ natLe 1 present
    ++ natLe 2 (s.fld .RAS_FATAL_fatal_code 0) ++ List.replicate 4 0 ++ natLe 8 (s.fld .RAS_FATAL_TIME_tai_ns 0)
    ++ natLe 4 cnt ++ natLe 1 (b2n complete) ++ List.replicate 35 0
    ++ (List.range cnt).flatMap s.dirEntry ++ List.replicate ((64 - cnt) * 32) 0 ++ List.replicate 1980 0
  l ++ natLe 4 (crc32c l)

/-! ### The pieces (R433) -/

/-- R216, R433: the pieces present: piece `k` is on the site of MID `k` that holds a part of the dump region, if it is
ONLINE. -/
def State.pieceSites (s : State) : NMap Nat :=
  (List.range 4).filterMap (fun k =>
    (((List.range 3).map (3 * k + ·)).find? (fun i => s.flag .MEM_SITE_STATUS_dump_region i && s.locUp i)).map (fun i =>
      (k, i)))

/-- R216: where the piece on a site begins in memory. -/
def pieceBase (site : Nat) : Nat := site * 2 ^ 42 + 1029120 * 65536

/-- R238: whether some copy of slice `k` of the location table can be read. -/
def State.sliceReadable (s : State) (k : Nat) : Bool :=
  let c := mapGet (none, none) s.slices k
  let up := fun (o : Option Nat) => match o with | some i => s.locUp i | none => false
  up c.1 || up c.2

/-- The slice `k` written into a memory at an address: one entry for each DPN of the slice in order (R433). -/
def State.sliceTo (s : State) (k base : Nat) (m : NMap Byte) : NMap Byte :=
  s.loct.foldl (fun m e => if e.1 % 4 = k then putBytes m (base + 8 * (e.1 / 4)) (natLe 8 e.2.word) else m)
    (mapClear m base (base + 2 ^ 29))

/-- The header and the sections written into a memory at an address, as far as `room` bytes reach. -/
def State.primaryTo (s : State) (head : List Byte) (base room : Nat) (m : NMap Byte) : NMap Byte :=
  (List.range 15).foldl (fun m i => putBytes m (base + sectionOff i) ((s.sectionOut i).take (room - sectionOff i)))
    (putBytes m base (head.take room))

/-- R433: one piece written to close memory. -/
def State.pieceTo (s : State) (present : Nat) (primary : Bool) (k site : Nat) (m : NMap Byte) : NMap Byte :=
  let ok := s.sliceReadable k
  let head := s.pieceHeader k present primary ok
  let b := pieceBase site
  let m := mapClear m b (b + 2 ^ 30)
  let m := if primary then s.primaryTo head b (2 ^ 29) m else putBytes m b head
  if ok then s.sliceTo k (b + 2 ^ 29) m else m

/-- R435: the host copy of a dump: the primary piece, or without any the sections alone, and the slices that fit. -/
def State.hostCopy (s : State) (sites : NMap Nat) (present : Nat) : State :=
  if !s.flag .RAS_DUMP_HOST_host_en 0 || !s.hostUp then s
  else
    let base := s.fld .RAS_DUMP_HOST_base 0 * 4096
    let mib := s.fld .RAS_DUMP_HOST_SIZE_size_mib 0
    let head := match sites with | (k, _) :: _ => s.pieceHeader k present true (s.sliceReadable k) | [] => []
    let ks := (List.range 4).filter s.sliceReadable
    let m := s.primaryTo head base (mib * 2 ^ 20) s.hostMem
    let m := ks.foldl (fun m k => if 512 * (k + 2) > mib then m else s.sliceTo k (base + 2 ^ 29 * (k + 1)) m) m
    ({ s with hostMem := m } : State).setFlds 0 [(.RAS_DUMP_STATUS_host_written, 1),
      (.RAS_DUMP_STATUS_host_truncated, b2n (ks.any (fun k => decide (512 * (k + 2) > mib))))]

/-- R431 steps 5 to 7: the December dump, its host copy, `dump_valid` and the event. What the dump shows is the device as
the dump finds it. -/
def State.december (s : State) : State :=
  let sites := s.pieceSites
  let bit := fun (l : List Nat) => (l.map (2 ^ ·)).sum
  let present := bit (sites.map (·.1))
  let complete := bit ((sites.map (·.1)).filter s.sliceReadable)
  let mem := sites.foldl (fun m e => s.pieceTo present (some e == sites.head?) e.1 e.2 m) s.mem
  let t := ({ s.hostCopy sites present with mem := mem, dumpDue := false } : State).drew 1
  if sites.isEmpty then t
  else
    ({ t.setFlds 0 [(.RAS_DUMP_STATUS_pieces, complete), (.RAS_DUMP_STATUS_valid, 1), (.HIF_PROMPT_STATE_dump_valid, 1)]
      with dump := some ⟨complete, sites⟩ }).event

/-- R431 steps 5 to 7, where they are still to come. -/
def State.dumpStep (s : State) : State := if s.dumpDue then s.december else s

end Sys2Proof.Machine
end

