-- ==== Sys2Proof/Machine/Tick.lean ====
section
/-! DEFINITION. What a nanosecond of the device's time brings when no command waits: the time counter (R374), the
duration counters (R31, R35, R36, R314), the grants of the L1 ports (R59), the ages of packets (R281), the end of a
reset (R340) and of an orderly power-down (R450). Log entry 41. -/

namespace Sys2Proof.Machine

/-- R31, R35: `d` nanoseconds of a cell's duration events: 0x20 a resident group, 0x21 a macro-op in its array until it
retires, 0x22 groups that wait on memory: for an instruction's bytes, a result, a full memory request queue, a full/empty
word, a MEMBAR. The cell's time is metered while the device works (R314). -/
def State.tickCell (d : Nat) (s : State) (c : Nat) : State :=
  let x := s.cell c
  let s := if x.groups.isEmpty then s else s.cellPmc c 0x20 d
  let s := if x.arrayBusy then s.cellPmc c 0x21 d else s
  let onMem := fun (k : Nat) => ([1, 2, 4, 7] : List Nat).contains k || (k == 3 && decide (x.memQueue ≥ 32))
  let n := x.groups.countP (fun g => onMem (x.waitCode s.now g.1))
  let s := if n = 0 then s else s.cellPmc c 0x22 (n * d)
  if x.tbs.isEmpty || !s.alive then s
  else (s.meter (s.cellAcct c) .CFE_ACCT_cell_ns d).use (s.cellAcct c) (regionOf c) d

/-- R35: event 0x23, either link of a region refusing a request. The spec gives no state of the links' credit: a free
value of at most `d`, log entry 11. -/
def State.tickLinks (d : Nat) (s : State) (r : Nat) : State :=
  if (List.range 8).any (fun k => s.fld .REG_PMC_SEL_event (8 * r + k) == 0x23) then
    (s.pmc r 16 0x23 (s.freeAt 0 % (d + 1))).drew 1
  else s

/-- R33, R34: `d` nanoseconds of a region in ONLINE. -/
def State.tickRegion (d : Nat) (s : State) (r : Nat) : State :=
  if s.rgnUp r then s.addFld .REG_PMC_ONLINE_NS_online_ns r d else s

/-- R31: the durations of `d` nanoseconds of the time counter. -/
def State.tickDurations (s : State) (d : Nat) : State :=
  ((s.each (List.range 24) (State.tickRegion d)).each (List.range 24) (State.tickLinks d)).each s.cells
    (fun s e => s.tickCell d e.1)

/-- R59: one grant of every cell's L1 port. -/
def State.tickPorts (s : State) : State := s.each s.cells (fun s e => s.modCell e.1 Cell.l1Grant)

/-- One nanosecond of the oscillator, in which what can start counts as startable from its beginning (R281): the time
counter advances, by more or less as it is slewed; every duration follows the counter (R31). -/
def State.tick (s : State) : State :=
  if !s.pwr.pwrgood || s.pwr.regsOff || s.fld .HIF_PROMPT_STATE_boot_state 0 == 0 then s
  else
    let s := if s.alive then s.markStartable else s
    let t := s.advanceTime
    let s := ({ s with time := t } : State).tickDurations ((t.ns + 2 ^ 64 - s.time.ns) % 2 ^ 64)
    let s := s.fabricTick.dumpStep
    if s.alive then s.tickPorts.areaAll.resetCheck else s.offStep

end Sys2Proof.Machine
end

