-- ==== Sys2Proof/Safety.lean ====
section
/-!
DEFINITION. The terms in which claims speak of the machine: canonical memories, a group that can issue, the frame of an
instruction, a packet that its engine carries.
-/

namespace Sys2Proof.Machine

/-! ### Memories -/

/-- The memories of the device and of the host are in canonical form: addresses strictly rising, no entry that reads as
an unlisted one. -/
def State.memWf (s : State) : Bool :=
  mapWf 0 s.mem && mapWf 0 s.check && mapWf 0 s.full && mapWf 0 s.hostMem

/-! ### Thread instructions -/

/-- The group of a slot as its next instruction finds it: after the reconvergence check (R60). -/
def State.groupNow (s : State) (t : GTgt) : Option Group :=
  (s.group (cellNo t.cell) t.slot.val).map (fun g => { g.reconv with next := none })

/-- R58: a group is ready for an instruction that uses the registers `us`, with `mem` an entry of the memory request
queue, with `iter` tokens the iterative unit, and its turn has come. -/
def State.canIssue (s : State) (t : GTgt) (us : Uses) (mem : Bool) (iter : Nat := 0) : Bool :=
  let x := s.cell (cellNo t.cell)
  s.alive && x.state == .running
    && (match s.group (cellNo t.cell) t.slot.val with | some g => !g.ended && g.wait == .none | none => false)
    && !x.feOut t.slot.val && !x.awaits t.slot.val us && !(mem && decide (x.memQueue ≥ 32))
    && !(iter != 0 && decide (s.now < x.iter)) && x.chosen s.now t.slot.val

/-- The frame of an instruction: but for its group, now `g'`, the cell's own record of an issue (R58, R71), the
performance counters (R35), `ops` vector operations metered to the kernel's tag (R314), `drawn` free values used and the
iterative unit occupied for `iter` tokens (R57), nothing changes. -/
structure State.OnlyGroup (s s' : State) (t : GTgt) (g' : Group) (ops drawn : Nat) (iter : Nat := 0) : Prop where
  group : s'.group (cellNo t.cell) t.slot.val = some g'
  rest : s' = { s with cells := s'.cells, regs := s'.regs, free := s.free + drawn }
  cells : ∀ c, c ≠ cellNo t.cell → s'.cell c = s.cell c
  cell : s'.cell (cellNo t.cell) =
    { s.cell (cellNo t.cell) with
      groups := (s'.cell (cellNo t.cell)).groups, last := t.slot.val, progress := s.wdUntil
      iter := s.iterUntil (cellNo t.cell) iter }
  slots : ∀ k, k ≠ t.slot.val → s'.group (cellNo t.cell) k = s.group (cellNo t.cell) k
  regs : ∀ f i, f ≠ .REG_PMC_VAL_count → f ≠ .CFE_ACCT_vector_ops → s'.fld f i = s.fld f i
  meter : ∀ i, s'.fld .CFE_ACCT_vector_ops i % 2 ^ 64 =
    (s.fld .CFE_ACCT_vector_ops i + if s.cellAcct (cellNo t.cell) = some i then ops else 0) % 2 ^ 64

/-- An instruction wrote `n` thread registers from `r` on in the lanes of `m`, lane `l` the value `f l`; the group went
on to the next instruction, its predicates, uniform registers, masks and stack as before. -/
structure Group.Wrote (g g' : Group) (n r : Nat) (m : Mask) (f : Nat → Nat) : Prop where
  rest : g' = { g with v := g'.v, pc := g.pc + 8 }
  done : ∀ l, l < 32 → m.getLsbD l = true → g'.rd n r l = f l % 2 ^ (32 * n)
  other : ∀ k l, l < 32 → ¬ (m.getLsbD l = true ∧ r ≤ k ∧ k < r + n) → g'.v1 k l = g.v1 k l

/-- The exact value of a finite number; 0 where there is none. -/
def FVal.rat : FVal → ℚ
  | .fin neg m e => (if neg then -1 else 1) * (m : ℚ) * (2 : ℚ) ^ e
  | _ => 0

/-- A format's unit in the last place at a value: the distance of its codes in the binade of the value, and of its
subnormals below them. -/
def FFmt.ulp (f : FFmt) (y : ℚ) : ℚ := if y = 0 then 2 ^ f.qmin else 2 ^ max (Int.log 2 |y| - (f.mbits : Int)) f.qmin

/-- A code stands for a value within `tol`: a finite number that near, or, where the value so widened passes the largest
finite number, that number or the infinity of the value's sign (log entry 2). -/
def FFmt.Near (f : FFmt) (y tol : ℚ) (r : Nat) : Prop :=
  ((f.dec r).isFin = true ∧ |(f.dec r).rat - y| ≤ tol) ∨
  ((f.dec f.maxFin).rat < |y| + tol ∧ r % f.signBit ∈ [f.maxFin, f.maxFin + 1] ∧
    r.testBit (f.ebits + f.mbits) = decide (y < 0))

/-- R55 of a reciprocal: its special cases exact, else within 1 ulp. -/
def FFmt.RcpOk (f : FFmt) (a r : Nat) : Prop :=
  match f.dec a with
  | .nan => r = f.qnan
  | .inf neg => r = b2n neg * f.signBit
  | .fin neg m e =>
    if m = 0 then r = b2n neg * f.signBit + f.maxFin + 1
    else let y := (FVal.fin neg m e).rat⁻¹; f.Near y (f.ulp y) r

/-- R55 of a reciprocal square root: its special cases exact, else within 1 ulp; the root `y` of `y² v = 1`, in the
binade of `2^n`, lies from `x − u` to `x + u` for the result `x`. -/
def FFmt.RsqOk (f : FFmt) (a r : Nat) : Prop :=
  match f.dec a with
  | .nan => r = f.qnan
  | .inf neg => r = if neg then f.qnan else 0
  | .fin neg m e =>
    if m = 0 then r = b2n neg * f.signBit + f.maxFin + 1
    else if neg then r = f.qnan
    else
      let v := (FVal.fin neg m e).rat
      let x := (f.dec r).rat
      ∃ n : Int, let u : ℚ := 2 ^ (n - (f.mbits : Int))
        (2 ^ n) ^ 2 * v ≤ 1 ∧ 1 < (2 ^ (n + 1)) ^ 2 * v ∧ (f.dec r).isFin = true ∧ u ≤ x ∧ (x - u) ^ 2 * v ≤ 1 ∧
          1 ≤ (x + u) ^ 2 * v

/-- R50: the first source of an F0/F1 form in a lane, as an operand of `n` registers. -/
def Group.srcA (g : Group) (n : Nat) (f : AluForm) (l : Nat) : Nat := g.rd n (aluOps f).va l

/-- R50: the second source: registers, or the immediate, with `wide` extended for the 64-bit integer types. -/
def Group.srcB (g : Group) (n : Nat) (wide : Bool) (f : AluForm) (l : Nat) : Nat :=
  match (aluOps f).imm with
  | some x => immSrc wide (aluOps f).mod x
  | none => g.rd n (aluOps f).vb l

/-- R50: the third source, which in F1 is vd. -/
def Group.srcC (g : Group) (n : Nat) (f : AluForm) (l : Nat) : Nat := g.rd n (aluOps f).vc l

/-- An F0/F1 instruction that its group can execute: the group, now `g`, is ready, the guard and the form are legal, the
registers in range. -/
def State.canAlu (s : State) (t : GTgt) (i : AluI) (p : AluSpec) (g : Group) : Prop :=
  s.groupNow t = some g ∧ s.canIssue t (p.uses i.g i.f) false (p.iter (aluOps i.f).mod) = true ∧ guardOk i.g = true ∧
    p.legal i.f = true ∧ p.range i.f = false

/-- A group, now `g`, that is ready for an instruction with a guard, which uses the registers `us` and takes no entry of
the memory request queue (R58). -/
def State.canRun (s : State) (t : GTgt) (x : Guard) (us : Uses) (g : Group) : Prop :=
  s.groupNow t = some g ∧ s.canIssue t us false = true ∧ guardOk x = true

/-- A group, now `g`, that is ready for an F5 instruction, which is legal and uses the uniform registers `us`. -/
def State.canUni (s : State) (t : GTgt) (us : List Nat) (legal : Bool) (g : Group) : Prop :=
  s.groupNow t = some g ∧ s.canIssue t ⟨[], [], us⟩ false = true ∧ legal = true

/-- An instruction decided predicates: in the lanes of `m`, bit `l` of predicate `k` is `f k l`; nothing else of the
group changed but the pc. -/
structure Group.Decided (g g' : Group) (m : Mask) (f : Nat → Nat → Bool) : Prop where
  rest : g' = { g with p := g'.p, pc := g.pc + 8 }
  bits : ∀ k l, l < 32 → (g'.pr k).getLsbD l = if m.getLsbD l then f k l else (g.pr k).getLsbD l

/-- An instruction that issued and halted its cell, its group's registers as they were (R68, R464). -/
def State.haltedBy (s : State) (t : GTgt) (g : Group) (reason : Nat) (addr : Option Nat) : State :=
  (s.issued (cellNo t.cell) t.slot.val g).haltGroup (cellNo t.cell) t.slot.val reason addr

/-- What `memChk` answers where every lane may go on: the translated lanes, and the state. -/
def State.memOk (s : State) (c size : Nat) (need : Need) (here : Bool) (l : List (Nat × Nat)) :
    Option (State × List (Nat × Nat × Target)) :=
  match s.memChk c size need here l with
  | .ok s l => some (s, l)
  | _ => none

/-- Whether a memory instruction's translations wait on nothing. -/
def State.memNow (s : State) (c size : Nat) (need : Need) (here : Bool) (l : List (Nat × Nat)) : Bool :=
  match s.memChk c size need here l with
  | .wait _ => false
  | _ => true

/-- The lanes of an F2 instruction with their addresses (R50). -/
def Group.addrs (g : Group) (i : MemI) : List (Nat × Nat) := (lanesOf (g.acting i.g)).map (fun l => (l, memVa g i l))

/-- A group, now `g`, ready for an F2 instruction that is legal and names its registers rightly. -/
def State.canMem (s : State) (t : GTgt) (i : MemI) (p : MemSpec) (g : Group) : Prop :=
  s.groupNow t = some g ∧ s.canIssue t (p.uses i) true = true ∧ guardOk i.g = true ∧ p.legal i = true ∧ p.range i = false

/-- What the full/empty operations allow. -/
def specFe (op : Nat) : MemSpec :=
  let w := op == fePutOp || op == feUpdateOp
  { sizes := [3], vd := w || feReturns op, src := fun _ => if w then 2 else 0
    dst := fun _ => if feReturns op then 2 else 0, need := if feWrites op then .write else .read }

/-- The memory instructions that leave a request: what each allows, the kind of its request, a lane's operands. -/
def memRows : List ((GTgt → MemI → Instr) × MemSpec × (MemI → ReqKind) × (MemI → Group → Nat → Nat × Nat)) :=
  let atom := fun k op => (k, specAtom op, fun i => ReqKind.atom op i.vd.toNat i.size.toNat i.sign, fun i g l =>
    let n := sizeRegs i.size.toNat
    (g.rd n i.vd.toNat l, if op = opCas then g.rd n (i.vd.toNat + n) l else 0))
  let fe := fun k op => (k, specFe op, fun i => ReqKind.fe op i.vd.toNat, fun i g l =>
    if op = fePutOp ∨ op = feUpdateOp then (g.rd 2 i.vd.toNat l, 0) else (0, 0))
  let data := fun i g l => (Group.rd g (sizeRegs i.size.toNat) i.vd.toNat l, 0)
  let none := fun _ _ _ => (0, 0)
  [(.ld, specLd, fun i => .load i.vd.toNat i.size.toNat i.sign (i.hint == 0), none),
    (.st, specSt, fun i => .store i.size.toNat, data),
    (.stnt, specSt, fun i => .storeNt i.size.toNat, data),
    (.ldres, specLdres, fun i => .ldres i.vd.toNat i.size.toNat, none),
    (.stcond, specStcond, fun i => .stcond i.pd.toNat i.size.toNat, data),
    atom .atomAdd opAdd, atom .atomMin opMin, atom .atomMax opMax, atom .atomAnd opAnd, atom .atomOr opOr,
    atom .atomXor opXor, atom .atomExch opExch, atom .atomCas opCas, atom .atomFadd opFadd,
    fe .feTake feTakeOp, fe .fePeek fePeekOp, fe .fePut fePutOp, fe .feUpdate feUpdateOp, fe .feClear feClearOp]

/-- The instructions of the formats F0 and F1, with what each allows. -/
def aluRows : List ((GTgt → AluI → Instr) × AluSpec) :=
  [(.iadd, specIadd), (.isub, specIsub), (.imul, specImul), (.imulhi, specImulhi), (.imad, specImad), (.imin, specImin),
    (.imax, specImax), (.iabs, specIabs), (.land, specAnd), (.lor, specOr), (.xor, specXor), (.lnot, specNot),
    (.shl, specShl), (.shr, specShr), (.sar, specSar), (.popc, specPopc), (.clz, specClz), (.brev, specBrev),
    (.mov, specMov), (.bfe, specBfe), (.bfi, specBfi)] ++
  [(.fadd, specFadd), (.fmul, specFmul), (.ffma, specFfma), (.fmin, specFmin), (.fmax, specFmax), (.fabs, specFabs),
    (.fneg, specFneg), (.frcp, specFrcp), (.frsq, specFrsq), (.fsqrt, specFsqrt), (.fexp2, specFexp2),
    (.flog2, specFlog2), (.fsin, specFsin), (.fcos, specFcos), (.ffma2, specFfma2)] ++
  [(.hadd2, specHadd2), (.hmul2, specHmul2), (.hfma2, specHfma2), (.hmin2, specHmin2), (.hmax2, specHmax2),
    (.dadd, specDadd), (.dmul, specDmul), (.dfma, specDfma), (.dmin, specDmin), (.dmax, specDmax), (.drcp, specDrcp),
    (.drsq, specDrsq), (.dsqrt, specDsqrt), (.cvt, specCvt)]

/-- A form of the thread set as the checks of R464 see it: its instruction, the registers it uses, whether it takes an
entry of the memory request queue, whether its encoding is legal, whether it names a register it may not. -/
structure FormRow where
  instr : Instr
  uses  : Uses
  mem   : Bool := false
  legal : Bool
  range : Bool := false

/-- The forms beside those of `aluRows` and `memRows`: the lane moves, the predicates (F3), the branches (F4), the
uniform, tile, barrier and privileged instructions (F5), ULD, LDS and STS. -/
def formRows (t : GTgt) (a : AluI) (p : PredI) (b : BrI) (u : UniI) (m : MemI) : List FormRow :=
  let o := aluOps a.f
  let im := o.imm.getD 0
  let sw := if im = 0x09 ∨ im = 0x11 ∨ im = 0x12 then 2 else 1
  let uw := if o.mod ≥ 2 then 2 else 1
  let cw := if p.type.toNat ≥ 2 then 2 else 1
  let cmp := fun i w legal => (⟨i, ⟨regRun p.va.toNat w ++ regRun p.vb.toNat w, cmpPreds p, []⟩, false,
    guardOk p.g && legal, misReg w p.va.toNat || misReg w p.vb.toNat⟩ : FormRow)
  let br := fun i legal => (⟨i, ⟨[], guardPreds b.g, []⟩, false, guardOk b.g && legal, false⟩ : FormRow)
  let uni := fun i legal us => (⟨i, ⟨[], [], us⟩, false, legal, false⟩ : FormRow)
  let bare := fun i => uni i (uniLegal u false false false false false) []
  let d := u.ud.toNat
  let x := u.ua.toNat
  let y := u.ub.toNat
  let scr := fun i (q : MemSpec) => (⟨i, q.uses m, true, q.legal m, q.range m⟩ : FormRow)
  [⟨.shfl t a, ⟨[o.vd, o.va, o.vb], guardPreds a.g, []⟩, false, guardOk a.g && shflLegal a.f, false⟩,
    ⟨.sel t a, ⟨[o.vd, o.va, o.vb], o.vc % 8 :: guardPreds a.g, []⟩, false, guardOk a.g && selLegal a.f, false⟩,
    ⟨.s2v t a, ⟨regRun o.vd sw, guardPreds a.g, []⟩, false,
      guardOk a.g && (o.imm.isSome && decide (im < 0x14) && o.va == 0 && o.mod == 0), misReg sw o.vd⟩,
    ⟨.u2v t a, ⟨regRun o.vd uw, guardPreds a.g, [im]⟩, false,
      guardOk a.g && (o.imm.isSome && decide (im < 32) && o.va == 0), misReg uw o.vd⟩,
    ⟨.v2u t a, ⟨[o.va], guardPreds a.g, [im]⟩, false,
      guardOk a.g && (o.imm.isSome && decide (im < 32) && o.vd == 0 && o.mod == 0), false⟩] ++
  [cmp (.icmp t p) cw (cmpLegal p 6 4), cmp (.fcmp t p) 1 (cmpLegal p 8 1), cmp (.dcmp t p) 2 (cmpLegal p 8 1),
    ⟨.plogic t p, ⟨[], p.pd.toNat :: p.va.toNat % 8 :: p.vb.toNat % 8 :: guardPreds p.g, []⟩, false,
      guardOk p.g && (predRsv p && decide (p.va.toNat < 8) && decide (p.vb.toNat < 8) && decide (p.cond.toNat < 4)
        && p.comb == 0 && p.pq == 0 && p.ps == 0 && p.type == 0), false⟩,
    ⟨.pany t p, ⟨[], p.pd.toNat :: p.ps.toNat :: guardPreds p.g, []⟩, false, guardOk p.g && (voteRsv p && p.va == 0), false⟩,
    ⟨.pall t p, ⟨[], p.pd.toNat :: p.ps.toNat :: guardPreds p.g, []⟩, false, guardOk p.g && (voteRsv p && p.va == 0), false⟩,
    ⟨.pmask t p, ⟨[p.va.toNat], p.ps.toNat :: guardPreds p.g, []⟩, false, guardOk p.g && (voteRsv p && p.pd == 0), false⟩] ++
  [br (.br t b) true, br (.exit t b) (noOff b), br (.barSync t b) (noOff b), br (.bkpt t b) (noOff b),
    br (.nopInstruction t b) (noOff b),
    ⟨.call t b, ⟨[], [], [31]⟩, false, guardOk b.g && (!b.g.ge && b.roff == 0), false⟩,
    ⟨.ret t b, ⟨[], [], [31]⟩, false, guardOk b.g && (!b.g.ge && noOff b), false⟩] ++
  [uni (.umov t u) (uniLegal u true true false false false) [d, x],
    uni (.uadd t u) (uniLegal u true true true false false) [d, x, y],
    uni (.uaddi t u) (uniLegal u true true false false true) [d, x],
    uni (.s2u t u) (uniLegal u true false false true false && u.sr.toNat != 0 && decide (u.sr.toNat < 0x14)) [d],
    uni (.tappendA t u) (uniLegal u false true true false false) [x, y],
    uni (.tappendX t u) (uniLegal u false true true false false) [x, y],
    uni (.twaitA t u) (uniLegal u false false false false true && decide (u.imm.toNat ≤ 7)) [],
    uni (.twaitX t u) (uniLegal u false false false false true && decide (u.imm.toNat ≤ 7)) [],
    bare (.membarCell t u), bare (.membarDevice t u), bare (.membarSystem t u), bare (.membarFabric t u),
    bare (.icinv t u), bare (.l1inv t u),
    ⟨.uld t u, ⟨[], [], [d, x]⟩, true, guardOk u.g && !u.g.ge && !u.rsv && u.ub == 0 && u.sr == 0, false⟩] ++
  [scr (.lds t m) { sizes := [0, 1, 2, 3, 4], sign := true, dst := sizeRegs },
    scr (.sts t m) { sizes := [0, 1, 2, 3, 4], src := sizeRegs }]

/-! ### Macro-ops -/

/-- R76, R77, R80 to R85: the start of a macro-op: its stream takes the word, its checks pass, the limits and the
extents in progress leave room, its lines are at hand, and its tag is popped. The state with the macro-op off the head,
its number, its word and its plan; none where it does not start. -/
def State.begins (s : State) (cid : CellId) (st : Stream) (op : Nat) (w : MacroWord) :
    Option (State × Nat × StreamWord × Plan) :=
  let c := cellNo cid
  (s.offer c st op w).bind fun a =>
    if !wordOk st op w a.2.appended || !(a.1.stream c st).room op then none
    else
      match planOf a.1 c st a.2 with
      | .error _ => none
      | .ok p =>
        if (a.1.stream c st).overlaps op p || p.hold then none
        else
          let popped :=
            if w.we then (a.1.popFor c st w).bind (fun b => if w.tchk ∧ b.2 ≠ w.tag then none else some b.1)
            else some a.1
          popped.map fun s2 =>
            (s2.modStream c st (fun x => { x with head := none, nextN := (s2.stream c st).nextN + 1 }),
              (s2.stream c st).nextN, a.2, p)

/-- What follows a macro-op's start: the next appended word is checked, signals and waiting groups go on (R64, R80, R84,
R87). -/
def State.afterStart (s : State) (cid : CellId) (st : Stream) : State :=
  (s.headCheck (cellNo cid) st).streamPoll planOf (cellNo cid)

/-! ### Packets -/

/-- The state and the packet that a packet's operation gets (R269, R270, R281): those of a packet carried on, or of one
that starts now; none where the packet's command has another effect or none. -/
def State.taken (s : State) (q seq : Nat) (kind : Pkt → Bool) : Option (State × Pkt) :=
  match s.pkt q seq with
  | none => none
  | some p =>
    if !s.ready || !kind p then none
    else if s.carriesOn p then some (s, p)
    else if p.st != .fetched || s.qState q != qActive || (s.depFailed p).isSome then none
    else
      let s := s.markStartable
      match p.cls.bind (fun c => (s.engineOf c).map (fun e => (c, e))) with
      | none => none
      | some (c, e) =>
        if ((s.choose c e).map (fun x => (x.q, x.seq))) != some (q, seq) then none
        else ((s.takePkt p e).pkt q seq).map (fun x => (s.takePkt p e, x))

/-- R275: every line of a range written back and invalidated, by its parts, where each address has a translation; none
where one has not, or where the host holds a line that the translation needs. -/
def State.linesOut (asc : Nat) (tag : Option Nat) : List (Nat × Nat) → State → Option State
  | [], s => some s
  | c :: t, s =>
    match s.access feMmu asc c.1 .read with
    | (.error _, _) => none
    | (.ok (.peer _ _), s) => State.linesOut asc tag t s
    | (.ok x, s) => State.linesOut asc tag t (s.dropLines tag x c.2)

/-- The packets whose commands go through the dependences and the arbitration of R269 to R283, with the test of a packet
for each. -/
def pktRows (e : FlashEnv) : List ((Fin 4096 → Nat → Instr) × (Pkt → Bool)) :=
  [(.launch, isOp 0x01), (.copyPkt, isOp 0x02), (.fill, isOp 0x03), (.fenceSignal, isOp 0x04), (.fenceWait, isOp 0x05),
    (.feWait, isOp 0x06), (.placeHint, isOp 0x07), (.timestamp, isOp 0x08), (.markPkt, isOp 0x09), (.membar, isOp 0x0A),
    (.allReduce, isAct 0x0B 0), (.reduceScatter, isAct 0x0B 1), (.allGather, isAct 0x0B 2), (.broadcast, isAct 0x0B 3),
    (.barrier, isAct 0x0B 4), (.invalidate, isOp 0x0C), (.nopPkt, isOp 0x0D)] ++
  [(.mapUpdateInvalidate, isAct 0x80 0), (.dpnAlloc, isAct 0x80 1), (.dpnFree, isAct 0x80 2), (.setRoot, isAct 0x80 3),
    (.ascCreate, isOp 0x81), (.ascDestroy, isOp 0x82), (.queueCreate, isAct 0x83 0), (.queueDestroy, isAct 0x83 1),
    (.queueStop, isAct 0x83 2), (.queueStart, isAct 0x83 3), (.queueResume, isAct 0x83 4), (.queueReset, isAct 0x83 5),
    (.assign, isAct 0x84 0), (.clear, isAct 0x84 1), (.prioSet, isOp 0x85), (.placePin, isOp 0x86), (.dumpSync, isOp 0x88),
    (.powerCap, isOp 0x89), ((fun q n => .fwStage q n e), isOp 0x8A), ((fun q n => .fwActivate q n e), isOp 0x8B),
    (.regWrite, isOp 0x8C)]

end Sys2Proof.Machine
end

