-- ==== Sys2Proof/Certificates/Slice0/Obligations.lean ====
section
/-!
DEFINITION. The statements for the provers.
-/

open Sys2Proof Sys2Proof.Machine

/-! ### Thread instructions: results -/

/-- R52, R53, R57: what each integer operation writes in its acting lanes, for the type `mod` selects, in every legal
form. IABS stands with the free values.
Of the model: how a group issues and occupies the iterative unit is log entry 44, what `vector_ops` counts log entry
20.
Completes: iadd, isub, imul, imulhi, imad, imin, imax, land, lor, xor, lnot, shl, shr, sar, popc, clz, brev, mov, bfe,
bfi. -/
def Obligations.IntegerResults : Prop :=
  ∀ r ∈ ([
      (.iadd, specIadd, fun ty a b _ => intOp ty (intVal ty a + intVal ty b)),
      (.isub, specIsub, fun ty a b _ => intOp ty (intVal ty a - intVal ty b)),
      (.imul, specImul, fun ty a b _ => intOp ty (intVal ty a * intVal ty b)),
      (.imulhi, specImulhi, fun ty a b _ => intOp ty (intVal ty a * intVal ty b / ((2 ^ intBits ty : Nat) : Int))),
      (.imad, specImad, fun ty a b c => intOp ty (intVal ty a * intVal ty b + intVal ty c)),
      (.imin, specImin, fun ty a b _ => if intVal ty a ≤ intVal ty b then a else b),
      (.imax, specImax, fun ty a b _ => if intVal ty b ≤ intVal ty a then a else b),
      (.land, specAnd, fun _ a b _ => a &&& b),
      (.lor, specOr, fun _ a b _ => a ||| b),
      (.xor, specXor, fun _ a b _ => a ^^^ b),
      (.lnot, specNot, fun ty a _ _ => 2 ^ intBits ty - 1 - a),
      (.shl, specShl, fun ty a b _ => if b % 256 ≥ intBits ty then 0 else a * 2 ^ (b % 256)),
      (.shr, specShr, fun ty a b _ => if b % 256 ≥ intBits ty then 0 else a / 2 ^ (b % 256)),
      (.sar, specSar, fun ty a b _ =>
        intOp ty (sgn (intBits ty) a / ((2 ^ min (b % 256) (intBits ty) : Nat) : Int))),
      (.popc, specPopc, fun ty a _ _ => popc (intBits ty) a),
      (.clz, specClz, fun ty a _ _ => clz (intBits ty) a),
      (.brev, specBrev, fun ty a _ _ => brev (intBits ty) a),
      (.mov, specMov, fun _ _ b _ => b),
      (.bfe, specBfe, fun ty a b _ => bfe (intBits ty) (intSigned ty) a b),
      (.bfi, specBfi, fun ty a b c => bfi (intBits ty) a b c)]
      : List ((GTgt → AluI → Instr) × AluSpec × (Nat → Nat → Nat → Nat → Nat))),
    ∀ t i s g, s.canAlu t i r.2.1 g →
      let ty := (aluOps i.f).mod
      let n := intW ty 0
      ∃ s' g', exec (r.1 t i) s = .next s' ∧
        s.OnlyGroup s' t g' (lanesOf (g.acting i.g)).length 0 (r.2.1.iter ty) ∧
        g.Wrote g' n (aluOps i.f).vd (g.acting i.g)
          (fun l => r.2.2 ty (g.srcA n i.f l) (g.srcB n true i.f l) (g.srcC n i.f l))

/-- R52, R55, R57: what each floating-point operation that rounds once, or not at all, writes in its acting lanes, by the
rounding mode of `mod`: FP32, packed FP16 and BF16 (R54: `mod`[3] selects BF16, `mod`[2] negates the third source), two
FP32 in FFMA2, FP64 in register pairs. The packed and double FP32 forms count twice in R314.
Of the model: how a group issues and occupies the iterative unit is log entry 44, what `vector_ops` counts log entry
20.
Completes: fadd, fmul, ffma, fmin, fmax, fabs, fneg, fsqrt, ffma2, hadd2, hmul2, hfma2, hmin2, hmax2, dadd, dmul,
dfma, dmin, dmax, dsqrt. -/
def Obligations.FloatResults : Prop :=
  ∀ r ∈ ([
      (.fadd, specFadd, 1, 1, fun m a b _ => fAdd .fp32 (Rnd.of m) a b),
      (.fmul, specFmul, 1, 1, fun m a b _ => fMul .fp32 (Rnd.of m) a b),
      (.ffma, specFfma, 1, 1, fun m a b c => fFma .fp32 (Rnd.of m) (m.testBit 2) a b c),
      (.fmin, specFmin, 1, 1, fun _ a b _ => fMinMax .fp32 false a b),
      (.fmax, specFmax, 1, 1, fun _ a b _ => fMinMax .fp32 true a b),
      (.fabs, specFabs, 1, 1, fun _ a _ _ => fAbs .fp32 a),
      (.fneg, specFneg, 1, 1, fun _ a _ _ => fNeg .fp32 a),
      (.fsqrt, specFsqrt, 1, 1, fun m a _ _ => fSqrt .fp32 (Rnd.of m) a),
      (.ffma2, specFfma2, 2, 2, fun m => halves 32 (fFma .fp32 (Rnd.of m) (m.testBit 2))),
      (.hadd2, specHadd2, 1, 2, fun m a b _ => halves 16 (fun x y _ => fAdd (packFmt m) (Rnd.of m) x y) a b 0),
      (.hmul2, specHmul2, 1, 2, fun m a b _ => halves 16 (fun x y _ => fMul (packFmt m) (Rnd.of m) x y) a b 0),
      (.hfma2, specHfma2, 1, 2, fun m => halves 16 (fFma (packFmt m) (Rnd.of m) (m.testBit 2))),
      (.hmin2, specHmin2, 1, 2, fun m a b _ => halves 16 (fun x y _ => fMinMax (packFmt m) false x y) a b 0),
      (.hmax2, specHmax2, 1, 2, fun m a b _ => halves 16 (fun x y _ => fMinMax (packFmt m) true x y) a b 0),
      (.dadd, specDadd, 2, 1, fun m a b _ => fAdd .fp64 (Rnd.of m) a b),
      (.dmul, specDmul, 2, 1, fun m a b _ => fMul .fp64 (Rnd.of m) a b),
      (.dfma, specDfma, 2, 1, fun m a b c => fFma .fp64 (Rnd.of m) (m.testBit 2) a b c),
      (.dmin, specDmin, 2, 1, fun _ a b _ => fMinMax .fp64 false a b),
      (.dmax, specDmax, 2, 1, fun _ a b _ => fMinMax .fp64 true a b),
      (.dsqrt, specDsqrt, 2, 1, fun m a _ _ => fSqrt .fp64 (Rnd.of m) a)]
      : List ((GTgt → AluI → Instr) × AluSpec × Nat × Nat × (Nat → Nat → Nat → Nat → Nat))),
    ∀ t i s g, s.canAlu t i r.2.1 g →
      let n := r.2.2.1
      ∃ s' g', exec (r.1 t i) s = .next s' ∧
        s.OnlyGroup s' t g' (r.2.2.2.1 * (lanesOf (g.acting i.g)).length) 0 (r.2.1.iter (aluOps i.f).mod) ∧
        g.Wrote g' n (aluOps i.f).vd (g.acting i.g)
          (fun l => r.2.2.2.2 (aluOps i.f).mod (g.srcA n i.f l) (g.srcB n false i.f l) (g.srcC n i.f l))

/-- R52, R55: the operations whose result the spec bounds or leaves open: in each acting lane the result is the model's
function of the operand and of that lane's free value; the run of free values moves on by 32.
R55: whatever the free value and the rounding mode: FRCP, FRSQ, DRCP and DRSQ give their special cases exactly and are
else within 1 ulp of the exact value; FEXP2 and FLOG2 are within 1 ulp of the exact value where the operand is an integer
or a power of two, else of the model's value in fixed point, which is known to 2^−128 of its binade or to 2^−96; FSIN and
FCOS of a finite operand up to 100π are finite and within 2^−21 of the model's value in fixed point of 192 bits; a NaN
gives the default quiet NaN. That the value is a free one within its bound, the fixed-point values, and what passes the
largest finite number are the model's: log entry 2.
Of the model: how a group issues and occupies the iterative unit is log entry 44, what `vector_ops` counts log entry
20.
Completes: iabs, frcp, frsq, fexp2, flog2, fsin, fcos, drcp, drsq. -/
def Obligations.FreeResults : Prop :=
  (∀ r ∈ ([
      (.iabs, specIabs, fun ty => intW ty 0, fun ty x a =>
        if intSigned ty = true ∧ a = 2 ^ (intBits ty - 1) then x % 2 ^ intBits ty else intOp ty (intVal ty a).natAbs),
      (.frcp, specFrcp, fun _ => 1, fun m x a => fRcp .fp32 (Rnd.of m) x a),
      (.frsq, specFrsq, fun _ => 1, fun m x a => fRsq .fp32 (Rnd.of m) x a),
      (.fexp2, specFexp2, fun _ => 1, fun m x a => fExp2 .fp32 (Rnd.of m) x a),
      (.flog2, specFlog2, fun _ => 1, fun m x a => fLog2 .fp32 (Rnd.of m) x a),
      (.fsin, specFsin, fun _ => 1, fun m x a => fTrig false (Rnd.of m) x a),
      (.fcos, specFcos, fun _ => 1, fun m x a => fTrig true (Rnd.of m) x a),
      (.drcp, specDrcp, fun _ => 2, fun m x a => fRcp .fp64 (Rnd.of m) x a),
      (.drsq, specDrsq, fun _ => 2, fun m x a => fRsq .fp64 (Rnd.of m) x a)]
      : List ((GTgt → AluI → Instr) × AluSpec × (Nat → Nat) × (Nat → Nat → Nat → Nat))),
    ∀ t i s g, s.canAlu t i r.2.1 g →
      let m := (aluOps i.f).mod
      let n := r.2.2.1 m
      ∃ s' g', exec (r.1 t i) s = .next s' ∧
        s.OnlyGroup s' t g' (lanesOf (g.acting i.g)).length 32 (r.2.1.iter m) ∧
        g.Wrote g' n (aluOps i.f).vd (g.acting i.g) (fun l => r.2.2.2 m (s.freeAt l) (g.srcA n i.f l))) ∧
  (∀ rm x a, (∀ f ∈ [FFmt.fp32, FFmt.fp64], f.RcpOk a (fRcp f rm x a) ∧ f.RsqOk a (fRsq f rm x a)) ∧
    let f := FFmt.fp32
    (f.dec a = .nan → fExp2 f rm x a = f.qnan ∧ fLog2 f rm x a = f.qnan ∧ ∀ c, fTrig c rm x a = f.qnan) ∧
    (∀ neg m e, f.dec a = .fin neg m e → let v := (FVal.fin neg m e).rat
      (∀ n : Int, v = n → f.Near (2 ^ n) (f.ulp (2 ^ n)) (fExp2 f rm x a)) ∧
      (let p := exp2Fix (exp2Arg neg m e)
        let y := (p.1 : ℚ) * 2 ^ p.2
        f.Near y (f.ulp y + 2 ^ p.2) (fExp2 f rm x a)) ∧
      (∀ n : Int, v = 2 ^ n → f.Near n (f.ulp n) (fLog2 f rm x a)) ∧
      (0 < v → let y := (log2Fix m e : ℚ) / 2 ^ 96
        f.Near y (f.ulp y + 1 / 2 ^ 96) (fLog2 f rm x a)) ∧
      (|v| * 2 ^ 192 ≤ 100 * (piQ : ℚ) → ∀ c, let z := f.dec (fTrig c rm x a)
        z.isFin = true ∧ |z.rat - (trigFix c (trigArg neg m e) : ℚ) / 2 ^ 192| ≤ 1 / 2 ^ 21)))

/-- R52, R54, R55: CVT between any two of its types, whatever the widths of both.
R52, R54, R67: the lane moves. SHFL takes its source register from the lane its mode names if that lane exists and is
active, else from its own; SEL chooses by a predicate; S2V reads a special register in each lane; U2V copies a uniform
register; V2U copies the lowest acting lane's register, zero-extended, and with no acting lane changes nothing.
Of the model: how a group issues and occupies the iterative unit is log entry 44, what `vector_ops` counts log entry
20, the base of a scratchpad share that S2V reads log entry 16.
Completes: cvt, shfl, sel, s2v, u2v, v2u. -/
def Obligations.ConversionsAndMoves : Prop :=
  (∀ t i s g d x, s.canAlu t i specCvt g → CvtType.of ((aluOps i.f).sub % 16) = some d →
    CvtType.of ((aluOps i.f).sub / 16) = some x →
    ∃ s' g', exec (.cvt t i) s = .next s' ∧
      s.OnlyGroup s' t g' (lanesOf (g.acting i.g)).length 0 ∧
      g.Wrote g' (if d.width = 64 then 2 else 1) (aluOps i.f).vd (g.acting i.g)
        (fun l => cvt (Rnd.of (aluOps i.f).mod) d x (g.srcA (if x.width = 64 then 2 else 1) i.f l))) ∧
  (∀ t i s g, let o := aluOps i.f
    let m := g.acting i.g
    let u := o.imm.getD 0
    let n := (lanesOf m).length
    (s.canRun t i.g ⟨[o.vd, o.va, o.vb], guardPreds i.g, []⟩ g → shflLegal i.f = true →
      ∃ s' g', exec (.shfl t i) s = .next s' ∧ s.OnlyGroup s' t g' n 0 ∧
        g.Wrote g' 1 o.vd m (fun l =>
          match shflSrc o.sub l (g.v1 o.vb l % 32) with
          | some k => if g.active.getLsbD k then g.v1 o.va k else g.v1 o.va l
          | none => g.v1 o.va l)) ∧
    (s.canRun t i.g ⟨[o.vd, o.va, o.vb], o.vc % 8 :: guardPreds i.g, []⟩ g → selLegal i.f = true →
      ∃ s' g', exec (.sel t i) s = .next s' ∧ s.OnlyGroup s' t g' n 0 ∧
        g.Wrote g' 1 o.vd m (fun l => if (g.pr (o.vc % 8)).getLsbD l then g.v1 o.va l else g.v1 o.vb l)) ∧
    (∀ w, w = (if u = 0x09 ∨ u = 0x11 ∨ u = 0x12 then 2 else 1) →
      s.canRun t i.g ⟨regRun o.vd w, guardPreds i.g, []⟩ g → o.imm.isSome = true → u < 0x14 → o.va = 0 → o.mod = 0 →
      o.vd % w = 0 →
      ∃ s' g', exec (.s2v t i) s = .next s' ∧ s.OnlyGroup s' t g' n 0 ∧
        g.Wrote g' w o.vd m (fun l => s.sr (cellNo t.cell) g l u)) ∧
    (∀ w, w = (if o.mod ≥ 2 then 2 else 1) →
      s.canRun t i.g ⟨regRun o.vd w, guardPreds i.g, [u]⟩ g → o.imm.isSome = true → u < 32 → o.va = 0 → o.vd % w = 0 →
      ∃ s' g', exec (.u2v t i) s = .next s' ∧ s.OnlyGroup s' t g' n 0 ∧
        g.Wrote g' w o.vd m (fun _ => g.ur u)) ∧
    (s.canRun t i.g ⟨[o.va], guardPreds i.g, [u]⟩ g → o.imm.isSome = true → u < 32 → o.vd = 0 → o.mod = 0 →
      ∃ s', exec (.v2u t i) s = .next s' ∧
        s.OnlyGroup s' t (match lanesOf m with | [] => g | l :: _ => g.setU u (g.v1 o.va l)).adv n 0))

/-- R52: the comparisons: in each acting lane pd takes the outcome, then with `comb` 1, 2 or 3 pq takes the conjunction,
the disjunction, or the old p[ps] without the outcome.
R52, R464: PLOGIC combines two predicates lane by lane; PANY and PALL write one decision over the acting lanes into each
of them; PMASK writes the mask of acting lanes with p[ps] true into va of each.
Of the model: how a group issues is log entry 44.
Completes: icmp, fcmp, dcmp, plogic, pany, pall, pmask. -/
def Obligations.Predicates : Prop :=
  (∀ t i s g, ∀ r ∈ ([
      (Instr.icmp t i, 6, 4, (if i.type.toNat ≥ 2 then 2 else 1),
        fun a b => icmpC i.cond.toNat (intVal i.type.toNat a) (intVal i.type.toNat b)),
      (Instr.fcmp t i, 8, 1, 1, fcmpC .fp32 i.cond.toNat),
      (Instr.dcmp t i, 8, 1, 2, fcmpC .fp64 i.cond.toNat)]
      : List (Instr × Nat × Nat × Nat × (Nat → Nat → Bool))),
    let va := i.va.toNat
    let vb := i.vb.toNat
    let w := r.2.2.2.1
    s.canRun t i.g ⟨regRun va w ++ regRun vb w, cmpPreds i, []⟩ g → cmpLegal i r.2.1 r.2.2.1 = true →
    va % w = 0 → vb % w = 0 →
      ∃ s' g', exec r.1 s = .next s' ∧ s.OnlyGroup s' t g' 0 0 ∧
        g.Decided g' (g.acting i.g) (fun k l =>
          let c := r.2.2.2.2 (g.rd w va l) (g.rd w vb l)
          let ps := (g.pr i.ps.toNat).getLsbD l
          if i.comb ≠ 0 ∧ k = i.pq.toNat then
            (if i.comb = 1 then ps && c else if i.comb = 2 then ps || c else ps && !c)
          else if k = i.pd.toNat then c
          else (g.pr k).getLsbD l)) ∧
  (∀ t i s g, let m := g.acting i.g
    let bit := fun (k l : Nat) => (g.pr k).getLsbD l
    let a := i.va.toNat
    let b := i.vb.toNat
    (s.canRun t i.g ⟨[], i.pd.toNat :: a % 8 :: b % 8 :: guardPreds i.g, []⟩ g → predRsv i = true → a < 8 → b < 8 →
      i.cond.toNat < 4 → i.comb = 0 → i.pq = 0 → i.ps = 0 → i.type = 0 →
      ∃ s' g', exec (.plogic t i) s = .next s' ∧ s.OnlyGroup s' t g' 0 0 ∧
        g.Decided g' m (fun k l => if k = i.pd.toNat then
          (match i.cond.toNat with
            | 0 => bit a l && bit b l
            | 1 => bit a l || bit b l
            | 2 => bit a l ^^ bit b l
            | _ => bit a l && !bit b l) else bit k l)) ∧
    (s.canRun t i.g ⟨[], i.pd.toNat :: i.ps.toNat :: guardPreds i.g, []⟩ g → voteRsv i = true → i.va = 0 →
      (∃ s' g', exec (.pany t i) s = .next s' ∧ s.OnlyGroup s' t g' 0 0 ∧
        g.Decided g' m (fun k l => if k = i.pd.toNat then (lanesOf m).any (bit i.ps.toNat)
          else bit k l)) ∧
      (∃ s' g', exec (.pall t i) s = .next s' ∧ s.OnlyGroup s' t g' 0 0 ∧
        g.Decided g' m (fun k l => if k = i.pd.toNat then (lanesOf m).all (bit i.ps.toNat)
          else bit k l))) ∧
    (s.canRun t i.g ⟨[a], i.ps.toNat :: guardPreds i.g, []⟩ g → voteRsv i = true → i.pd = 0 →
      ∃ s' g', exec (.pmask t i) s = .next s' ∧ s.OnlyGroup s' t g' 0 0 ∧
        g.Wrote g' 1 a m (fun _ => (m &&& g.pr i.ps.toNat).toNat)))

/-! ### Thread instructions: control -/

/-- R60: BR: without a lane that differs the group goes to the target or falls through; else it diverges as R60 says, and
a stack of 16 entries that would grow halts the cell with RECONV_OVERFLOW.
Of the model: how a group issues is log entry 44.
Completes: br. -/
def Obligations.Branches : Prop :=
  ∀ t i s g, s.canRun t i.g ⟨[], guardPreds i.g, []⟩ g →
    let target := g.pc + i.toff.signExtend 64 * 8
    let rpc := g.pc + i.roff.signExtend 64 * 8
    let taken := g.active &&& g.guardMask i.g
    let nt := g.active &&& ~~~g.guardMask i.g
    let go := fun g' => ∃ s', exec (.br t i) s = .next s' ∧ s.OnlyGroup s' t g' 0 0
    (nt = 0 → go { g with pc := target }) ∧
    (nt ≠ 0 → taken = 0 → go { g with pc := g.pc + 8 }) ∧
    (nt ≠ 0 → taken ≠ 0 → target ≠ rpc → g.pc + 8 ≠ rpc → (∀ e ∈ g.stack.head?, e.rpc ≠ rpc ∨ e.otherMask ≠ 0) →
      g.stack.length < 16 →
      go { g with pc := target, active := taken, stack := ⟨rpc, g.pc + 8, nt, g.active⟩ :: g.stack }) ∧
    (nt ≠ 0 → taken ≠ 0 → target ≠ rpc → g.pc + 8 ≠ rpc → ∀ e rest, g.stack = e :: rest → e.rpc = rpc → e.otherMask = 0 →
      go { g with pc := target, active := taken, stack := { e with otherPc := g.pc + 8, otherMask := nt } :: rest }) ∧
    (∀ g', brGo g target rpc (g.guardMask i.g) = .go g' → go g') ∧
    (brGo g target rpc (g.guardMask i.g) = .overflow → exec (.br t i) s = .next (s.haltedBy t g hrReconv none))

/-- R52, R61, R62, R70, R464: CALL, RET, EXIT, BAR_SYNC, BKPT and NOP.
R56, R154: the barriers leave their group waiting with the time of R186 and try both halves at once; ICINV and L1INV
empty their cache in a privileged kernel and halt the cell with PRIVILEGED_OP in any other.
Of the model: how a group issues is log entry 44.
Completes: call, ret, exit, barSync, bkpt, nopInstruction, membarCell, membarDevice, membarSystem, membarFabric,
icinv, l1inv. -/
def Obligations.ControlAndBarriers : Prop :=
  (∀ t i s g, let m := g.acting i.g
    let on := { g with pc := g.pc + 8 }
    let run := fun c g' => ∃ s', exec c s = .next s' ∧ s.OnlyGroup s' t g' 0 0
    (s.canRun t i.g ⟨[], [], [31]⟩ g → i.g.ge = false → i.roff = 0 →
      run (.call t i) { g.setU 31 (g.pc + 8).toNat with pc := g.pc + i.toff.signExtend 64 * 8 }) ∧
    (s.canRun t i.g ⟨[], [], [31]⟩ g → i.g.ge = false → i.roff = 0 → i.toff = 0 →
      (g.ur 31 % 8 = 0 → run (.ret t i) { g with pc := BitVec.ofNat 64 (g.ur 31) }) ∧
      (g.ur 31 % 8 ≠ 0 → exec (.ret t i) s = .next (s.haltedBy t g hrMisaligned none))) ∧
    (s.canRun t i.g ⟨[], guardPreds i.g, []⟩ g → i.roff = 0 → i.toff = 0 →
      (∀ e, e = { on with exited := g.exited ||| m, active := g.active &&& ~~~m } →
        let g' := if e.active = 0 then e.reconv else e
        ∃ s1, s.OnlyGroup s1 t g' 0 0 ∧ exec (.exit t i) s = .next (s1.groupEnded (cellNo t.cell) t.slot.val) ∧
          (g'.ended = false → s1.groupEnded (cellNo t.cell) t.slot.val = s1)) ∧
      (m = 0 → run (.barSync t i) on ∧ run (.bkpt t i) on) ∧
      (m ≠ 0 → exec (.bkpt t i) s = .next (s.haltedBy t g hrBreakpoint none)) ∧
      (m ≠ 0 → g.stack = [] → g.active = ~~~g.exited →
        ∃ s1, s.OnlyGroup s1 t { on with wait := .barrier } 0 0 ∧
          exec (.barSync t i) s = .next (s1.barRelease (cellNo t.cell) g.tb)) ∧
      (m ≠ 0 → (g.stack ≠ [] ∨ g.active ≠ ~~~g.exited) → exec (.barSync t i) s = .next (s.haltedBy t g hrBarDiverged none)) ∧
      run (.nopInstruction t i) on)) ∧
  (∀ t i s g, let c := cellNo t.cell
    let on := { g with pc := g.pc + 8 }
    s.canUni t [] (uniLegal i false false false false false) g →
    (∀ r ∈ ([(.membarCell, 0), (.membarDevice, 1), (.membarSystem, 2), (.membarFabric, 3)]
        : List ((GTgt → UniI → Instr) × Nat)),
      ∃ s1, s.OnlyGroup s1 t { on with wait := .membar r.2 (s.now + s.deadNs false) (s.cell c).nextReq s.now } 0 0 ∧
        exec (r.1 t i) s = .next (s1.membarTry c t.slot.val r.2 (s.cell c).nextReq)) ∧
    (∀ k, s.cellKernel c = some k →
      (k.priv = true →
        (∃ s1, s.OnlyGroup s1 t on 0 0 ∧
          exec (.icinv t i) s = .next (s1.modCell c (fun x => { x with ic := { x.ic with lines := [] } }))) ∧
        ∃ s1, s.OnlyGroup s1 t on 0 0 ∧
          exec (.l1inv t i) s = .next (s1.modCell c (fun x => { x with l1 := { x.l1 with lines := [] } }))) ∧
      (k.priv = false →
        exec (.icinv t i) s = .next (s.haltedBy t g hrPrivileged none) ∧
        exec (.l1inv t i) s = .next (s.haltedBy t g hrPrivileged none))))

/-- R47, R52, R67: the uniform instructions: u[ud] takes the value, nothing else of the group changes but the pc.
R63, R64, R78: TAPPEND puts its macro-op at the end of a stream's append buffer of at most 8, TWAIT lets its group go
on once few enough of them are left.
Of the model: how a group issues is log entry 44, what a stream shows and keeps log entry 20.
Completes: umov, uadd, uaddi, s2u, tappendA, twaitA, tappendX, twaitX. -/
def Obligations.UniformsAndAppends : Prop :=
  (∀ t i s g, let run := fun c v => ∃ s', exec c s = .next s' ∧ s.OnlyGroup s' t { g.setU i.ud.toNat v with pc := g.pc + 8 } 0 0
    let d := i.ud.toNat
    let a := g.ur i.ua.toNat
    (s.canUni t [d, i.ua.toNat] (uniLegal i true true false false false) g → run (.umov t i) a) ∧
    (s.canUni t [d, i.ua.toNat, i.ub.toNat] (uniLegal i true true true false false) g →
      run (.uadd t i) ((a + g.ur i.ub.toNat) % 2 ^ 64)) ∧
    (s.canUni t [d, i.ua.toNat] (uniLegal i true true false false true) g →
      run (.uaddi t i) (lowBits 64 ((a : Int) + sgn 24 i.imm.toNat))) ∧
    (s.canUni t [d] (uniLegal i true false false true false && i.sr.toNat != 0 && decide (i.sr.toNat < 0x14)) g →
      run (.s2u t i) (s.sr (cellNo t.cell) g 0 i.sr.toNat))) ∧
  (∀ t i s g, ∀ r ∈ ([(.tappendA, .twaitA, .access), (.tappendX, .twaitX, .execute)]
      : List ((GTgt → UniI → Instr) × (GTgt → UniI → Instr) × Stream)),
    let c := cellNo t.cell
    let on := { g with pc := g.pc + 8 }
    let x := s.stream c r.2.2
    let w := macroOf (g.ur i.ua.toNat + 2 ^ 64 * g.ur i.ub.toNat)
    (s.canUni t [i.ua.toNat, i.ub.toNat] (uniLegal i false true true false false) g → x.buf.length < 8 → g.stack = [] →
      g.active = ~~~g.exited → (∃ k, s.cellKernel c = some k ∧ k.tile = true) →
      ∃ s1, s.OnlyGroup s1 t on 0 0 ∧ exec (r.1 t i) s = .next ((s1.modStream c r.2.2 (fun x => { x with
        buf := x.buf ++ [⟨w.1, w.2, g.pc.toNat, true⟩], pend := x.pend + 1 })).headCheck c r.2.2)) ∧
    (s.canUni t [] (uniLegal i false false false false true && decide (i.imm.toNat ≤ 7)) g →
      ∃ s', exec (r.2.1 t i) s = .next s' ∧
        s.OnlyGroup s' t (if x.pend ≤ i.imm.toNat then on else { on with wait := .twait r.2.2 i.imm.toNat }) 0 0))

/-! ### The machine -/

/-- A step takes the command at the front of the queue and gives it the queue's rest; with an empty queue a step is one
nanosecond (the model's choice, log entry 41), in which a device without power, or not yet in its start-up, stays as it
is. -/
def Obligations.StepRuns : Prop :=
  (∀ c rest s, s.pending = c :: rest → step s = exec c { s with pending := rest }) ∧
  (∀ s, s.pending = [] → step s = .next s.tick ∧
    ((s.pwr.pwrgood = false ∨ s.pwr.regsOff = true ∨ s.fld .HIF_PROMPT_STATE_boot_state 0 = 0) → s.tick = s))

/-- After reset the queue is empty, no memory lists a byte, every register field reads its reset value (R7 to R12), no
cell, kernel, queue or packet is under way. Where the spec gives no reset value, the value is the model's: log entries 1,
3, 4 and 5. -/
def Obligations.ResetState : Prop :=
  State.reset.pending = [] ∧ State.reset.memWf = true ∧ (∀ f i, State.reset.fld f i = f.desc.reset) ∧
  (∀ a, mapGet 0 State.reset.mem a = 0 ∧ mapGet 0 State.reset.hostMem a = 0) ∧
  State.reset.cells = [] ∧ State.reset.kernels = [] ∧ State.reset.queues = [] ∧ State.reset.pool = []

/-- A register field written is that field alone, cut to its width: no two fields of any two registers, at any index,
share a home.
Bytes written to a memory read back, every byte outside them reads as before, and the memory keeps its canonical
form. -/
def Obligations.StorageHomes : Prop :=
  (∀ (s : State) f i v, (s.setFld f i v).fld f i = v % 2 ^ f.desc.width ∧
    (∀ g j, ¬ (g = f ∧ j = i) → (s.setFld f i v).fld g j = s.fld g j) ∧
    s.setFld f i v = { s with regs := (s.setFld f i v).regs }) ∧
  (∀ (m : NMap Byte) a (bs : List Byte),
    bytesAt (putBytes m a bs) a bs.length = bs ∧
    (∀ b, b < a ∨ a + bs.length ≤ b → mapGet 0 (putBytes m a bs) b = mapGet 0 m b) ∧
    (mapWf 0 m = true → mapWf 0 (putBytes m a bs) = true))

/-- Every step keeps the memories of the device and of the host in canonical form: addresses strictly rising, no entry
that reads as an unlisted one. The form, and that an unwritten byte reads 0, are the model's: log entries 4 and 13. -/
def Obligations.CanonicalMemory : Prop :=
  ∀ s s', s.memWf = true → step s = .next s' → s'.memWf = true

/-- R49 to R52: a thread instruction's word decodes to that instruction, every field at every value. -/
def Obligations.ThreadWords : Prop :=
  ∀ i t op b w, i.thread = some (t, op, b) → encodeThread i = some w → decodeThread t w = some i

/-- R79, R80: a macro-op's word decodes to that macro-op, every field at every value. -/
def Obligations.MacroWords : Prop :=
  ∀ i c st op m w, i.macroOp = some (c, st, op, m) → encodeMacro i = some w → decodeMacro c st w = some i

/-- R51, R52: the words of no thread instruction: a `fmt` above 5, or an `op` that the `fmt` does not list.
R46, R51, R464: an instruction of any form whose fields are not legal halts its cell with ILLEGAL_OPCODE, and a legal one
that names a register it may not, with REG_RANGE, whatever its lanes, none of its registers written. That the illegal
encoding comes first where both hold is the model's choice, since R464 gives no order: DESIGN CHOICE, log entry 45. -/
def Obligations.IllegalWords : Prop :=
  (∀ t (w : BitVec 64), decodeThread t w = none ↔
    ∀ i b op, i.thread = some (t, op, b) → encodeThread i ≠ some w) ∧
  ((∀ r ∈ aluRows, ∀ t i s g, s.groupNow t = some g → s.canIssue t (r.2.uses i.g i.f) false = true →
    ((guardOk i.g && r.2.legal i.f) = false → exec (r.1 t i) s = .next (s.haltedBy t g hrIllegal none)) ∧
    ((guardOk i.g && r.2.legal i.f) = true → r.2.range i.f = true →
      exec (r.1 t i) s = .next (s.haltedBy t g hrRegRange none))) ∧
  (∀ r ∈ memRows, ∀ t i s g, s.groupNow t = some g → s.canIssue t (r.2.1.uses i) true = true →
    (r.2.1.legal i = false → exec (r.1 t i) s = .next (s.haltedBy t g hrIllegal none)) ∧
    (r.2.1.legal i = true → r.2.1.range i = true → exec (r.1 t i) s = .next (s.haltedBy t g hrRegRange none))) ∧
  (∀ t a p b u m s g, ∀ r ∈ formRows t a p b u m, s.groupNow t = some g → s.canIssue t r.uses r.mem = true →
    (r.legal = false → exec r.instr s = .next (s.haltedBy t g hrIllegal none)) ∧
    (r.legal = true → r.range = true → exec r.instr s = .next (s.haltedBy t g hrRegRange none))))

/-! ### Thread instructions: checks -/

/-- R166: a group with a full/empty operation outstanding is not ready: no instruction of the thread set does anything
for it.
R68 to R70: a running cell that halts records the halt, becomes HALTED and runs no macro-op; a cell that has halted
keeps its first record, and is otherwise as it was.
R68, R71, R312, R419: the watchdog halts a running cell with thread blocks and no full/empty wait once its interval has
run out, and marks it for isolation the second time; the front end fails and aborts the kernel of a halted cell once.
Of the model: when the watchdog's interval begins is log entry 51, what a halted cell shows log entry 20.
Completes: watchdog, haltReport. -/
def Obligations.HaltsAndWaits : Prop :=
  (∀ i t op b s, i.thread = some (t, op, b) → (s.cell (cellNo t.cell)).feOut t.slot.val = true → exec i s = .next s) ∧
  (∀ (s : State) c h,
    ((s.cell c).state ≠ .running → s.haltCell c h = s) ∧
    ((s.cell c).state = .running →
      ((s.haltCell c h).cell c).state = .halted ∧
      ((s.haltCell c h).cell c).halt = ⟨h.reason, h.group, h.source, h.more, true, h.mask, h.pc % 2 ^ 57,
        (h.addr.getD 0) % 2 ^ 57, h.addr.isSome, s.now⟩ ∧
      ((s.haltCell c h).cell c).sa.prog = [] ∧ ((s.haltCell c h).cell c).sx.prog = [] ∧
      (s.haltCell c h).resv.all (fun r => r.cell != c) = true ∧
      (s.haltCell c h).waiters.all (fun w => !FeWaiter.ofCell c w) = true)) ∧
  (∀ cid s, let c := cellNo cid
    s.alive = true →
    (s.now < (s.cell c).progress → exec (.watchdog cid) s = .next s) ∧
    ((s.cell c).progress ≤ s.now → (s.cell c).state = .running → (s.cell c).tbs ≠ [] →
      (∀ i, i < 16 → (s.cell c).feOut i = false) →
      let s1 := (s.haltCell c ⟨hrWatchdog, 3, 0, 0, 0, none, false, 0⟩).modCell c (fun x => { x with wdogs := x.wdogs + 1 })
      exec (.watchdog cid) s = .next (if (s1.cell c).wdogs ≥ 2 then s1.markIsolate c else s1)) ∧
    ((s.cell c).state = .halted → (s.cell c).reported = false →
      let s1 := s.setCell c { s.cell c with reported := true }
      (s1.cellKernel c = none → exec (.haltReport cid) s = .next s1) ∧
      (∀ k, s1.cellKernel c = some k → k.code ≠ fcBudget → k.aborted = false →
        exec (.haltReport cid) s = .next ((s1.modKernel k.id (fun y => { y with cells := y.cells ++ [c] })).abortKernel k.id
          (0x5000 + (s.cell c).halt.reason) false))) ∧
    ((s.cell c).reported = true → exec (.haltReport cid) s = .next s))

/-! ### Memory instructions -/

/-- R50, R146, R158: a memory instruction whose checks pass leaves one request: a lane for each acting lane, with its
address, target and operands; where a check stops it, the cell halts with its reason and address, nothing sent.
Of the model: which of several failing lanes is recorded is log entry 52, the permissions of LDRES and STCOND log entry
22, how a group issues log entry 44, and work that the host holds back waits as log entry 7 says.
Completes: ld, st, stnt, uld, ldres, stcond, atomAdd, atomMin, atomMax, atomAnd, atomOr, atomXor, atomExch, atomCas,
atomFadd, feTake, fePeek, fePut, feUpdate, feClear. -/
def Obligations.MemoryRequests : Prop :=
  (∀ r ∈ memRows, ∀ t i s g, s.canMem t i r.2.1 g →
    let c := cellNo t.cell
    let s1 := s.issued c t.slot.val g
    let k := r.2.2.1 i
    s.memNow c i.size.toNat r.2.1.need r.2.1.local_ (g.addrs i) = true →
    (∀ s2 l, s1.memOk c i.size.toNat r.2.1.need r.2.1.local_ (g.addrs i) = some (s2, l) →
      let s3 := match k with | .storeNt _ => s2.each l (fun s e => s.l1Drop c e.2.1) | _ => s2
      exec (r.1 t i) s = .next (s3.newReq c t.slot.val g k (l.map (fun e =>
        let o := r.2.2.2 i g e.1
        ⟨e.1, e.2.1, e.2.2, o.1, o.2, .todo⟩)))) ∧
    (∀ s2 why va, s1.memChk c i.size.toNat r.2.1.need r.2.1.local_ (g.addrs i) = .bad s2 why va →
      exec (r.1 t i) s = .next (s2.haltGroup c t.slot.val why (some va)))) ∧
  (∀ t (i : UniI) s g,
    let c := cellNo t.cell
    let va := (BitVec.ofNat 64 (g.ur i.ua.toNat) + i.imm.signExtend 64).toNat
    s.groupNow t = some g → s.canIssue t ⟨[], [], [i.ud.toNat, i.ua.toNat]⟩ true = true →
    guardOk i.g = true → i.g.ge = false → i.rsv = false → i.ub = 0 → i.sr = 0 →
    s.memNow c 3 .read false [(0, va)] = true →
    ∀ s2 l, (s.issued c t.slot.val g).memOk c 3 .read false [(0, va)] = some (s2, l) →
      exec (.uld t i) s = .next (s2.newReq c t.slot.val g (.uload i.ud.toNat)
        (l.map (fun e => ⟨e.1, e.2.1, e.2.2, 0, 0, .todo⟩))))

/-- R158: the checks answer the first lane, in ascending order, whose address is not aligned, before any lane is
translated.
R58, R71: a request entered: the group moves on, the request stands at the end of its cell's list with the cell's next
number and the time, and is then sent and settled; with no lane the group moves on and nothing else happens.
R56, R59: LDS and STS are checked in the acting lanes first for alignment, then for the thread block's share, and read or
write the scratchpad: no memory, no register but vd changes. That they take their turn at the scratchpad ports, after at
most four grants to the streams, and act on the scratchpad in the command that issues them, is the model's choice: DESIGN
CHOICE, log entry 44.
Of the model: that the lowest lane is answered, and alignment before translation, is log entry 52.
Completes: lds, sts. -/
def Obligations.RequestChecks : Prop :=
  (∀ (s : State) c size need here (l : List (Nat × Nat)),
    (∀ a e b, l = a ++ e :: b → (∀ x ∈ a, x.2 % 2 ^ size = 0) → e.2 % 2 ^ size ≠ 0 →
      s.memChk c size need here l = .bad s hrMisaligned e.2) ∧
    ((∀ x ∈ l, x.2 % 2 ^ size = 0) → s.memChk c size need here l = s.memXlate c need here l)) ∧
  (∀ (s : State) c slot g k (l : List LaneOp),
    (l = [] → s.newReq c slot g k l = s.setGroup c slot { g with pc := g.pc + 8 }) ∧
    (l ≠ [] → ∃ s1 : State, s.newReq c slot g k l = (s1.sendReqs c (s.cell c).nextReq).settle c (s.cell c).nextReq ∧
      (∀ d, d ≠ c → s1.cell d = s.cell d) ∧
      s1.cell c = { s.cell c with
        groups := mapIns (s.cell c).groups slot { g with pc := g.pc + 8 }
        nextReq := (s.cell c).nextReq + 1
        reqs := (s.cell c).reqs ++ [⟨(s.cell c).nextReq, slot, k, l, s.now, g.pc.toNat, false,
          s.fld .CFG_MEMORY_crc_retry_limit 0, s.fld .CFG_FAR_TIER_completion_timeout_ms 0, false⟩] } ∧
      s1 = { s with cells := s1.cells })) ∧
  (∀ t i s g, let c := cellNo t.cell
    let n := 2 ^ i.size.toNat
    let sh := (s.cell c).shareOf g
    let spec := fun (b : Bool) => if b then ({ sizes := [0, 1, 2, 3, 4], sign := true, dst := sizeRegs } : MemSpec)
      else { sizes := [0, 1, 2, 3, 4], src := sizeRegs }
    (s.canMem t i (spec true) g →
      (scrBad sh i.size.toNat (g.addrs i) = none →
        ∃ g', exec (.lds t i) s = .next (((s.issued c t.slot.val g).setCell c
            ((s.issued c t.slot.val g).cell c).scrGrant).setGroup c t.slot.val g') ∧
          g.Wrote g' (sizeRegs i.size.toNat) i.vd.toNat (g.acting i.g)
            (fun l => loadVal i.size.toNat i.sign (leNat (bytesAt (s.cell c).scr (memVa g i l) n)))) ∧
      (∀ e, scrBad sh i.size.toNat (g.addrs i) = some e → exec (.lds t i) s = .next (s.haltedBy t g e.1 (some e.2)))) ∧
    (s.canMem t i (spec false) g →
      (scrBad sh i.size.toNat (g.addrs i) = none →
        exec (.sts t i) s = .next (((s.issued c t.slot.val g).setCell c ((g.addrs i).foldl
          (fun x e => x.scrPut e.2 (natLe n (g.rd (sizeRegs i.size.toNat) i.vd.toNat e.1)))
          ((s.issued c t.slot.val g).cell c).scrGrant)).setGroup c t.slot.val { g with pc := g.pc + 8 })) ∧
      (∀ e, scrBad sh i.size.toNat (g.addrs i) = some e → exec (.sts t i) s = .next (s.haltedBy t g e.1 (some e.2)))) ∧
    (∀ x : Cell, x.scrGrant = { x with scrRun := x.scrGrant.scrRun } ∧ x.scrGrant.scrRun ≤ 4 ∧
      (x.sx.scrWants = false → x.sa.scrWants = false → x.scrGrant.scrRun = 0)))

/-! ### Macro-ops -/

/-- R80: the control operations: a macro-op that starts changes its stream as the table says, nothing else of the device,
and is complete at once; LOOP with a counter of 0 and a DADV that leaves the scratchpad or is no multiple of 16 halt the
cell with TILE_BAD_DESCRIPTOR.
Of the model: a command without its occasion changes nothing by log entry 6.
Completes: sync, mend, jump, mloop, setc, setd, dadv, seta, aadv, append. -/
def Obligations.MacroControl : Prop :=
  ∀ r ∈ ([
      (.sync, 0x00, fun x _ _ => some x),
      (.mend, 0x01, fun x _ _ => some x),
      (.jump, 0x02, fun x w a => some { x with mpc := lowBits 57 ((a : Int) + 16 * sgn 32 (mfld w 32 32)) }),
      (.mloop, 0x03, fun x w a =>
        match mapGet 0 x.tc (mfld w 32 2) with
        | 0 => none
        | 1 => some { x with tc := mapSet 0 x.tc (mfld w 32 2) 0 }
        | n + 2 => some { x with
            tc := mapSet 0 x.tc (mfld w 32 2) (n + 1), mpc := lowBits 57 ((a : Int) + 16 * sgn 24 (mfld w 40 24)) }),
      (.setc, 0x04, fun x w _ => some { x with tc := mapSet 0 x.tc (mfld w 32 2) (mfld w 40 24) }),
      (.setd, 0x05, fun x w _ => some { x with td := mapSet 0 x.td (mfld w 32 4) (mfld w 64 64) }),
      (.dadv, 0x06, fun x w _ =>
        let v := mapGet 0 x.td (mfld w 32 4)
        let a := ((v % 2 ^ 18 : Nat) : Int) + sgn 24 (mfld w 40 24)
        if mfld w 40 24 % 16 = 0 ∧ 0 ≤ a ∧ a < 2 ^ 18 then
          some { x with td := mapSet 0 x.td (mfld w 32 4) (v / 2 ^ 18 * 2 ^ 18 + a.toNat) } else none),
      (.seta, 0x07, fun x w _ => some { x with ta := mapSet 0 x.ta (mfld w 32 3) (mfld w 64 57) }),
      (.aadv, 0x08, fun x w _ => some { x with
        ta := mapSet 0 x.ta (mfld w 32 3)
          (lowBits 57 (((mapGet 0 x.ta (mfld w 32 3) : Nat) : Int) + sgn 32 (mfld w 64 32))) }),
      (.append, 0x09, fun x w _ => some { x with append := true, left := mfld w 32 4 })]
      : List ((CellId → Stream → MacroWord → Instr) × Nat × (StreamSt → MacroWord → Nat → Option StreamSt))),
    ∀ c st w s s1 n sw p, s.begins c st r.2.1 w = some (s1, n, sw, p) →
      let x := s1.stream (cellNo c) st
      (∀ y, r.2.2 x w sw.addr = some y →
        exec (r.1 c st w) s = .next (((s1.modStream (cellNo c) st (fun _ => y)).inProg (cellNo c) st
          { started n sw p with done := true }).afterStart c st)) ∧
      (r.2.2 x w sw.addr = none →
        exec (r.1 c st w) s = .next ((s1.haltStream (cellNo c) st sw.addr hrTileBad none false).afterStart c st))

/-- R89 to R93, R208, R209: a tile transfer that starts translates its addresses, in order, and is in progress; TLOAD,
TSTORE and TVERIFY with `inc` move TAa past the tiles; one that verifies has its tiles' dirty bytes written back and
reads their entries; TSTORE takes its bytes from the scratchpad and opens its tiles; the first address that faults halts
the cell.
Of the model: that all addresses are translated at the start, and where they wrap, is log entry 54, that operands are
read whole when the macro-op starts log entry 15.
Completes: tload, tgather, tverify, tstore. -/
def Obligations.MacroMoves : Prop :=
  ∀ c st w s s1 n sw p, let k := cellNo c
    (∀ r ∈ ([(.tload, 0x10, true), (.tgather, 0x12, false), (.tverify, 0x13, true)]
        : List ((CellId → Stream → MacroWord → Instr) × Nat × Bool)),
      s.begins c st r.2.1 w = some (s1, n, sw, p) →
      (∀ s2, s1.translateAll k .read (p.tg.map (·.1)) = (s2, none) →
        exec (r.1 c st w) s = .next (((if r.2.2 then s2.incTa k st w else s2).readStart k st n sw p).afterStart c st)) ∧
      (∀ s2 why va, s1.translateAll k .read (p.tg.map (·.1)) = (s2, some (why, va)) →
        exec (r.1 c st w) s = .next ((s2.haltStream k st sw.addr why (some va) false).afterStart c st))) ∧
    (s.begins c st 0x11 w = some (s1, n, sw, p) →
      (∀ s2, s1.translateAll k .write (p.tg.map (·.1)) = (s2, none) →
        (∀ why va, s2.storeBad p.tg = some (why, va) →
          exec (.tstore c st w) s = .next ((s2.haltStream k st sw.addr why (some va) false).afterStart c st)) ∧
        (s2.storeBad p.tg = none →
          exec (.tstore c st w) s = .next ((((s2.incTa k st w).each p.tg
            (fun x t => x.openTile k (((s2.cellKernel k).map (·.epoch)).getD 0) t)).inProg k st { started n sw p with
              bytes := ((List.range (tileCnt w)).map (tileFrom (s2.cell k).scr (descOf (p.args.getD 0 0))
                (mfld w 40 1 == 1) (mfld w 41 1 == 1))) }).afterStart c st))) ∧
      (∀ s2 why va, s1.translateAll k .write (p.tg.map (·.1)) = (s2, some (why, va)) →
        exec (.tstore c st w) s = .next ((s2.haltStream k st sw.addr why (some va) false).afterStart c st))) ∧
    (∀ s2 : State, verifying sw.op sw.w = false → s2.readStart k st n sw p = s2.inProg k st (started n sw p)) ∧
    (∀ s2 : State, verifying sw.op sw.w = true → let s3 := s2.cleanTiles k p.tg
      ∃ s4, s2.readStart k st n sw p = s4.inProg k st { started n sw p with
          e1 := p.tg.map (fun t => s4.chk t.2), loose := s4.flag .CFG_TILE_CHECK_unchecked_action 0 } ∧
        s4 = s3.1.each p.tg (fun x t => (x.chkLook t.2).flits (regionOf k) 8))

/-- R94 to R96, R126, R130: MMA accumulates its operands into the array and keeps the accumulator before it for a retry;
ACCST writes the accumulator to the scratchpad and, unless `keep`, clears it; ACCLD loads it. Each is then in progress.
R97 to R99, R137 to R140, R144, R314: the vector macro-ops write their results to the scratchpad, the elements metered to
the kernel's tag; ELEM's MX conversion writes codes and block scales; TBLLD leaves its table absent until it retires, and
halts the cell on an image that is no table.
Of the model: the rounding and the order of ELEM and REDUCE, and that operands are read and results written whole, are
log entry 15, the values that the spec leaves open log entry 2.
Completes: mma, accst, accld, elem, reduce, lut, tblld. -/
def Obligations.MacroResults : Prop :=
  (∀ c st w s s1 n sw p, let k := cellNo c
    let x := s1.cell k
    let d := descOf (p.args.getD 0 0)
    (s.begins c st 0x20 w = some (s1, n, sw, p) →
      let o := mmaOps x.scr w p.args
      exec (.mma c st w) s = .next (((s1.setCell k { x with arr := { x.arr with
            shadow := x.arr.acc, acc := mmaRun x.arr.acc o (decide (mfld w 48 1 = 1)), retry := false, dirty := false
            slices := if o.fa = 0xC then o.s else x.arr.slices } }).inProg k st
        { started n sw p with args := mmaKeep p.args o }).afterStart c st)) ∧
    (s.begins c st 0x21 w = some (s1, n, sw, p) →
      let y := x.putRows d (accRows x.arr.acc d (Rnd.of (mfld w 36 2)))
      exec (.accst c st w) s = .next (((s1.setCell k (if mfld w 38 1 = 1 then y
        else { y with arr := { y.arr with acc := AccSt.clear 3 } })).inProg k st (started n sw p)).afterStart c st)) ∧
    (s.begins c st 0x22 w = some (s1, n, sw, p) →
      exec (.accld c st w) s = .next (((s1.setCell k { x with arr := { x.arr with acc := accLoad d (d.matrix x.scr) } }).inProg
        k st (started n sw p)).afterStart c st))) ∧
  (∀ c st w s s1 n sw p, let k := cellNo c
    let scr := (s1.cell k).scr
    let dd := descOf (p.args.getD 0 0)
    let dx := descOf (p.args.getD 1 0)
    let dy := descOf (p.args.getD 2 0)
    let s2 := s1.meter (s1.cellAcct k) .CFE_ACCT_vector_ops (dx.rows * dx.cols)
    let out := fun (s3 : State) (r : List (List Nat)) => s3.modCell k (fun x => x.putRows dd r)
    let go := fun (s3 : State) => (.next ((s3.inProg k st (started n sw p)).afterStart c st) : Out)
    (s.begins c st 0x23 w = some (s1, n, sw, p) →
      let rm := Rnd.of (mfld w 52 2)
      let fn := mfld w 44 8
      (fn = 0x20 →
        let q := (dx.matrix scr).map (fun row =>
          (chunks 32 (dx.cols + 1) (row.map (elemVal dx.fmt))).map (mxBlock dd.fmt rm))
        exec (.elem c st w) s = go (s2.modCell k (fun x =>
          (x.putRows dd (q.map (fun b => (b.map (·.2)).flatten))).putRows dy (q.map (fun b => b.map (·.1)))))) ∧
      (fn ≠ 0x20 →
        let ym := if fnUsesY fn then dy.matrix scr else []
        exec (.elem c st w) s = go ((out s2 ((List.range dx.rows).map (fun i => (List.range dx.cols).map (fun j =>
          narrow dd.fmt rm (s2.freeAt 0) (FFmt.fp32.dec ((elemFn fn (to32 dx.fmt (at2 0 (dx.matrix scr) i j))
            (to32 dy.fmt (at2 0 ym i (if fnIsRow fn then 0 else j))) (mfld w 64 32)).getD 0)))))).drew 1))) ∧
    (s.begins c st 0x24 w = some (s1, n, sw, p) →
      let vals := fun (d : Desc) => (d.matrix scr).map (fun l => l.map (elemVal d.fmt))
      exec (.reduce c st w) s = go (out s2 ((List.range dx.rows).map (fun i =>
        [reduceRow (mfld w 44 4) ((vals dx).getD i []) ((if mfld w 44 4 = 3 then vals dy else []).getD i [])])))) ∧
    (s.begins c st 0x25 w = some (s1, n, sw, p) →
      let sel := mfld w 46 1
      let xs := lutVals scr dx (p.args.getD 3 0)
      let sv := if sel = 1 then lutVals scr dy (p.args.getD 4 0) else []
      ∀ t, mapFind (s1.cell k).luts (2 * mfld w 44 2 + sel) = some t →
        exec (.lut c st w) s = go (out s2 ((List.range dx.rows).map (fun i => (List.range dx.cols).map (fun j =>
          narrow dd.fmt .ne 0 (if sel = 1 then
            FFmt.fp32.dec (FFmt.fp32.enc .ne (FVal.mul (at2 .nan xs i j) (tableVal t (at2 .nan sv i j))))
            else tableVal t (at2 .nan xs i j))))))) ∧
    (s.begins c st 0x26 w = some (s1, n, sw, p) →
      let im := (dd.matrix scr).getD 0 []
      let s3 := s1.modCell k (fun x => { x with luts := mapErase x.luts (2 * mfld w 36 2 + mfld w 38 1) })
      let out := fun (t : State) => (.next (State.tblldHalt t s k st w) : Out)
      ((tableOf im).isSome →
        exec (.tblld c st w) s = out ((s3.inProg k st { started n sw p with args := im }).afterStart c st)) ∧
      (tableOf im = none → exec (.tblld c st w) s = out ((s3.haltStream k st sw.addr hrTileBad none false).afterStart c st)))) ∧
  (∀ (t s : State) c st w, State.tblldHalt t s c st w = t ∨ (t.cell c).state = .halted ∧ State.tblldHalt t s c st w =
    t.modCell c (fun x => { x with luts := mapErase x.luts (2 * mfld w 36 2 + mfld w 38 1) }))

/-- R80, R82, R84, R85: a word that is not well formed for its stream halts the cell with TILE_BAD_DESCRIPTOR; a macro-op
whose checks fail halts it with their reason and address; a popped tag that `tchk` finds wrong, with QUEUE_PROTOCOL; the
array and the vector path, or a fifth tile transfer, and an overlapping extent keep a macro-op from starting, its queue
as it was.
Of the model: which of several broken rules is reported is log entry 56. -/
def Obligations.MacroChecks : Prop :=
  ∀ i c st op w s s1 sw, i.macroOp = some (c, st, op, w) → s.offer (cellNo c) st op.toNat w = some (s1, sw) →
    let k := cellNo c
    (wordOk st op.toNat w sw.appended = false → exec i s = .next (s1.haltStream k st sw.addr hrTileBad none false)) ∧
    (wordOk st op.toNat w sw.appended = true →
      ((s1.stream k st).room op.toNat = false → exec i s = .next (s1.streamPoll planOf k)) ∧
      ((s1.stream k st).room op.toNat = true →
        (∀ why a, planOf s1 k st sw = .error (why, a) → exec i s = .next (s1.haltStream k st sw.addr why a false)) ∧
        (∀ p, planOf s1 k st sw = .ok p →
          ((s1.stream k st).overlaps op.toNat p = true → exec i s = .next (s1.streamPoll planOf k)) ∧
          ((s1.stream k st).overlaps op.toNat p = false → p.hold = false → w.we = true →
            (s1.popFor k st w = none → exec i s = .next (s1.streamPoll planOf k)) ∧
            (∀ s2 t, s1.popFor k st w = some (s2, t) → w.tchk = true → t ≠ w.tag →
              exec i s = .next (s2.haltStream k st sw.addr hrQueueProtocol none false))))))

/-- R83, R127 to R130, R208, R335: a macro-op in progress reaches its completion point, its bytes moved over the L1
port: a load's tiles are in the scratchpad, and it is done, unless the host holds a line of it, which is called back;
when it retires, TSTORE's tiles are at their home, MMA has passed its test, been retried or halted the cell, ACCST and
ACCLD have their tokens counted, TBLLD's table is there, and the macro-op leaves the stream.
R64, R83: a macro-op that retires leaves its stream, raises CEL_TS_RETIRED by 1, and, where it was appended, frees a
place that TWAIT counts; END ends the stream.
Of the model: the grants of the L1 port are log entry 44, what is in the scratchpad where a tile fails log entry 54,
the sums of MMA's test log entry 57, and lines that the host holds wait as log entry 7 says.
Completes: macroOpCompletion, macroOpRetirement. -/
def Obligations.MacroOutcomes : Prop :=
  (∀ cid st n s p, let c := cellNo cid
    s.alive = true → (s.cell c).state = .running →
    ((s.stream c st).prog.find? (fun q => q.n == n && !q.done) = some p →
      let done := fun (s1 : State) => (.next ((s1.modProg c st n (fun q => { q with done := true, time := s1.now })).streamPoll planOf c) : Out)
      let s0 := s.modCell c (fun x => x.l1Move n (2 * x.l1Grants))
      (p.sw.op ≠ 0x10 → p.sw.op ≠ 0x12 → p.sw.op ≠ 0x13 → exec (.macroOpCompletion cid st n) s = done s0) ∧
      (p.sw.op = 0x12 → s.readHeld p = none → exec (.macroOpCompletion cid st n) s = done (s0.gatherRows c st p)) ∧
      (p.sw.op = 0x10 ∨ p.sw.op = 0x13 → s.readHeld p = none →
        exec (.macroOpCompletion cid st n) s = done (s0.loadTiles c st p 0 p.tiles)) ∧
      (∀ t, p.sw.op = 0x10 ∨ p.sw.op = 0x12 ∨ p.sw.op = 0x13 → s.readHeld p = some t →
        exec (.macroOpCompletion cid st n) s = .next (s.biSnoop t false))) ∧
    ((s.stream c st).prog.find? (fun q => q.n == n && q.done && !q.owes) = some p →
      ∀ up, ∃ s1, exec (.macroOpRetirement cid st n up) s = .next (s1.streamPoll planOf c) ∧
        (p.sw.op = 0x11 → s1 = s.storeEnd c st p) ∧
        (p.sw.op = 0x20 → s1 = s.mmaEnd c st p up) ∧
        (p.sw.op = 0x21 → s1 = (s.arrTokens c (if fmtBits (descOf (p.args.getD 0 0)).fmt = 16 then 8 else 16) true).retireOp c st p) ∧
        (p.sw.op = 0x22 → s1 = (s.arrTokens c 16 true).retireOp c st p) ∧
        (p.sw.op = 0x26 → ∀ t, tableOf p.args = some t → s1 = (s.modCell c (fun x => { x with
          luts := mapIns x.luts (2 * mfld p.sw.w 36 2 + mfld p.sw.w 38 1) t })).retireOp c st p) ∧
        (p.sw.op < 0x10 ∨ p.sw.op = 0x10 ∨ p.sw.op = 0x12 ∨ p.sw.op = 0x13 ∨ 0x23 ≤ p.sw.op ∧ p.sw.op ≤ 0x25 →
          s1 = s.retireOp c st p))) ∧
  (∀ (s : State) c st p,
    let t := s.retireOp c st p
    let x := s.stream c st
    t.stream c st = { x with
      prog := x.prog.filter (fun q => q.n != p.n), pend := if p.sw.appended then x.pend - 1 else x.pend
      ended := x.ended || decide (p.sw.op = 0x01), endAddr := if p.sw.op = 0x01 then p.sw.addr else x.endAddr } ∧
    t.stream c (other st) = s.stream c (other st) ∧
    (∀ d, d ≠ c → t.cell d = s.cell d) ∧
    t.fld .CEL_TS_RETIRED_count (2 * c + streamNo st) =
      (s.fld .CEL_TS_RETIRED_count (2 * c + streamNo st) + 1) % 2 ^ Fld.CEL_TS_RETIRED_count.desc.width ∧
    t.mem = s.mem ∧ t.hostMem = s.hostMem)

/-! ### Cells and kernels -/

/-- R192 to R195, R222, R428, R463: an answer of the memory lets a cell's request be performed and restarts the
watchdog; a correction is counted, and restarts nothing; TARGET_RESET fails the lanes it answers; an instruction or
macro-op fetched is put in the cell's instruction cache, and a word that lists no operation halts the cell.
R168, R170, R186, R360: the timeouts of a cell's operations: a full/empty operation that has waited its limit halts the
cell with FE_WAIT_TIMEOUT and the word's address, R70; an idle combining entry flushes; a load or an atomic at a peer
that has waited its limit fails, and stores that something waits for are lost. Before its limit, no full/empty operation
halts its cell and no entry flushes.
Of the model: which of several lanes failed by one answer is recorded is log entry 52, and when a line is read as
uncorrectable log entries 48 and 53.
Completes: memoryReply, feWaitTimeout, combiningEntryIdleFlush, deadTargetTimeout. -/
def Obligations.CellAnswers : Prop :=
  (∀ cid id s, let c := cellNo cid
    s.alive = true →
    (∀ r ∈ ([(.l1Corrected, .CEL_ECC_COUNT_corrected, c), (.regfileCorrected, .CEL_ECC_COUNT_corrected, c),
        (.scratchCorrected, .CEL_ECC_COUNT_corrected, c),
        (.l2Corrected, .BLK_L2_ECC_corrected, blockOf c)] : List (Answer × Fld × Nat)),
      exec (.memoryReply cid (.data id r.1)) s = .next ((s.satFld r.2.1 r.2.2 1).cellPoll c)) ∧
    (∀ q r, s.req c id = some q → (s.cell c).reqBlocked q = false →
      exec (.memoryReply cid (.data id (.ok r))) s =
        .next (((((s.memReport c q r).performReq c id).sendReqs c id).settle c id).cellAnswered c)) ∧
    (∀ q l rest, s.req c id = some q → q.todoHere = l :: rest →
      exec (.memoryReply cid (.data id .targetReset)) s = .next (((s.setLanes c id
        ((q.todoHere.filter (fun y => s.resetReason y.tgt == s.resetReason l.tgt)).map (·.lane))
        (.failed (s.resetReason l.tgt))).settle c id).cellAnswered c)) ∧
    (∀ (slot : Fin 16) w a g s1, s.group c slot.val = some g → (s.cell c).state = .running → g.ended = false →
      g.wait = .none → (s.cell c).feOut slot.val = false → s.fetchAt c g.reconv.pc.toNat a = .ok s1 →
      (opListed (w.toNat % 8) (w.toNat / 8 % 256) = true →
        exec (.memoryReply cid (.ifetch slot w a)) s = .next (s1.cellAnswered c)) ∧
      (opListed (w.toNat % 8) (w.toNat / 8 % 256) = false →
        exec (.memoryReply cid (.ifetch slot w a)) s = .next (s1.haltCell c
          ⟨hrIllegal, 0, slot.val, g.reconv.active, g.reconv.pc.toNat, none, false, (s.cell c).nextReq⟩))) ∧
    (∀ st (op : BitVec 8) a s1, (s.cell c).state = .running → (s.stream c st).started = true →
      (s.stream c st).ended = false → (s.stream c st).append = false → (s.stream c st).head = none →
      s.fetchAt c (s.stream c st).mpc a = .ok s1 →
      ((macroFields op.toNat).isSome →
        exec (.memoryReply cid (.mfetch st op a)) s = .next (s1.cellAnswered c)) ∧
      (macroFields op.toNat = none →
        exec (.memoryReply cid (.mfetch st op a)) s = .next (s1.haltStream c st (s.stream c st).mpc hrTileBad none false)))) ∧
  (∀ cid id s, let c := cellNo cid
    s.alive = true →
    (∀ q op vd l, s.req c id = some q → q.kind = .fe op vd → q.lanes.find? s.feLate = some l →
      exec (.feWaitTimeout cid id) s = .next (s.haltCell c ⟨hrFeTimeout, 0, q.slot,
        ((s.group c q.slot).map (·.active)).getD 0, q.pc, some l.va, false, id⟩)) ∧
    (∀ q, s.req c id = some q → q.lanes.find? s.feLate = none → exec (.feWaitTimeout cid id) s = .next s) ∧
    (∀ e, (s.cell c).comb.find? (fun e => e.va / 128 == id) = some e →
      (s.now < e.last + 2000 → exec (.combiningEntryIdleFlush cid id) s = .next s) ∧
      (e.last + 2000 ≤ s.now → ∀ s1, s.combFlush c e = some s1 →
        exec (.combiningEntryIdleFlush cid id) s = .next (s1.streamPoll planOf c))) ∧
    (∀ q, s.req c id = some q → q.kind.cls = 0 →
      exec (.deadTargetTimeout cid id) s = .next (s.failAway c q (fun l => match l.st with
        | .sent tid => s.remote.any (fun r => r.tid == tid && decide (r.since + r.lim ≤ s.now))
        | _ => false))) ∧
    (∀ q, s.req c id = some q → (q.kind.cls = 1 ∨ q.kind.cls = 2) →
      let away := s.storeDue c q.sentFor
      let here := s.storeDue c q.heldBy
      exec (.deadTargetTimeout cid id) s = .next (if away ∨ here then (s.loseStores c q away here).streamPoll planOf c else s)))

/-- R71, R167, R335: the lanes of a full/empty request that a full table returned arrive again at the holding die, in
order, their timeout running on; one whose line the host holds calls it back first; the other lanes stay as they are;
the watchdog interval restarts.
R163 to R165: a full/empty operation that can proceed at its arrival: it returns the word, writes it where it is FE_PUT
or FE_UPDATE, and leaves the word full or empty as the table says.
Of the model: when a returned operation comes again is log entry 19.
Completes: feResend. -/
def Obligations.FullEmptyOperations : Prop :=
  (∀ cid id s q op vd, let c := cellNo cid
    s.alive = true → s.req c id = some q → q.kind = .fe op vd →
    let back := q.lanes.filter (fun l => match l.st with | .returned _ _ => true | _ => false)
    let again := fun (x : State) (l : LaneOp) => match l.st, l.tgt with
      | .returned since lim, .dev d =>
        (match x.homePrep c l.va l.tgt with
        | .wait y => y
        | .fault y f => y.setLane c id l.lane (.failed f.halt)
        | .ok y =>
          let r := y.feArrive d op l.a (.cell c q.slot id l.lane) since (y.cellAsc c)
          (match r.2 with
            | .fault f => r.1.setLane c id l.lane (.failed f.halt)
            | .notSync => r.1.setLane c id l.lane (.failed hrProtection)
            | .served => r.1
            | .waits => r.1.setLane c id l.lane (.waiting since lim)
            | .returned => r.1))
      | _, _ => x
    exec (.feResend cid id) s = .next (((s.each back again).settle c id).cellAnswered c) ∧
    (back = [] → exec (.feResend cid id) s = .next ((s.settle c id).cellAnswered c))) ∧
  (∀ (s : State) d op data w k, s.feKey d = some k →
    let v := (s.feApply d op data w)
    v.2 = leNat (s.devBytes d 8) ∧
    (op = fePutOp ∨ op = feUpdateOp → leNat (v.1.devBytes d 8) = data % 2 ^ 64) ∧
    (op = fePutOp → v.1.isFull d = true) ∧
    (op = feUpdateOp → v.1.isFull d = s.isFull d) ∧
    (op = feTakeOp ∨ op = feWaitTake ∨ op = feClearOp → v.1.isFull d = false ∧ v.1.mem = s.mem) ∧
    (op = fePeekOp ∨ op = feWaitPeek → v.1 = s) ∧
    (feCan fePutOp (s.isFull d) = !s.isFull d) ∧ feCan feClearOp (s.isFull d) = true ∧
    (∀ o, o = feTakeOp ∨ o = fePeekOp ∨ o = feUpdateOp → feCan o (s.isFull d) = s.isFull d))

/-- R42 to R44, R257, R283: the next thread block of the kernel that the order of R283 gives goes to the cell that R257
gives: each of its groups starts at the kernel's entry with all 32 lanes active, none exited, an empty stack and
registers, predicates and uniform registers of 0; with no room none is placed.
R151, R152, R188, R284, R312, R316: at the kernel end a block first empties its store and combining buffers, then writes
back its dirty lines, then gives up its lines; a kernel that every block has ended completes its LAUNCH, with STORE_LOST
where a store was lost; one whose budget has run out is captured and aborted. Where a store is still under way the block
writes nothing back and keeps its kernel. A thread block that retires leaves its cell's ended streams as they are, by the
model's choice: log entry 20.
Of the model: the slots and the share of a thread block are log entry 16, the kernels passed over log entry 9, the
watchdog's interval log entry 51.
Completes: threadBlockPlacement, kernelEnd, kernelRetire, budgetExpiry. -/
def Obligations.Kernels : Prop :=
  (∀ s : State, s.alive = true →
    (∀ s1, State.choosePlace s.offered [] s = (s1, none) → exec .threadBlockPlacement s = .next s1) ∧
    (∀ s1 p, State.choosePlace s.offered [] s = (s1, some p) →
      ∃ (s2 : State) (b : ThreadBlock), exec .threadBlockPlacement s = .next s2 ∧
        (s2.cell p.cell).tbs = (s1.cell p.cell).tbs ++ [b] ∧ b.kern = p.kern.id ∧ b.slots.length ≤ p.kern.groups ∧
        b.x = p.kern.next % max p.kern.gx 1 ∧ b.y = p.kern.next / max p.kern.gx 1 % max p.kern.gy 1 ∧
        b.z = p.kern.next / max (p.kern.gx * p.kern.gy) 1 ∧ (s2.cell p.cell).state = .running ∧
        (∀ i ∈ b.slots, mapFind (s1.cell p.cell).groups i = none ∧ ∃ g, mapFind (s2.cell p.cell).groups i = some g ∧
          g.pc = BitVec.ofNat 64 p.kern.entry ∧ g.active = 0xFFFFFFFF ∧ g.exited = 0 ∧ g.stack = [] ∧ g.v = [] ∧
          g.p = [] ∧ g.u = [] ∧ g.wait = .none ∧ g.tb = b.n) ∧
        (∀ i, i ∉ b.slots → mapFind (s2.cell p.cell).groups i = mapFind (s1.cell p.cell).groups i) ∧
        (∀ c, blockOf c ≠ blockOf p.cell → s2.cell c = s1.cell c) ∧
        s2.fld .PLE_RGN_TB_placed p.region =
          (s1.fld .PLE_RGN_TB_placed p.region + 1) % 2 ^ Fld.PLE_RGN_TB_placed.desc.width ∧
        s2.mem = s1.mem)) ∧
  ((∀ bid s, let b := blockNo bid
    let cs := cellsOfBlock b
    let s1 := s.each cs (fun s c => (s.combFlushAll c).1)
    let s2 := (s1.l2Clean b 511 (s1.block b).l2.lines).1
    let s3 := s2.modBlock b (fun x => { x with l2 := { x.l2 with lines := [] } })
    s.alive = true → (s.block b).owes = true →
    (cs.any (fun c => (s1.cell c).storesLeft || !(s1.cell c).comb.isEmpty) = true → exec (.kernelEnd bid) s = .next s1) ∧
    (cs.any (fun c => (s1.cell c).storesLeft || !(s1.cell c).comb.isEmpty) = false →
      (s1.l2Clean b 511 (s1.block b).l2.lines).2 = false → exec (.kernelEnd bid) s = .next s2) ∧
    (cs.any (fun c => (s1.cell c).storesLeft || !(s1.cell c).comb.isEmpty) = false →
      (s1.l2Clean b 511 (s1.block b).l2.lines).2 = true → cs.all (fun c => (s3.remoteStores c).isEmpty) = true →
      exec (.kernelEnd bid) s = .next ((s3.each cs State.clearCell).modBlock b (fun x => { x with kern := 0, owes := false })))) ∧
  (∀ k s x p, s.alive = true → s.kernel? k = some x → x.aborted = false → x.next = x.total → x.retired = x.total →
    s.blocks.any (fun e => e.2.kern == k) = false → x.code = 0 → s.pkt x.q x.seq = some p → s.qState x.q ≠ qDraining →
    let t := s.teardown k
    let s1 : State := { t with kernels := t.kernels.filter (fun y => y.id != k) }
    exec (.kernelRetire k) s = .next (if x.lost then s1.failPkt p fcStoreLost x.epoch [] else s1.finishPkt p 0 0 false false)) ∧
  (∀ k s x t, s.alive = true → s.kernel? k = some x → x.first = some t → x.aborted = false → x.budget ≠ 0 →
    (s.now < t + x.budget * 1000000 → exec (.budgetExpiry k) s = .next s) ∧
    (t + x.budget * 1000000 ≤ s.now →
      let cs := s.budgetCells k
      let r := s.capture x.q (s.pkt x.q x.seq) fcBudget true x.epoch (cs.map s.cellEntry)
      exec (.budgetExpiry k) s = .next (((r.1.areaWrite x.q 0x100 r.2).modKernel k (fun y => { y with cells := cs })).abortKernel
        k fcBudget false))) ∧
  (∀ cid tb s t, exec (.threadBlockRetire cid tb) s = .next t → ∀ st,
    t.stream (cellNo cid) st = s.stream (cellNo cid) st))

/-- R45, R88: a thread block retires once all its groups have ended and all their memory operations have completed and,
in a kernel that uses the tile engine, both streams have ended and every macro-op has retired; its slots become free and
its reservations go. Until then nothing changes.
Completes: threadBlockRetire. -/
def Obligations.ThreadBlockRetires : Prop :=
  ∀ cid tb s t, let c := cellNo cid
    let x := s.cell c
    let tile := ((s.kernel? t.kern).map (·.tile)).getD false
    s.alive = true → x.tbs.find? (fun t => t.n == tb) = some t → x.state = .running →
    ((∃ i ∈ t.slots, ∃ g, mapFind x.groups i = some g ∧ g.ended = false) ∨ (∃ r ∈ x.reqs, r.slot ∈ t.slots) ∨
        (tile = true ∧ (x.sa.ended = false ∨ x.sx.ended = false ∨ x.sa.prog ≠ [] ∨ x.sx.prog ≠ [])) →
      exec (.threadBlockRetire cid tb) s = .next s) ∧
    ((∀ i ∈ t.slots, ∀ g, mapFind x.groups i = some g → g.ended = true) → (∀ r ∈ x.reqs, r.slot ∉ t.slots) →
      (tile = true → x.sa.ended = true ∧ x.sx.ended = true ∧ x.sa.prog = [] ∧ x.sx.prog = []) →
      ∃ s1, exec (.threadBlockRetire cid tb) s = .next s1 ∧
        s1.cell c = { x with
          groups := x.groups.filter (fun e => !t.slots.contains e.1), tbs := x.tbs.filter (fun y => y.n != tb)
          state := if x.tbs.filter (fun y => y.n != tb) = [] then .idle else .running
          sa := (s1.cell c).sa, sx := (s1.cell c).sx } ∧
        (∀ d, d ≠ c → s1.cell d = s.cell d) ∧
        (∀ r, r ∈ s1.resv ↔ r ∈ s.resv ∧ ¬ (r.cell = c ∧ r.slot ∈ t.slots)) ∧
        s1.mem = s.mem ∧ s1.hostMem = s.hostMem ∧ s1.regs = s.regs)

/-! ### The host's memory traffic -/

/-- R160, R332: a snoop of a line that no shared cache holds answers a miss; of one it holds, SNPCUR answers the line's
bytes and changes nothing, SNPDATA writes it back and keeps it clean, SNPINV gives it up and takes the reservations on
it. A write-back with invalidation leaves no host line in a shared cache and no dirty host byte, each written to the
host.
R333 to R335, R431: a host access through the committed HDM window: a page without a frame reads 0 and takes no write; a
page that answers gives its bytes, entered in the snoop filter, or takes the host's; while the device does not serve,
and for a page lost, a read gives all ones and the access is recorded. Outside the window nothing happens.
Of the model: the outcome of the read is the command's, and else log entries 48 and 53.
Completes: snpcur, snpdata, snpinv, cacheWritebackAndInvalidate, memrd, memwr. -/
def Obligations.HostAccesses : Prop :=
  (∀ line s, s.hostUp = true → let a := line * 128
    let s1 := s.cancelResv (.host a) 128 none
    (s.hostHeld a = false →
      exec (.snpcur line) s = .next (s.respond rspMiss a []) ∧ exec (.snpdata line) s = .next (s.respond rspMiss a []) ∧
      exec (.snpinv line) s = .next (s1.respond rspMiss a [])) ∧
    (s.hostHeld a = true →
      exec (.snpcur line) s = .next (s.respond rspSnpCur a (s.hostBytes a 128)) ∧
      exec (.snpdata line) s = .next (((s.hostLineBack a).hostClean a).respond rspSnpData a (s.hostBytes a 128)) ∧
      exec (.snpinv line) s = .next (((s1.hostLineBack a).scdDrop (.host a) false).respond rspSnpInv a (s.hostBytes a 128))) ∧
    (∃ t, exec .cacheWritebackAndInvalidate s = .next t ∧ t.hostDirty = [] ∧ t.hif.inval = true ∧ t.mem = s.mem ∧
      t.hostMem = s.hostDirty.foldl (fun m e => mapSet 0 m e.1 e.2) s.hostMem ∧ t.cells = s.cells)) ∧
  (∀ hpa excl a data s,
    let h := hpa / 64 * 64
    let bs := data.take (64 - hpa % 64)
    (s.hdmAddr h = none → exec (.memrd hpa excl a) s = .next s) ∧
    (s.hdmAddr hpa = none → exec (.memwr hpa data) s = .next s) ∧
    (∀ d, s.hdmAddr h = some d →
      (s.serves = false → exec (.memrd hpa excl a) s = .next ((s.hdmError h false false).respond rspMemData h (onesBytes 64))) ∧
      (s.serves = true →
        (s.pageAns (d / 65536) = .unalloc → exec (.memrd hpa excl a) s = .next
          (((s.satFld .HIF_HDM_COUNT_unmapped 0 1).filterAdd d excl).respond rspMemData h (List.replicate 64 0))) ∧
        (s.pageAns (d / 65536) = .ok → s.scdHas (.dev d) = true → exec (.memrd hpa excl a) s = .next
          (((s.homeTouch none (.dev d)).filterAdd d excl).respond rspMemData h (s.devBytes d 64))) ∧
        (s.pageAns (d / 65536) = .ok → s.scdHas (.dev d) = false → ∀ s1, s.readAt d a = (s1, false) →
          exec (.memrd hpa excl a) s = .next
            (((s1.homeTouch none (.dev d)).filterAdd d excl).respond rspMemData h (s1.devBytes d 64))) ∧
        (s.pageAns (d / 65536) ≠ .ok → s.pageAns (d / 65536) ≠ .unalloc →
          exec (.memrd hpa excl a) s = .next ((s.hdmError h false true).respond rspMemData h (onesBytes 64))))) ∧
    (∀ d, s.hdmAddr hpa = some d → bs ≠ [] →
      (s.serves = false → exec (.memwr hpa data) s = .next (s.hdmError hpa true false)) ∧
      (s.serves = true →
        (s.pageAns (d / 65536) = .unalloc → exec (.memwr hpa data) s = .next (s.satFld .HIF_HDM_COUNT_unmapped 0 1)) ∧
        (s.pageAns (d / 65536) = .ok → ∀ s1, s.homeWrite none (.dev d) bs none = some s1 →
          exec (.memwr hpa data) s = .next s1) ∧
        (s.pageAns (d / 65536) ≠ .ok → s.pageAns (d / 65536) ≠ .unalloc →
          exec (.memwr hpa data) s = .next (s.hdmError hpa true true)))))

/-- R324, R333, R335, R336: HDM decoder 0 commits a base aligned to its size within the window, one way, and otherwise
sets Error Not Committed; BIRSP takes the line out of the snoop filter, or leaves it shared after BISnpData, and with no
snoop outstanding changes nothing; an unmasked vector sends its pending message where MSI-X is enabled and the function
is not masked, else it keeps it.
Of the model: what is raised while MSI-X is disabled is log entry 14, a write that waits for BIRSP log entry 36.
Completes: hdmDecoderCommit, birsp, msixUnmask. -/
def Obligations.HostLink : Prop :=
  (∀ base size ways s, s.hif.linkUp = true → s.hif.crs = false → s.hif.decoder = none →
    let win := s.fld .CFG_HOST_hdm_size_gib 0 * 2 ^ 30
    (0 < size ∧ size ≤ win ∧ base % size = 0 ∧ ways = 1 →
      exec (.hdmDecoderCommit base size ways) s = .next (({ s with hif := { s.hif with
        decoder := some (base, size), notComm := false } }).setFld .HIF_LINK_STATUS_mem_en 0 1)) ∧
    (¬ (0 < size ∧ size ≤ win ∧ base % size = 0 ∧ ways = 1) →
      exec (.hdmDecoderCommit base size ways) s = .next { s with hif := { s.hif with notComm := true } })) ∧
  (∀ line dirty s, s.hif.snoops.filter (fun f => f.line == line) = [] → exec (.birsp line dirty) s = .next s) ∧
  (∀ line s, (s.hif.snoops.filter (fun f => f.line == line)) ≠ [] →
    exec (.birsp line none) s = .next ({ s with hif := { s.hif with
      filter := if s.hif.snoops.any (fun f => f.line == line && f.excl) then s.hif.filter.filter (fun f => f.line != line)
        else s.hif.filter.map (fun f => if f.line = line then { f with excl := false } else f)
      snoops := s.hif.snoops.filter (fun f => f.line != line) } } : State).areaAll.pollAll) ∧
  (∀ v s, v < 2048 → s.hif.d3hot = false → let out := s.hif.msixEn && !s.hif.msixMask
    ∃ t, exec (.msixUnmask v) s = .next t ∧ (t.vec v).masked = false ∧
    (t.vec v).pending = ((s.vec v).pending && !out) ∧
    (t.vec v).sent = (s.vec v).sent + (if (s.vec v).pending && out then 1 else 0) ∧
    (∀ u, u ≠ v → t.vec u = s.vec u) ∧ t = { s with msix := t.msix })

/-! ### Placement of pages -/

/-- R246, R247: the heat scan of a page that is resident or migrating decays its heat, changes the season of one that is
resident and not pinned as the table says, and counts its dwell; any other page is passed over.
R230, R248 to R255, R426: a slice MID starts its next migration, evacuations before pins before seasonal moves; at the
end of a pass, with at most 16 lines dirty or after four passes, the page is remapped, else the dirty lines are copied
again; an uncorrectable source read abandons the migration. With 16 migrations of the slice under way none starts. The
order of kinds is the model's: log entry 23.
Of the model: the order of kinds of moves is log entry 23, the frame taken log entry 17, lines known to be bad log
entry 53.
Completes: heatScan, migrationStart, migrationPassEnd. -/
def Obligations.HeatAndMigrations : Prop :=
  (∀ dpn s, s.ready = true →
    let e := s.loc dpn
    (e.state ≠ .resident → e.state ≠ .migrating → exec (.heatScan dpn) s = .next s) ∧
    (e.state = .resident ∨ e.state = .migrating →
      let warm := s.fld .PLE_SEASON_warm_thr 0
      let cool := s.fld .PLE_SEASON_cool_thr 0
      let h := if e.hint = 1 then max e.heat warm else if e.hint = 2 then min e.heat (cool - 1) else e.heat
      let rested := decide (s.fld .PLE_SEASON_min_dwell 0 ≤ e.dwell)
      let season := if e.pin ≠ 0 ∨ e.state = .migrating then e.season else match e.season with
        | .winter => if warm ≤ h ∧ rested then .spring else .winter
        | .spring => if h < cool then .winter else .spring
        | .summer => if h < cool ∧ rested then .autumn else .summer
        | .autumn => if warm ≤ h then .summer else .autumn
      ∃ t, exec (.heatScan dpn) s = .next t ∧ t.loc dpn = { e with
        season := season, heat := e.heat - ceilDiv e.heat (2 ^ s.fld .PLE_SEASON_decay_shift 0)
        dwell := min ((if season = e.season then e.dwell else 0) + 1) 255 } ∧
      (∀ d, d ≠ dpn → t.loc d = s.loc d) ∧ t.mem = s.mem)) ∧
  ((∀ (mid : Fin 4) s, s.ready = true → let k := mid.val
    (16 ≤ (s.migs.filter (fun m => m.dpn % 4 == k)).length → exec (.migrationStart mid) s = .next s) ∧
    ((s.migs.filter (fun m => m.dpn % 4 == k)).length < 16 → let s1 := s.waterMark
      let move := firstMove ([s1.nextEvac k, s1.nextPin k] ++ (if s1.seasonal then [s1.nextDemotion k, s1.nextPromotion k] else []))
      (move = none → exec (.migrationStart mid) s = .next s1) ∧
      (∀ dpn l kind pair f, move = some (dpn, l, kind, pair) → s1.locPaced l = false →
        s1.locPaced (s1.loc dpn).loc = false → s1.lowestFrame l (s1.loc dpn).sync = some f →
        ∃ t, exec (.migrationStart mid) s = .next t ∧ t = s1.beginMove dpn l f kind pair ∧
          t.loc dpn = { s1.loc dpn with state := .migrating } ∧
          ∃ m, t.migs = s1.migs ++ [m] ∧ m.dpn = dpn ∧ m.loc = l ∧ m.frame = f ∧ m.kind = kind ∧ m.pass = 1))) ∧
  (∀ dpn a s m, s.alive = true → s.migs.find? (fun m => m.dpn == dpn) = some m → s.locPaced m.loc = false →
    s.locPaced (s.loc dpn).loc = false →
    let r := s.lineRead dpn a
    let s1 := r.1.addFld .PLE_MIG_STAT_bytes 0 (128 * m.dirty.length)
    let bad := r.2 || (decide ((s.loc dpn).loc < 12) &&
      s.badLines.any (fun x => x / 512 == (s.loc dpn).loc * 2 ^ 26 + (s.loc dpn).frame))
    (bad = false → (m.dirty.length ≤ 16 ∨ 4 ≤ m.pass) → exec (.migrationPassEnd dpn a) s = .next (s1.remap m)) ∧
    (bad = false → 16 < m.dirty.length → m.pass < 4 → ∃ t, exec (.migrationPassEnd dpn a) s = .next t ∧
      t.migs = (s1.each m.dirty (fun x l => x.copyLine ((s.loc dpn).loc * 2 ^ 26 + (s.loc dpn).frame)
        (m.loc * 2 ^ 26 + m.frame) l)).migs.map (fun x => if x.dpn = dpn then { x with dirty := [], pass := x.pass + 1 } else x)) ∧
    (bad = true → ∀ m1, r.1.migs.find? (fun m => m.dpn == dpn) = some m1 →
      exec (.migrationPassEnd dpn a) s = .next (r.1.abandonMig m1 true).pinCheck)) ∧
  (∀ s dpn loc frame kind pair room, ∃ t, State.startMig s dpn loc frame kind pair room = t ∧
    (t.loc dpn) = { s.loc dpn with state := .migrating } ∧
    t.migs = s.migs ++ [⟨dpn, loc, frame, [], 1, kind, pair, s.now, room⟩]))

/-- R242, R248, R382, R230, R426: a released frame that has been cleared reads 0 and is free, or goes to the demotion
that was paired with the promotion out of it; a far-tier port that has cleared its frames offers them; an evacuated port
without a page goes OFFLINE; a page without room returns the unit to use, with `evac_failed`.
R196, R212, R219, R221, R223, R233, R425: refreshes, a retrained channel, patrol reads, scrubs and temperatures of the
memory sites and the shared caches: what each counts, and what a failure does; a period of 0 patrols or scrubs nothing,
and a pass under way keeps its period (how a pass begins is the model's, log entry 47).
Of the model: a line that a patrol finds bad is log entry 53.
Completes: frameZeroed, farTierClear, evacuationComplete, refresh, retrain, patrol, scrub, temperatureReading. -/
def Obligations.MemoryUnits : Prop :=
  ((∀ loc frame s, s.alive = true → let k := loc * 2 ^ 26 + frame
    (k ∉ s.unclean → exec (.frameZeroed loc frame) s = .next s) ∧
    (k ∈ s.unclean → frame < 2 ^ 26 → ∃ t : State, exec (.frameZeroed loc frame) s = .next (t.pairStart k) ∧ k ∉ t.unclean ∧
      t.pairs = s.pairs ∧ ((∀ x ∈ s.pairs, x.1 ≠ k) → t.pairStart k = t) ∧
      (∀ a, k * 65536 ≤ a → a < k * 65536 + 65536 → mapGet 0 t.mem a = 0) ∧
      (∀ a, a < k * 65536 ∨ k * 65536 + 65536 ≤ a → mapGet 0 t.mem a = mapGet 0 s.mem a) ∧
      (∀ i, i < 16 → mapGet 0 t.check (16 * k + i) = 0) ∧ (∀ i, i < 8192 → mapGet 0 t.full (8192 * k + i) = 0))) ∧
  (∀ (p : Fin 4) s, s.ready = true → s.fld .FTP_STATUS_state p.val = ftpOnline → p.val ∉ s.farClear →
    ∃ t, exec (.farTierClear p) s = .next t ∧ t.farClear = p.val :: s.farClear ∧
      (∀ a, (12 + p.val) * 2 ^ 26 * 65536 ≤ a → a < (13 + p.val) * 2 ^ 26 * 65536 → mapGet 0 t.mem a = 0)) ∧
  (∀ (p : Fin 4) s, s.alive = true → s.evac.contains (.port p) = true → s.pagesAt (12 + p.val) = 0 →
    s.migs.any (fun m => m.loc == 12 + p.val) = false →
    ∃ t, exec (.evacuationComplete (.port p)) s = .next t ∧ t.fld .FTP_STATUS_state p.val = ftpOffline ∧
      t.fld .FTP_STATUS_lanes p.val = 0 ∧ t.fld .FTP_STATUS_gts p.val = 0 ∧ t.fld .FTP_STATUS_flit256 p.val = 0 ∧
      t.fld .FTP_CTL_offline_req p.val = 0 ∧ t.fld .FTP_STATUS_evac_failed p.val = 0 ∧ t.evac = s.evac.erase (.port p)) ∧
  (∀ (i : Fin 12) s, s.alive = true → s.evac.contains (.site i) = true → s.pagesAt i.val ≠ 0 →
    s.loct.any (fun e => e.2.on i.val && e.2.state == .resident && (s.evacDest e.1 e.2).isNone) = true →
    exec (.evacuationComplete (.site i)) s =
      .next (({ s with evac := s.evac.erase (.site i) }).presetEnd 0 i.val .RAS_PRESET_STATUS_evac_failed 1))) ∧
  ((∀ (site : Fin 12) (ch : Fin 4) die bank s, s.alive = true → s.locUp site.val = true →
    let k := (site.val * 4 + ch.val) * 64 + die % 4 * 16 + bank % 16
    ∃ t, exec (.refresh site ch die bank) s = .next t ∧ mapGet 0 t.refresh k = mapGet 0 s.refresh k + 1 ∧
      t = { s with refresh := t.refresh }) ∧
  (∀ (site : Fin 12) (ch die : Fin 4) s, s.alive = true → s.locUp site.val = true →
    let m := s.fld .MEM_SITE_STATUS_chan_ok site.val
    exec (.retrain site ch die true) s = .next s ∧
    (m.testBit ch.val = true → exec (.retrain site ch die false) s =
      .next ((s.setFld .MEM_SITE_STATUS_chan_ok site.val (m - 2 ^ ch.val)).siteFail site.val))) ∧
  (∀ (site : Fin 12) addr a s, s.alive = true → s.locUp site.val = true → addr < 2 ^ 36 →
    let ch := 4 * site.val + (locate addr).ch
    let per := passPeriod s.patrolPer s.patrolAt ch addr (s.fld .CFG_MEMORY_patrol_period_h 0)
    let s1 : State := { s with patrolPer := mapSet 0 s.patrolPer ch per, patrolAt := mapSet 0 s.patrolAt ch addr }
    (per = 0 → exec (.patrol site addr a) s = .next { s with patrolPer := mapSet 0 s.patrolPer ch 0 }) ∧
    (per ≠ 0 →
    (a = .clean → exec (.patrol site addr a) s = .next s1) ∧
    (a = .corrected → exec (.patrol site addr a) s = .next (s1.satFld .MEM_SITE_ERR_ecc_corrected site.val 1)) ∧
    (a = .uncorrectable → ∃ t, exec (.patrol site addr a) s = .next t ∧ t.fld .MEM_SITE_ERR_ADDR_patrol site.val = 1 ∧
      t.fld .MEM_SITE_ERR_ADDR_valid site.val = 1 ∧
      t.fld .MEM_SITE_ERR_ADDR_addr site.val = addr % 2 ^ Fld.MEM_SITE_ERR_ADDR_addr.desc.width ∧ t.mem = s.mem))) ∧
  (∀ (j : Fin 2) line e s x, s.alive = true → (s.scd j.val).lines.find? (fun y => y.2.addr == line) = some x →
    let per := passPeriod s.scrubPer s.scrubAt j.val line (s.fld .RAS_SCD_STATUS_scrub_period_h j.val)
    let s1 : State := { s with scrubPer := mapSet 0 s.scrubPer j.val per, scrubAt := mapSet 0 s.scrubAt j.val line }
    (per = 0 → exec (.scrub j line e) s = .next { s with scrubPer := mapSet 0 s.scrubPer j.val 0 }) ∧
    (per ≠ 0 →
    (e = .clean → exec (.scrub j line e) s = .next s1) ∧
    (e = .correctable → exec (.scrub j line e) s = .next (s1.satFld .RAS_SCD_ECC_corrected j.val 1)) ∧
    (e = .uncorrectable → x.2.dirty ≠ [] → exec (.scrub j line e) s = .next (s1.fatalStop 0x0202 (28 + j.val))))) ∧
  (∀ (site : Fin 12) (ch die : Fin 4) (c : Int) s, s.alive = true → s.locUp site.val = true →
    let k := site.val * 16 + ch.val * 4 + die.val
    ∃ t, exec (.temperatureReading site ch die c) s = .next t ∧ mapGet 0 t.dieTemp k = c ∧
      (((s.fld .CFG_MEMORY_refresh_hot_c 0 : Nat) : Int) < c → k ∈ t.hotDies) ∧
      (c ≤ ((s.fld .CFG_MEMORY_refresh_hot_c 0 : Nat) : Int) → t.hotDies = s.hotDies.erase k) ∧ t.mem = s.mem))

/-- R224, R228 to R230, R232, R379, R415: the events of a far-tier port: a failure, a timeout (the third within one
second on one expander fails the port; else it answers the oldest late request of a cell there as uncorrectable, where
there is none the next access: log entry 48), poison, an event record, a load, a new expander, a link that comes up; a
removal and a return to service that software asks for.
Completes: farPortFailure, cxlMemTimeout, memdata, ndrCmp, expanderEventRecord, expanderInsertion, farTierLinkUp,
offlineReq, onlineReq. -/
def Obligations.FarTierPorts : Prop :=
  ∀ (p : Fin 4) s, s.alive = true → let n := p.val
    let st := s.fld .FTP_STATUS_state n
    (∀ c, exec (.farPortFailure p c) s = .next (s.portFail n)) ∧
    (∀ x, st = ftpOnline ∨ st = ftpEvacuating →
      let ts := (s.now :: mapGet [] s.ftTimes (8 * n + x % 8)).filter (fun t => decide (s.now ≤ t + 1000000000))
      let s1 := ({ s with ftTimes := mapSet [] s.ftTimes (8 * n + x % 8) ts }).satFld .FTP_ERR_timeouts n 1
      let ws := s.waitsAt n (x % 8)
      let late := ws.filter (fun w => decide (w.2.2.2.1 ≤ s.now))
      (ws ≠ [] → late = [] → s.farBusy n = false → exec (.cxlMemTimeout p x) s = .next s) ∧
      (ws = [] ∨ late ≠ [] ∨ s.farBusy n = true → (ts.length < 3 → exec (.cxlMemTimeout p x) s =
          .next (match minBy (fun w => w.2.2.2.1) late with
            | some w => s1.failLate w late
            | none => s1.portBad (4 + (8 * n + x % 8)))) ∧
        (3 ≤ ts.length → exec (.cxlMemTimeout p x) s = .next (s1.portFail n)))) ∧
    exec (.memdata p true) s = .next ((s.satFld .FTP_ERR_poison n 1).portBad n) ∧ exec (.memdata p false) s = .next s ∧
    (∀ l, ∃ t, exec (.ndrCmp p l) s = .next t ∧ mapGet .light t.devLoad n = l ∧ t = { s with devLoad := t.devLoad }) ∧
    (∀ x, exec (.expanderEventRecord p x) s = .next ((s.satFld .FTP_ERR_poison n 1).portBad (4 + 8 * n + x % 8))) ∧
    (∀ (t : State) k, t.portBad k = { t with ftBad := t.ftBad ++ [k] }) ∧
    (∀ e, (s.january = true → exec (.expanderInsertion p e) s = .next s)) ∧
    (∀ e, s.linksHeld = false →
      (s.january = false → s.fld .CFG_FAR_TIER_hot_add 0 ≠ 0 → s.canEnumerate n = true → exec (.expanderInsertion p e) s = .next (s.enumerate n e)) ∧
      (s.fld .CFG_FAR_TIER_hot_add 0 = 0 → exec (.expanderInsertion p e) s = .next s) ∧
      (st = 1 ∨ st = 2 → exec (.farTierLinkUp p e) s = .next (s.enumerate n e))) ∧
    (s.ready = true →
      (s.ftpBusy n true = false → st = ftpOnline → ∃ t, exec (.offlineReq p) s = .next t ∧
        t.fld .FTP_STATUS_state n = ftpEvacuating ∧ t.fld .FTP_CTL_offline_req n = 1 ∧
        t.fld .FTP_STATUS_evac_failed n = 0 ∧ .port p ∈ t.evac) ∧
      (s.ftpBusy n true = true → exec (.offlineReq p) s = .next s) ∧
      (∀ e, (s.canEnumerate n = true → exec (.onlineReq p e) s = .next ((s.setFld .FTP_CTL_online_req n 1).enumerate n e)) ∧
        (s.canEnumerate n = false → exec (.onlineReq p e) s = .next s)))

/-! ### Completion of the commands that the device gives itself -/

/-- R43, R88, R151, R152, R167, R246, R251, R284: on concrete conditions of the state alone, commands of cells and
kernels complete with their effect: feResend with its one returned lane served or made to wait again,
threadBlockPlacement with one thread block more, kernelEnd with the block free, kernelRetire with its LAUNCH completed,
budgetExpiry with the kernel aborted; and commands of the Placement Engine: heatScan with the page's heat decayed,
migrationStart with one migration more, migrationPassEnd, on a clean read, with the page remapped.
R196, R219, R223, R242, R382, R425: commands of the memory units: frameZeroed, farTierClear, evacuationComplete,
refresh, retrain, patrol, scrub, temperatureReading.
Of the model: the choices within these commands are those of the statements of each. -/
def Obligations.EngineCommandsComplete : Prop :=
  (∀ cid id s q op vd l since lim d s1 r, s.alive = true → s.req (cellNo cid) id = some q → q.kind = .fe op vd →
    q.lanes = [l] → l.st = .returned since lim → l.tgt = .dev d → s.homePrep (cellNo cid) l.va l.tgt = .ok s1 →
    s1.feArrive d op l.a (.cell (cellNo cid) q.slot id l.lane) since (s1.cellAsc (cellNo cid)) = r →
    (r.2 = .served → exec (.feResend cid id) s = .next ((r.1.settle (cellNo cid) id).cellAnswered (cellNo cid))) ∧
    (r.2 = .waits → exec (.feResend cid id) s = .next (((r.1.setLane (cellNo cid) id l.lane (.waiting since lim)).settle
      (cellNo cid) id).cellAnswered (cellNo cid)))) ∧
  (∀ s k sh r c, s.alive = true → s.kernels = [k] → k.aborted = false → k.next < k.total → k.prio ≤ 7 → k.share = some sh →
    s.placeOn k sh = some (r, c) → ∃ t, exec .threadBlockPlacement s = .next t ∧
      (t.cell c).tbs.length = (s.cell c).tbs.length + 1 ∧ (t.cell c).state = .running ∧
      ∃ k1, t.kernels = [k1] ∧ k1.id = k.id ∧ k1.next = k.next + 1 ∧ k1.due = s.now) ∧
  (∀ bid s, let b := blockNo bid
    s.alive = true → (s.block b).owes = true → (s.block b).l2.lines = [] → s.remote = [] →
    (∀ c ∈ cellsOfBlock b, (s.cell c).comb = [] ∧ (s.cell c).storesLeft = false) →
    ∃ t, exec (.kernelEnd bid) s = .next t ∧ (t.block b).kern = 0 ∧ (t.block b).owes = false ∧
      ∀ c ∈ cellsOfBlock b, (t.cell c).tbs = [] ∧ (t.cell c).groups = []) ∧
  (∀ k s x p, s.alive = true → s.kernel? k = some x → x.aborted = false → x.next = x.total → x.retired = x.total →
    s.blocks.any (fun e => e.2.kern == k) = false → x.code = 0 → x.lost = false → s.pkt x.q x.seq = some p →
    s.qState x.q ≠ qDraining → let t := s.teardown k
      exec (.kernelRetire k) s = .next (State.finishPkt { t with kernels := t.kernels.filter (fun y => y.id != k) }
        p 0 0 false false)) ∧
  (∀ k s x t, s.alive = true → s.kernel? k = some x → x.first = some t → x.aborted = false → x.budget ≠ 0 →
    t + x.budget * 1000000 ≤ s.now → let cs := s.budgetCells k
      let r := s.capture x.q (s.pkt x.q x.seq) fcBudget true x.epoch (cs.map s.cellEntry)
      exec (.budgetExpiry k) s = .next (((r.1.areaWrite x.q 0x100 r.2).modKernel k (fun y => { y with cells := cs })).abortKernel
        k fcBudget false)) ∧
  (∀ dpn s, s.ready = true → (s.loc dpn).state = .resident → ∃ t, exec (.heatScan dpn) s = .next t ∧
    (t.loc dpn).heat = (s.loc dpn).heat -
      ((s.loc dpn).heat + 2 ^ s.fld .PLE_SEASON_decay_shift 0 - 1) / 2 ^ s.fld .PLE_SEASON_decay_shift 0 ∧
    (t.loc dpn).state = .resident ∧ (t.loc dpn).loc = (s.loc dpn).loc ∧ t.mem = s.mem) ∧
  (∀ (mid : Fin 4) s dpn l kind pair f, s.ready = true → (s.migs.filter (fun m => m.dpn % 4 == mid.val)).length < 16 →
    let s1 := s.waterMark
    firstMove ([s1.nextEvac mid.val, s1.nextPin mid.val] ++
      (if s1.seasonal then [s1.nextDemotion mid.val, s1.nextPromotion mid.val] else [])) = some (dpn, l, kind, pair) →
    s1.locPaced l = false → s1.locPaced (s1.loc dpn).loc = false → s1.lowestFrame l (s1.loc dpn).sync = some f →
    ∃ t, exec (.migrationStart mid) s = .next t ∧ (t.loc dpn).state = .migrating ∧
      t.migs.length = s.migs.length + 1 ∧ ∃ m ∈ t.migs, m.dpn = dpn ∧ m.loc = l ∧ m.frame = f ∧ m.kind = kind) ∧
  (∀ dpn s m, s.alive = true → s.migs.find? (fun m => m.dpn == dpn) = some m → s.locPaced m.loc = false →
    s.locPaced (s.loc dpn).loc = false → s.ftBad = [] → s.badLines = [] → m.dirty.length ≤ 16 →
    exec (.migrationPassEnd dpn .clean) s =
      .next (State.remap (s.addFld .PLE_MIG_STAT_bytes 0 (128 * m.dirty.length)) m)) ∧
  (∀ loc frame s, s.alive = true → frame < 2 ^ 26 → loc * 2 ^ 26 + frame ∈ s.unclean →
    ∃ t, exec (.frameZeroed loc frame) s = .next t ∧ loc * 2 ^ 26 + frame ∉ t.unclean) ∧
  (∀ (p : Fin 4) s, s.ready = true → s.fld .FTP_STATUS_state p.val = ftpOnline → p.val ∉ s.farClear →
    ∃ t, exec (.farTierClear p) s = .next t ∧ t.farClear = p.val :: s.farClear) ∧
  (∀ (p : Fin 4) s, s.alive = true → s.evac.contains (.port p) = true → s.pagesAt (12 + p.val) = 0 →
    s.migs.any (fun m => m.loc == 12 + p.val) = false →
    ∃ t, exec (.evacuationComplete (.port p)) s = .next t ∧ t.fld .FTP_STATUS_state p.val = ftpOffline) ∧
  (∀ (site : Fin 12) (ch die4 : Fin 4) die bank (temp : Int) addr s, s.alive = true → s.locUp site.val = true →
    (let k := (site.val * 4 + ch.val) * 64 + die % 4 * 16 + bank % 16
      ∃ t, exec (.refresh site ch die bank) s = .next t ∧ mapGet 0 t.refresh k = mapGet 0 s.refresh k + 1) ∧
    (∃ t, exec (.retrain site ch die4 false) s = .next t ∧ t.fld .MEM_SITE_STATUS_state site.val = siteFailed) ∧
    exec (.retrain site ch die4 true) s = .next s ∧
    (addr < 2 ^ 36 → let ch := 4 * site.val + (locate addr).ch
      passPeriod s.patrolPer s.patrolAt ch addr (s.fld .CFG_MEMORY_patrol_period_h 0) ≠ 0 →
      ∃ t, exec (.patrol site addr .clean) s = .next t ∧ mapGet 0 t.patrolAt ch = addr) ∧
    (∃ t, exec (.temperatureReading site ch die4 temp) s = .next t ∧
      mapGet 0 t.dieTemp (site.val * 16 + ch.val * 4 + die4.val) = temp)) ∧
  (∀ (j : Fin 2) line s x, s.alive = true → (s.scd j.val).lines.find? (fun y => y.2.addr == line) = some x →
    passPeriod s.scrubPer s.scrubAt j.val line (s.fld .RAS_SCD_STATUS_scrub_period_h j.val) ≠ 0 →
    ∃ t, exec (.scrub j line .clean) s = .next t ∧ mapGet 0 t.scrubAt j.val = line)

/-! ### Units, counters, queue 0, registers -/

/-- R229, R230, R425 to R427: the actions on sites, far-tier ports and Silit ports: one that is not legal in the unit's
state, or that comes while another is in progress, is discarded; else it begins, with `busy` 1, and, for a reset or a
power-up, ends with the outcome of training: the unit's state, `busy` 0, `failed` if it did not return to service. That
an action begins and ends in two commands is the model's: log entry 29. Each of the eleven commands also completes on a
concrete state of its unit.
Completes: siteEvacuate, sitePowerDown, farPortEvacuate, farPortPowerDown, silitPortPowerDown, siteReset, sitePowerUp,
farPortReset, farPortPowerUp, silitPortReset, silitPortPowerUp. -/
def Obligations.UnitActions : Prop :=
  ∀ (site : Fin 12) (p : Fin 4) (q : Fin 12) ok e l s, s.ready = true →
    (∀ r ∈ ([(.siteEvacuate site, 0, site.val, actEvacuate), (.sitePowerDown site, 0, site.val, actDown),
        (.farPortEvacuate p, 1, p.val, actEvacuate), (.farPortPowerDown p, 1, p.val, actDown),
        (.silitPortPowerDown q, 2, q.val, actDown)] : List (Instr × Nat × Nat × Nat)),
      ((s.fld .RAS_PRESET_STATUS_busy 0 ≠ 0 ∨ s.presetLegal r.2.1 r.2.2.1 r.2.2.2 = false) → exec r.1 s = .next s) ∧
      (∀ t, s.presetBegin r.2.1 r.2.2.1 r.2.2.2 = some t → exec r.1 s = .next t)) ∧
    (∀ r ∈ ([(.siteReset site ok, 0, site.val, actReset, fun s => (s.siteTrained site.val ok, ok)),
        (.sitePowerUp site ok, 0, site.val, actUp, fun s => (s.siteTrained site.val ok, ok)),
        (.farPortReset p e, 1, p.val, actReset, fun s => (s.enumerate p.val e, e.trained && !s.linksHeld)),
        (.farPortPowerUp p e, 1, p.val, actUp, fun s => (s.enumerate p.val e, e.trained && !s.linksHeld)),
        (.silitPortReset q l, 2, q.val, actReset, fun s => s.siliFin q.val l),
        (.silitPortPowerUp q l, 2, q.val, actUp, fun s => s.siliFin q.val l)]
        : List (Instr × Nat × Nat × Nat × (State → State × Bool))),
      (s.presetOn r.2.1 r.2.2.1 r.2.2.2.1 = false →
        (s.fld .RAS_PRESET_STATUS_busy 0 ≠ 0 ∨ s.presetLegal r.2.1 r.2.2.1 r.2.2.2.1 = false) → exec r.1 s = .next s) ∧
      (∀ s1, (if s.presetOn r.2.1 r.2.2.1 r.2.2.2.1 then some s else s.presetBegin r.2.1 r.2.2.1 r.2.2.2.1) = some s1 →
        s1.alive = true → s1.presetOn r.2.1 r.2.2.1 r.2.2.2.1 = true →
        ∃ t, exec r.1 s = .next t ∧ t.fld .RAS_PRESET_STATUS_busy 0 = 0 ∧
          t.fld .RAS_PRESET_STATUS_failed 0 = (if (r.2.2.2.2 s1).2 then 0 else 1) ∧
          t = { (r.2.2.2.2 s1).1 with regs := t.regs })) ∧
    (∀ i, i < 12 → s.fld .RAS_PRESET_STATUS_busy 0 = 0 → s.fld .MEM_SITE_STATUS_state i = siteOff →
      ∃ t, s.presetBegin 0 i actUp = some t ∧ t.fld .RAS_PRESET_STATUS_busy 0 = 1 ∧
        t.fld .MEM_SITE_STATUS_state i = siteTraining ∧ t.presetOn 0 i actUp = true) ∧
    (s.fld .RAS_PRESET_STATUS_busy 0 = 0 →
      let st := s.fld .MEM_SITE_STATUS_state site.val
      let ft := s.fld .FTP_STATUS_state p.val
      let up := e.trained && !s.linksHeld
      let ends := fun (c : Instr) (f : Fld) (i v : Nat) (up : Bool) => ∃ t, exec c s = .next t ∧ t.fld f i = v ∧
        t.fld .RAS_PRESET_STATUS_busy 0 = 0 ∧ t.fld .RAS_PRESET_STATUS_failed 0 = if up then 0 else 1
      (st = siteOnline → ∃ t, exec (.siteEvacuate site) s = .next t ∧ .site site ∈ t.evac ∧
        t.fld .RAS_PRESET_STATUS_busy 0 = 1) ∧
      (st = siteOnline → s.evac.contains (.site site) = true → s.pagesAt site.val = 0 →
        (∃ j, j < 12 ∧ j ≠ site.val ∧ j / 3 = site.val / 3 ∧ s.locUp j = true) →
        ∃ t, exec (.sitePowerDown site) s = .next t ∧ t.fld .MEM_SITE_STATUS_state site.val = siteOff ∧
          t.fld .RAS_PRESET_STATUS_busy 0 = 0) ∧
      (st = siteFailed → ends (.siteReset site ok) .MEM_SITE_STATUS_state site.val (if ok then siteOnline else siteFailed) ok) ∧
      (st = siteOff → ends (.sitePowerUp site ok) .MEM_SITE_STATUS_state site.val (if ok then siteOnline else siteFailed) ok) ∧
      (ft = ftpOnline → ∀ c ∈ [Instr.farPortEvacuate p, .farPortPowerDown p], ∃ t, exec c s = .next t ∧ .port p ∈ t.evac ∧
        t.fld .FTP_STATUS_state p.val = ftpEvacuating ∧ t.fld .RAS_PRESET_STATUS_busy 0 = 1) ∧
      (ft = ftpFailed → ends (.farPortReset p e) .FTP_STATUS_state p.val (if up then ftpOnline else 1) up) ∧
      (ft = ftpOffline → ends (.farPortPowerUp p e) .FTP_STATUS_state p.val (if up then ftpOnline else 1) up) ∧
      (s.fld .FAB_PORT_CFG_mode q.val ≠ modeOff → ∃ t, exec (.silitPortPowerDown q) s = .next t ∧ q.val ∈ t.siliOff ∧
        t.fld .FAB_PORT_STATUS_state q.val = portDown ∧ t.fld .RAS_PRESET_STATUS_busy 0 = 0) ∧
      (s.fld .FAB_PORT_CFG_mode q.val ≠ modeOff ∧ q.val ∉ s.siliOff → ∃ t, exec (.silitPortReset q l) s = .next t ∧
        t.fld .RAS_PRESET_STATUS_busy 0 = 0 ∧
        (t.fld .RAS_PRESET_STATUS_failed 0 = 1 ↔ t.fld .FAB_PORT_STATUS_state q.val = portDown)) ∧
      (q.val ∈ s.siliOff → ∃ t, exec (.silitPortPowerUp q l) s = .next t ∧ t.fld .RAS_PRESET_STATUS_busy 0 = 0 ∧
        q.val ∉ t.siliOff ∧
        (t.fld .RAS_PRESET_STATUS_failed 0 = 1 ↔ t.fld .FAB_PORT_STATUS_state q.val = portDown)))

/-- R36: a write of REG_PMC_SELk sets its event and zeroes REG_PMC_VALk, a `clear` zeroes the region's eight counters, a
`snapshot` copies them with the time; no other region's counter changes.
R8, R11, R263, R326, R336: a host access of the wrong size or alignment is recorded in HIF_ACCESS_ERR and counted, and
writes nothing else of the device's registers; a permitted BAR0 write reaches its register, masked to the bytes written;
one from a kernel queue, too; a BAR2 read shows the queue's write pointer, a rejected read zero; a BAR2 write is a
doorbell.
R322, R326, R340: a host read of configuration space meets Request Retry Status until the March load ends; in D3hot no
BAR claims a read.
Of the model: the offsets of configuration space are log entry 50, single accesses log entry 51.
Completes: pmcSelWrite, pmcClear, pmcSnapshot, registerWrite, rejectedAccess. -/
def Obligations.CountersAndRegisters : Prop :=
  (∀ (r : Fin 24) s, (s.bars = true ∨ s.ready = true) →
    (∀ (k : Fin 8) (v : BitVec 32), ∃ t, exec (.pmcSelWrite r k v) s = .next t ∧
      t.fld .REG_PMC_VAL_count (8 * r.val + k.val) = 0 ∧
      t.fld .REG_PMC_SEL_event (8 * r.val + k.val) = v.toNat % 256 ∧
      t.fld .REG_PMC_SEL_block (8 * r.val + k.val) = v.toNat / 256 % 16 ∧
      (∀ i, i ≠ 8 * r.val + k.val → t.fld .REG_PMC_VAL_count i = s.fld .REG_PMC_VAL_count i ∧
        t.fld .REG_PMC_SEL_event i = s.fld .REG_PMC_SEL_event i) ∧ t = { s with regs := t.regs }) ∧
    (∃ t, exec (.pmcClear r) s = .next t ∧
      (∀ i, t.fld .REG_PMC_VAL_count i = if i / 8 = r.val then 0 else s.fld .REG_PMC_VAL_count i) ∧
      t = { s with regs := t.regs }) ∧
    (∃ t, exec (.pmcSnapshot r) s = .next t ∧
      (∀ i, t.fld .REG_PMC_VAL_count i = s.fld .REG_PMC_VAL_count i) ∧
      (∀ i, t.fld .REG_PMC_SNAP_count i % 2 ^ Fld.REG_PMC_SNAP_count.desc.width =
        (if i / 8 = r.val then s.fld .REG_PMC_VAL_count i else s.fld .REG_PMC_SNAP_count i) %
          2 ^ Fld.REG_PMC_SNAP_count.desc.width) ∧
      t.fld .REG_PMC_SNAP_TIME_tai_ns r.val = s.now % 2 ^ 64 ∧ t = { s with regs := t.regs })) ∧
  (∀ bar off size (v : DWord) s, off + size ≤ Bar.size bar →
    (s.bars = true →
      (rejects bar off size true = true → exec (.registerWrite bar off size v false) s = .next (s.accessErr bar off true)) ∧
      (∀ w, rejects bar off size w = true → exec (.rejectedAccess bar off size w) s = .next (s.accessErr bar off w)) ∧
      (rejects .bar0 off size true = false → bar = .bar0 → exec (.registerWrite .bar0 off size v false) s =
        .next (s.write0 off (2 ^ (8 * size) - 1) (v.toNat % 2 ^ (8 * size)) false).1) ∧
      (rejects .bar2 off size true = false → bar = .bar2 → s.ready = true →
        exec (.registerWrite .bar2 off size v false) s = .next (s.ring (off / 4096) v.toNat))) ∧
    (s.ready = true → badAccess off size = false → exec (.registerWrite .bar0 off size v true) s =
      .next (s.write0 off (2 ^ (8 * size) - 1) (v.toNat % 2 ^ (8 * size)) true).1) ∧
    (∀ w, let t := s.accessErr bar off w
      t.fld .HIF_ACCESS_ERR_offset 0 = off % 2 ^ 26 ∧ t.fld .HIF_ACCESS_ERR_bar 0 = Bar.num bar % 4 ∧
      t.fld .HIF_ACCESS_ERR_write 0 = (if w then 1 else 0) ∧
      t.fld .HIF_ACCESS_ERR_count 0 = min (s.fld .HIF_ACCESS_ERR_count 0 + 1) (2 ^ 32 - 1) ∧
      t = { s with regs := t.regs, msix := t.msix }) ∧
    (rejects bar off size false = true → s.barRead bar off size = 0) ∧
    (∀ q, size = 8 → off = 4096 * q → bar = .bar2 → s.barRead bar off size = s.fld .CFE_Q_WPTR_wptr q) ∧
    (s.hostThere = true →
      (s.hif.crs = true → s.hostRead bar off size = if bar = .config then .retry else .unclaimed) ∧
      (s.hif.crs = false → s.hif.d3hot = true →
        s.hostRead bar off size = if bar = .config then .data (s.barRead bar off size) else .unclaimed) ∧
      (s.hif.crs = false → s.hif.d3hot = false → s.hostRead bar off size = .data (s.barRead bar off size))))

/-- R289: with queue 0 DISABLED and ASC 0 FREE, `enable` makes ASC 0 ACTIVE with root 0 and queue 0 an ACTIVE kernel
queue of it with the bootstrap fields, priority 7, tag 0 and no budget; in any other state of queue 0 it is discarded.
`resume` and `reset` act where R287 allows, else they are discarded.
R293: a signal applied to a fence: with d = `value` − fence as a signed 64-bit number, a positive d sets the fence and
tests its waiters, 0 changes nothing, a negative d is stale, ignored and counted.
R263: a doorbell rung: a DISABLED queue discards it, and so does one that is DRAINING by DESTROY; a value below `wptr`
is discarded and counted; one that would overrun the ring faults the queue with RING_OVERRUN, a queue that a RESET
drains going on draining (log entry 35); any other sets `wptr` and the latch.
Of the model: the bootstrap fields as written are log entry 9, a write that is discarded in part log entry 51.
Completes: bootqEnable, bootqResume, bootqReset, doorbell. -/
def Obligations.QueueZeroAndSignals : Prop :=
  (∀ s, s.bootCtl = true →
    (s.qState 0 ≠ qDisabled → exec .bootqEnable s = .next s) ∧
    (s.qState 0 = qDisabled → s.fld .CFE_ASC_STATE_state 0 = 0 → 6 ≤ s.fld .CFE_BOOTQ_CFG_size_log2 0 →
      s.fld .CFE_BOOTQ_CFG_size_log2 0 ≤ 16 →
      let s1 := s.setFlds 0 [(.CFE_ASC_STATE_state, 1), (.CFE_ASC_ROOT_root, 0), (.CFE_ASC_STATE_root_valid, 0)]
      exec .bootqEnable s = .next (s1.createQueue 0
        { kernel := true, ringHost := decide (s.fld .CFE_BOOTQ_CFG_ring_host 0 ≠ 0), size := s.fld .CFE_BOOTQ_CFG_size_log2 0
          asc := 0, prio := 7, acct := 0, base := s.fld .CFE_BOOTQ_BASE_base 0, cmpl := s.fld .CFE_BOOTQ_CMPL_cmpl_base 0
          cmplHost := decide (s.fld .CFE_BOOTQ_CMPL_cmpl_host 0 ≠ 0)
          vector := if s.fld .CFE_BOOTQ_CFG_vector_en 0 ≠ 0 then some (s.fld .CFE_BOOTQ_CFG_vector 0) else none
          budget := 0xFFFFFFFF })) ∧
    (∀ retry, (s.qState 0 = qFaulted → exec (.bootqResume retry) s = .next (s.resumeQueue 0 retry)) ∧
      (s.qState 0 ≠ qFaulted → exec (.bootqResume retry) s = .next s)) ∧
    ((s.qState 0 = qActive ∨ s.qState 0 = qStopped ∨ s.qState 0 = qFaulted →
        exec .bootqReset s = .next (s.startDrain 0 .reset)) ∧
      (s.qState 0 ≠ qActive → s.qState 0 ≠ qStopped → s.qState 0 ≠ qFaulted → exec .bootqReset s = .next s))) ∧
  (∀ (s : State) f v, let d := sgn 64 (v + (2 ^ 64 - s.fld .CFE_FENCE_VALUE_value f))
    (0 < d → s.fenceSignal f v = ((s.setFld .CFE_FENCE_VALUE_value f v).fenceTest f, false)) ∧
    (d = 0 → s.fenceSignal f v = (s, false)) ∧
    (d < 0 → (s.fenceSignal f v).2 = true ∧
      (s.fenceSignal f v).1.fld .CFE_FENCE_VALUE_value f = s.fld .CFE_FENCE_VALUE_value f ∧
      (s.fenceSignal f v).1.fld .CFE_FENCE_STALE_COUNT_count 0 =
        (s.fld .CFE_FENCE_STALE_COUNT_count 0 + 1) % 2 ^ Fld.CFE_FENCE_STALE_COUNT_count.desc.width ∧
      (s.fenceSignal f v).1 = { s with regs := (s.fenceSignal f v).1.regs }) ∧
    fenceSat 0x10 0x10 = true ∧ fenceSat 0xFFFFFFFFFFFFFFF0 0x8 = false ∧ fenceSat 0x4 0xFFFFFFFFFFFFFFF8 = true) ∧
  (∀ (q : Fin 4096) (v : DWord) s, s.ready = true → s.barUp = true →
    let n := q.val
    let w := s.fld .CFE_Q_WPTR_wptr n
    let live := s.qState n ≠ qDisabled ∧ (s.qState n = qDraining → (s.queue n).drain = .reset)
    let fits := v.toNat - s.fld .CFE_Q_RPTR_rptr n ≤ 2 ^ s.fld .CFE_Q_CFG_size_log2 n
    (¬ live → exec (.doorbell q v) s = .next s) ∧
    (live → v.toNat < w → ∃ t, exec (.doorbell q v) s = .next t ∧
      t.fld .CFE_Q_DB_STALE_db_stale n = (s.fld .CFE_Q_DB_STALE_db_stale n + 1) % 2 ^ Fld.CFE_Q_DB_STALE_db_stale.desc.width ∧
      t.fld .CFE_Q_WPTR_wptr n = w ∧ t = { s with regs := t.regs }) ∧
    (live → w ≤ v.toNat → ¬ fits → let t := s.stopQueue n none fcOverrun 0xFFFF 0 []
      exec (.doorbell q v) s = .next (if s.qState n = qDraining then t.setFld .CFE_Q_STATUS_state n qDraining else t)) ∧
    (live → w ≤ v.toNat → fits → ∃ t, exec (.doorbell q v) s = .next t ∧ t.fld .CFE_Q_WPTR_wptr n = v.toNat ∧
      t.fld .CFE_Q_STATUS_doorbell_latch n = 1 ∧ t.fld .CFE_Q_RPTR_rptr n = s.fld .CFE_Q_RPTR_rptr n ∧
      (∀ i, i ≠ n → t.fld .CFE_Q_WPTR_wptr i = s.fld .CFE_Q_WPTR_wptr i) ∧ t = { s with regs := t.regs }))

/-- R296: a forced fence takes the written value, higher or lower, its waiters are then tested under R294 (each one
whose value the new one satisfies completes), and neither the count of stale signals nor the fence's own stale mark
changes.
Completes: fenceForce. -/
def Obligations.FenceForced : Prop :=
  ∀ (f : Fin 4096) (v : DWord) s, s.alive = true → ∃ s1 : State,
    exec (.fenceForce f v) s = .next (s1.each
      (s1.pool.filter (fun p => p.waitsFence f.val && decide ((v.toNat + 2 ^ 64 - p.b 16 8 % 2 ^ 64) % 2 ^ 64 < 2 ^ 63)))
      (fun x p => x.endPkt p 0)) ∧
    s1.fld .CFE_FENCE_VALUE_value f.val = v.toNat ∧
    (∀ i, i ≠ f.val → s1.fld .CFE_FENCE_VALUE_value i = s.fld .CFE_FENCE_VALUE_value i) ∧
    s1.fld .CFE_FENCE_STALE_COUNT_count 0 = s.fld .CFE_FENCE_STALE_COUNT_count 0 ∧
    (∀ i, s1.fld .CFE_FENCE_STATUS_stale i = s.fld .CFE_FENCE_STATUS_stale i) ∧ s1 = { s with regs := s1.regs }

/-! ### Packets -/

/-- R269, R270, R281: a packet that has not started: one that waits on a step known to have failed completes with
DEP_FAILED and that step's faulting step; one whose dependences still run does not start. A command for a packet that is
not there, or of another kind, changes nothing. The readings are those of log entries 6 and 8. -/
def Obligations.PacketStarts : Prop :=
  ∀ e, ∀ r ∈ pktRows e, ∀ (q : Fin 4096) seq s,
    (s.pkt q.val seq = none → exec (r.1 q seq) s = .next s) ∧
    (∀ p, s.pkt q.val seq = some p →
      ((s.ready = false ∨ r.2 p = false) → exec (r.1 q seq) s = .next s) ∧
      (s.ready = true → r.2 p = true → s.carriesOn p = false → p.st = .fetched → s.qState q.val = qActive →
        (∀ f, s.depFailed p = some f → exec (r.1 q seq) s = .next (s.finishPkt p fcDepFailed f.fstep false false)) ∧
        (s.depFailed p = none → (∀ x ∈ s.pool, x.q = q.val → x.seq = seq → s.startable x = false) → exec (r.1 q seq) s = .next s.markStartable)))

/-- R204, R274, R282, R283: a LAUNCH taken admits a kernel with its fields, the next kernel epoch (never 0) and its
queue's priority, privilege and budget; a COPY or FILL taken joins its copy engine.
R153, R211, R233, R275, R282, R287: a copy engine performs the next piece of 64 KiB of the step at its head: it ends
after its last piece, fails at its first fault, waits while the host holds a line of it or a peer owes it an answer, and
else turns to the engine's next step, the next piece under the limits then in force; in a drain it ends with the wait of
its piece. A copy that waits for the host does so by log entries 7 and 10.
Of the model: the first epoch is log entry 5.
Completes: launch, copyPkt, fill, copyPieceDone. -/
def Obligations.KernelsAndCopies : Prop :=
  (∀ (q : Fin 4096) seq s s1 p,
    (s.taken q.val seq (isOp 0x01) = some (s1, p) → s1.kernels.any (fun k => k.q == p.q && k.seq == p.seq) = false →
      ∃ t k, exec (.launch q seq) s = .next t ∧ t.kernels = s1.kernels ++ [k] ∧ k.id = s1.nextKern ∧ k.q = p.q ∧ k.seq = p.seq ∧
        k.entry = p.b 8 8 ∧ k.args = p.b 16 8 ∧ k.gx = p.b 24 4 ∧ k.gy = p.b 28 2 ∧ k.gz = p.b 30 2 ∧ k.groups = p.b 32 1 ∧
        k.epoch ≠ 0 ∧ (s1.kepoch + 1 < 2 ^ 24 → k.epoch = s1.kepoch + 1) ∧ k.next = 0 ∧ k.retired = 0 ∧ k.aborted = false ∧
        k.prio = s1.fld .CFE_Q_CFG_prio p.q ∧ (k.priv = true ↔ s1.fld .CFE_Q_CFG_kernel p.q ≠ 0) ∧
        k.budget = (if s1.fld .CFE_Q_BUDGET_budget_ms p.q = 0xFFFFFFFF then s1.fld .CFE_SCHED_CFG_budget_default_ms 0
          else s1.fld .CFE_Q_BUDGET_budget_ms p.q) ∧
        t = { s1 with kernels := t.kernels, nextKern := s1.nextKern + 1, kepoch := k.epoch }) ∧
    (∀ r ∈ ([(.copyPkt, 0x02), (.fill, 0x03)] : List ((Fin 4096 → Nat → Instr) × Nat)),
      s.taken q.val seq (isOp r.2) = some (s1, p) → s1.copyHas p.q p.seq = false →
      ∃ t, exec (r.1 q seq) s = .next t ∧ mapGet [] t.copyEng p.eng = mapGet [] s1.copyEng p.eng ++ [(p.q, p.seq)] ∧
        t = { s1 with copyEng := t.copyEng })) ∧
  (∀ (e : Fin 8) a s q seq rest p, s.alive = true → mapGet [] s.copyEng e.val = (q, seq) :: rest → s.pkt q seq = some p →
    let lim := min p.len ((p.pos / 65536 + 1) * 65536)
    let moved := s.copyTo 64 p lim (p.pos + 128 * (readPlace a).1) (readPlace a).2
    (s.owed q seq = true → exec (.copyPieceDone e a) s = .next s) ∧
    (s.owed q seq = false →
      (∀ s1 p1, moved = .wait s1 → s1.pkt q seq = some p1 → exec (.copyPieceDone e a) s =
        .next (if s1.qState q = qDraining ∧ p1.held = 0 then s1.pieceEnd p1 else s1)) ∧
      (∀ s1 p1 code, moved = .fail s1 code → s1.pkt q seq = some p1 →
        exec (.copyPieceDone e a) s = .next (s1.copyFail p1 code p1.pos)) ∧
      (∀ s1 p1, moved = .ok s1 → s1.pkt q seq = some p1 → lim ≤ p1.pos → s1.owed q seq = false →
        exec (.copyPieceDone e a) s = .next (s1.pieceEnd p1))) ∧
    (s.qState p.q ≠ qDraining → (p.len ≤ p.pos → s.pieceEnd p = (s.offEngine p.q p.seq).endPkt p 0) ∧
      (p.pos < p.len →
        let l := (mapGet [] s.copyEng p.eng).filter (fun x => x != (p.q, p.seq)) ++ [(p.q, p.seq)]
        s.pieceEnd p = State.modPkt { s with copyEng := mapSet [] s.copyEng p.eng l } p.q p.seq (fun x => { x with
          crcLim := s.fld .CFG_MEMORY_crc_retry_limit 0, cxlLim := s.fld .CFG_FAR_TIER_completion_timeout_ms 0 }))))

/-- R153, R254, R275, R293, R294, R363: the user packets that synchronise, once taken: FENCE_SIGNAL acts on the fence
here, or is sent to its device; FENCE_WAIT completes if its value is reached; MEMBAR completes once no earlier packet of
its queue is left; MARK sets CFE_Q_MARK; TIMESTAMP writes the time at its start as 16 bytes; PLACE_HINT sets its pages'
hints, and waits while the host holds a table's line; INVALIDATE writes back and drops the lines of its range, part by
part, and completes; a part whose address has no translation fails it; NOP completes.
R165, R235, R275, R308: an FE_WAIT taken translates its word; a fault, or a word of the host, fails it; at a die of this
device it is served, waits, or fails with STEP_PROTECTION on a page that is no sync page.
Of the model: the charges are log entry 9, work that the host holds back log entry 7, an FE_WAIT that is returned log
entry 19.
Completes: fenceSignal, fenceWait, membar, markPkt, timestamp, nopPkt, placeHint, invalidate, feWait. -/
def Obligations.SynchronisingPackets : Prop :=
  (∀ (q : Fin 4096) seq s s1 p,
    (s.taken q.val seq (isOp 0x04) = some (s1, p) →
      (p.b 10 2 = 0xFFFF ∨ p.b 10 2 = s1.fld .FAB_ID_dev_id 0 →
        let r := s1.fenceSignal (p.b 8 2) (p.b 16 8)
        exec (.fenceSignal q seq) s = .next (r.1.finishPkt p 0 0 r.2 false)) ∧
      (p.b 10 2 ≠ 0xFFFF → p.b 10 2 ≠ s1.fld .FAB_ID_dev_id 0 →
        let f := { Frame.blank with
          dst := BitVec.ofNat 16 (p.b 10 2), addr := BitVec.ofNat 64 (p.b 8 2), data := natLe 8 (p.b 16 8) }
        exec (.fenceSignal q seq) s = .next ((s1.sendReq none (some p.acct) ftFenceSig f (.fence p.q p.seq)).getD
          (s1.failPkt p fcRemoteUnreachable 0 [])))) ∧
    (s.taken q.val seq (isOp 0x05) = some (s1, p) → exec (.fenceWait q seq) s =
      .next (if fenceSat (s1.fld .CFE_FENCE_VALUE_value (p.b 8 2)) (p.b 16 8) then s1.endPkt p 0 else s1)) ∧
    (s.taken q.val seq (isOp 0x0A) = some (s1, p) → exec (.membar q seq) s =
      .next (if s1.pool.any (fun x => x.q == p.q && decide (x.seq < p.seq)) then s1 else s1.endPkt p 0)) ∧
    (s.taken q.val seq (isOp 0x09) = some (s1, p) →
      exec (.markPkt q seq) s = .next ((s1.setFld .CFE_Q_MARK_mark p.q (p.b 8 4)).endPkt p 0)) ∧
    (s.taken q.val seq (isOp 0x08) = some (s1, p) →
      let stamp := fun (x : State) (frac : Nat) =>
        (x.stepWrite p (p.b 8 8) (natLe 8 p.start ++ natLe 2 frac ++ natLe 6 0) true).finish p
      (p.pos = 0 → exec (.timestamp q seq) s =
        .next (stamp (s1.modPkt p.q p.seq (fun x => { x with pos := s1.time.frac + 1 })) s1.time.frac)) ∧
      (p.pos ≠ 0 → exec (.timestamp q seq) s = .next (stamp s1 (p.pos - 1)))) ∧
    (s.taken q.val seq (isOp 0x0D) = some (s1, p) → exec (.nopPkt q seq) s = .next (s1.endPkt p 0)) ∧
    (s.taken q.val seq (isOp 0x07) = some (s1, p) →
      let r := State.hintPages (s1.fld .CFE_Q_CFG_asc p.q) (p.b 24 1)
        ((List.range (p.b 16 8 / 65536)).map (fun i => p.b 8 8 + 65536 * i)) s1
      exec (.placeHint q seq) s = .next (if r.2 then r.1.endPkt p 0 else r.1)) ∧
    (s.taken q.val seq (isOp 0x0C) = some (s1, p) →
      let asc := s1.fld .CFE_Q_CFG_asc p.q
      (∀ s2, State.linesOut asc p.tag (spans (p.b 16 8 / 4096 + 2) (p.b 8 8) (p.b 16 8)) s1 = some s2 →
        s2.owed p.q p.seq = false → exec (.invalidate q seq) s = .next (s2.endPkt p 0)) ∧
      (∀ s2 x, 0 < p.b 16 8 → (∀ t, x ≠ .wait t) → s1.access feMmu asc (p.b 8 8) .read = (.error x, s2) →
        exec (.invalidate q seq) s = .next (s2.failPkt p (stepCode x) 0 [])))) ∧
  (∀ (q : Fin 4096) seq s s1 p, s.taken q.val seq (isOp 0x06) = some (s1, p) → p.pos = 0 → s1.feWaits p = false →
    let take := p.b 16 1 == 1
    let asc := s1.fld .CFE_Q_CFG_asc p.q
    ∀ s2 a, s1.access feMmu asc (p.b 8 8) (if take then .write else .read) = (a, s2) →
      (∀ h, a = .ok (.host h) → exec (.feWait q seq) s = .next (s2.failPkt p fcStepProtection 0 [])) ∧
      (∀ t, a = .error (.wait t) → exec (.feWait q seq) s = .next (s2.biSnoop t false)) ∧
      (∀ x, x = .translation ∨ x = .protection ∨ x = .farTier ∨ x = .ecc → a = .error x →
        exec (.feWait q seq) s = .next (s2.failPkt p (stepCode x) 0 [])) ∧
      (∀ d s3 r, a = .ok (.dev d) → s2.biHeld (.dev d) true = false →
        s2.feArrive d (if take then feWaitTake else feWaitPeek) 0 (.packet p.q p.seq) s2.now (s2.fld .CFE_Q_CFG_asc p.q) = (s3, r) →
        (r = .served → exec (.feWait q seq) s = .next s3) ∧
        (r = .waits → exec (.feWait q seq) s = .next (s3.feDstSnoop p)) ∧
        (r = .notSync → exec (.feWait q seq) s = .next (s3.failPkt p fcStepProtection 0 []))))

/-- R189, R298, R308, R311, R318, R370: a FENCE_WAIT, an FE_WAIT or a collective step that has waited the limit it
started with fails, with its engine entry; before, and with a limit of 0, nothing happens.
R302, R304, R306: the due record of a queue, the lowest `seq` at or below `done_seq`, is written to its history slot and
then to LAST; an acknowledgement lets the next write of the area go, and after the last one raises the queue's vector
where the record asks for it.
Of the model: records that are dropped or wait are log entries 9 and 36.
Completes: fenceWaitTimeout, feWaitExpired, collTimeout, completionRecordWrite, recordWriteAck. -/
def Obligations.StepsEnd : Prop :=
  (∀ (q : Fin 4096) seq s p, s.ready = true → s.pkt q.val seq = some p →
    let late := p.lim ≠ 0 ∧ p.start + p.lim ≤ s.now
    (p.waitsFence (p.b 8 2) = true → (late → exec (.fenceWaitTimeout q seq) s = .next (s.failPkt p fcWaitTimeout 0
        [engineEntry 4 (p.b 8 2) (s.fld .CFE_FENCE_VALUE_value (p.b 8 2))])) ∧
      (¬ late → exec (.fenceWaitTimeout q seq) s = .next s)) ∧
    (p.opcode = 0x06 → p.st = .running → p.fault = 0 → p.pos = 0 →
      (¬ late → exec (.feWaitExpired q seq) s = .next s) ∧
      (late → let away := fun (r : RemReq) => match r.svc with | .piece a b _ => a == p.q && b == p.seq | _ => false
        let s1 := s.feWithdraw (fun w => w.src == .packet p.q p.seq)
        exec (.feWaitExpired q seq) s = .next ((s1.each (s1.remote.filter away) State.withdrawRemote).failPkt p
          fcFeWaitExpired 0 [engineEntry 5 (b2n (s.waiters.any (fun w => w.src == .packet p.q p.seq && s.isFull w.word))) (p.b 8 8)]))) ∧
    (∀ x, s.collOf q.val seq = some x →
      (late → exec (.collTimeout q seq) s = .next (s.collFail q.val seq fcCollTimeout true)) ∧
      (¬ late → exec (.collTimeout q seq) s = .next s))) ∧
  (∀ (s : State) p e x, s.pkt p.q p.seq = some p → (s.takePkt p e).pkt p.q p.seq = some x →
    let ms := fun t dflt => (if t = 0xFFFFFFFF then dflt else t) * 1000000
    x.start = s.now ∧ x.lim = (match p.opcode with
      | 0x05 => ms (p.b 12 4) (s.fld .CFG_FENCE_fence_wait_timeout_ms 0)
      | 0x06 => ms (p.b 20 4) (s.fld .CFG_SYNC_TIMEOUTS_fe_wait_timeout_ms 0)
      | 0x0B => ms (p.b 40 4) (s.fld .CFG_FENCE_fence_wait_timeout_ms 0)
      | _ => 0)) ∧
  (∀ (q : Fin 4096) s, s.alive = true →
    (s.nextRecord q.val = none → exec (.completionRecordWrite q) s = .next s) ∧
    (∀ d, s.nextRecord q.val = some d → d ∈ s.done ∧ d.q = q.val ∧ d.seq ≤ s.fld .CFE_Q_DONE_done_seq q.val ∧
      (∀ x ∈ s.done, x.q = q.val → x.seq ≤ s.fld .CFE_Q_DONE_done_seq q.val → d.seq ≤ x.seq) ∧
      exec (.completionRecordWrite q) s = .next (State.writeRecord { s with done := s.done.erase d } d)) ∧
    (s.acks.find? (fun a => a.q == q.val) = none → exec (.recordWriteAck q) s = .next s) ∧
    (∀ a, s.acks.find? (fun a => a.q == q.val) = some a → a.sent = true →
      (a.writes = [] → (∀ b ∈ s.acks.erase a, b.q ≠ q.val) → exec (.recordWriteAck q) s =
        .next (if a.irq then State.raiseQ { s with acks := s.acks.erase a } q.val else { s with acks := s.acks.erase a })) ∧
      (∀ w rest s1, a.writes = w :: rest → let b : RecWrite := { a with sent := false }
        (s.setAck a (some b)).areaOut a.host (a.base + w.1) w.2 = .sent s1 → exec (.recordWriteAck q) s =
          .next (s1.setAck b (some { a with writes := rest, sent := true })))))

/-- R311, R366 to R371: a collective packet taken begins its step, or is carried on: its `coll_seq` above the last of
its group, else it fails with COLL_MISMATCH and its neighbours are told; it then sends as far as its credits allow. The
order of segments is the model's: log entry 24.
Completes: allReduce, reduceScatter, allGather, broadcast, barrier. -/
def Obligations.CollectivePackets : Prop :=
  (∀ r ∈ ([(.allReduce, 0), (.reduceScatter, 1), (.allGather, 2), (.broadcast, 3), (.barrier, 4)]
      : List ((Fin 4096 → Nat → Instr) × Nat)), ∀ (q : Fin 4096) seq s s1 p, s.taken q.val seq (isAct 0x0B r.2) = some (s1, p) →
    (s1.collOf p.q p.seq = none → exec (r.1 q seq) s = .next ((s1.collStart p).collPoll p.q p.seq)) ∧
    (∀ x, s1.collOf p.q p.seq = some x → exec (r.1 q seq) s = .next (s1.collPoll p.q p.seq))) ∧
  (∀ (s : State) p, (s.collAhead p.cgroup p.cseqOf = false →
      s.collStart p = (s.collAbortOut p.cgroup p.cseqOf).failPkt p fcCollMismatch 0
        [s.collEntry ⟨p.q, p.seq, p.cgroup, p.cseqOf, p.digest, [], false, 0, 0, []⟩]) ∧
    (s.collAhead p.cgroup p.cseqOf = true → (s.route (s.collNext p.cgroup) = none ∨ s.route (s.collPrev p.cgroup) = none) →
      s.collStart p = s.failPkt p fcRemoteUnreachable 0
        [s.collEntry ⟨p.q, p.seq, p.cgroup, p.cseqOf, p.digest, [], false, 0, 0, []⟩]))

/-- R237, R241, R276, R279, R313, R335: the packets on address spaces, once taken: MAP_UPDATE acts on an ACTIVE ASC
(INVALIDATE drops translations; DPN_ALLOC and DPN_FREE give pages frames or take them, once a frame is cleared and the
host holds no line of them; SET_ROOT sets the root and drops every translation), ASC_CREATE makes a FREE ASC ACTIVE,
ASC_DESTROY begins the destruction of one that is ACTIVE, neither ASC 0 nor the packet's own; else the packet fails with
ASC_STATE.
Of the model: the order of the checks is log entry 9, a DPN_ALLOC that waits log entry 49.
Completes: mapUpdateInvalidate, dpnAlloc, dpnFree, setRoot, ascCreate, ascDestroy. -/
def Obligations.ContextPackets : Prop :=
  ∀ (q : Fin 4096) seq s s1 p, let a := p.b 9 1
    (∀ r ∈ ([(.mapUpdateInvalidate, 0), (.dpnAlloc, 1), (.dpnFree, 2), (.setRoot, 3)]
        : List ((Fin 4096 → Nat → Instr) × Nat)), s.taken q.val seq (isAct 0x80 r.2) = some (s1, p) →
      s1.fld .CFE_ASC_STATE_state a ≠ 1 → exec (r.1 q seq) s = .next (s1.failPkt p fcAscState 0 [])) ∧
    (s1.fld .CFE_ASC_STATE_state a = 1 →
      (s.taken q.val seq (isAct 0x80 0) = some (s1, p) →
        exec (.mapUpdateInvalidate q seq) s = .next ((s1.tlbInval a (p.b 16 8) (p.b 24 8)).endPkt p 0)) ∧
      (s.taken q.val seq (isAct 0x80 1) = some (s1, p) →
        let r := s1.allocPages (p.b 16 8) (p.b 24 8) (p.b 10 1 % 2 == 1)
        exec (.dpnAlloc q seq) s =
          .next (if r.2 = 0 then r.1.endPkt p 0 else if r.2 = allocWaits then r.1 else r.1.failPkt p r.2 0 [])) ∧
      (s.taken q.val seq (isAct 0x80 2) = some (s1, p) →
        (s1.pagesHeld (p.b 16 8) (p.b 24 8) = [] →
          exec (.dpnFree q seq) s = .next ((s1.freePages (p.b 16 8) (p.b 24 8)).endPkt p 0)) ∧
        (s1.pagesHeld (p.b 16 8) (p.b 24 8) ≠ [] →
          exec (.dpnFree q seq) s = .next (s1.snoopLines (s1.pagesHeld (p.b 16 8) (p.b 24 8))))) ∧
      (s.taken q.val seq (isAct 0x80 3) = some (s1, p) →
        exec (.setRoot q seq) s = .next (((s1.setFlds a [(.CFE_ASC_ROOT_root, p.b 16 8),
          (.CFE_ASC_STATE_root_valid, if p.b 16 8 = 0 then 0 else 1)]).tlbInval a 0 0).endPkt p 0))) ∧
    (s.taken q.val seq (isOp 0x81) = some (s1, p) →
      (s1.fld .CFE_ASC_STATE_state a ≠ 0 → exec (.ascCreate q seq) s = .next (s1.failPkt p fcAscState 0 [])) ∧
      (s1.fld .CFE_ASC_STATE_state a = 0 → ∃ s2 : State, exec (.ascCreate q seq) s = .next (s2.endPkt p 0) ∧
        s2.fld .CFE_ASC_STATE_state a = 1 ∧ s2.fld .CFE_ASC_ROOT_root a = p.b 16 8 % 2 ^ Fld.CFE_ASC_ROOT_root.desc.width ∧
        s2.fld .CFE_ASC_FAULT_count a = 0 ∧ s2.fld .CFE_ASC_FAULT_valid a = 0 ∧ s2 = { s1 with regs := s2.regs })) ∧
    (s.taken q.val seq (isOp 0x82) = some (s1, p) → p.pos ≠ 1 →
      (s1.fld .CFE_ASC_STATE_state a ≠ 1 ∨ a = 0 ∨ a = s1.fld .CFE_Q_CFG_asc p.q →
        exec (.ascDestroy q seq) s = .next (s1.failPkt p fcAscState 0 [])) ∧
      (s1.fld .CFE_ASC_STATE_state a = 1 → a ≠ 0 → a ≠ s1.fld .CFE_Q_CFG_asc p.q →
        exec (.ascDestroy q seq) s = .next ((s1.modPkt p.q p.seq (fun x => { x with pos := 1 })).ascDrain a)))

/-- R276, R285, R287, R313: QUEUE_CTL, once taken, on another queue in a state that its action allows: CREATE, STOP,
START, RESUME, RESET and DESTROY as the table says, CREATE complete once the completion area is written; on its own
queue, or in any other state, it fails with QUEUE_STATE.
Of the model: the order of the checks is log entry 9.
Completes: queueCreate, queueDestroy, queueStop, queueStart, queueResume, queueReset. -/
def Obligations.QueuePackets : Prop :=
  ∀ (q : Fin 4096) seq s s1 p, let n := p.b 10 2
    let st := s1.qState n
    (∀ r ∈ ([(.queueCreate, 0, [qDisabled]), (.queueDestroy, 1, [qActive, qStopped, qFaulted]), (.queueStop, 2, [qActive]),
        (.queueStart, 3, [qStopped]), (.queueResume, 4, [qFaulted]), (.queueReset, 5, [qActive, qStopped, qFaulted])]
        : List ((Fin 4096 → Nat → Instr) × Nat × List Nat)),
      s.taken q.val seq (isAct 0x83 r.2.1) = some (s1, p) → p.pos ≠ 1 → (n = p.q ∨ st ∉ r.2.2) →
      exec (r.1 q seq) s = .next (s1.failPkt p fcQueueState 0 [])) ∧
    (n ≠ p.q →
      (s.taken q.val seq (isAct 0x83 0) = some (s1, p) → p.pos ≠ 1 → st = qDisabled →
        s1.fld .CFE_ASC_STATE_state (p.b 9 1) = 1 →
        let s2 := (s1.createQueue n
          { kernel := p.b 12 1 % 2 == 1, ringHost := p.b 12 1 / 2 % 2 == 1, size := p.b 13 1, asc := p.b 9 1
            prio := p.b 14 1, acct := p.b 24 2, base := p.b 16 8, cmpl := p.b 32 8 % 2 ^ 52
            cmplHost := (p.b 32 8).testBit 63, vector := if p.b 40 2 = 0xFFFF then none else some (p.b 40 2)
            budget := p.b 28 4 }).modPkt p.q p.seq (fun x => { x with pos := 1 })
        exec (.queueCreate q seq) s = .next (if s2.areaIdle n then s2.endPkt p 0 else s2)) ∧
      (∀ r ∈ ([(.queueDestroy, 1, .destroy), (.queueReset, 5, .reset)] : List ((Fin 4096 → Nat → Instr) × Nat × Drain)),
        s.taken q.val seq (isAct 0x83 r.2.1) = some (s1, p) → p.pos ≠ 1 → (st = qActive ∨ st = qStopped ∨ st = qFaulted) →
        exec (r.1 q seq) s = .next ((s1.modPkt p.q p.seq (fun x => { x with pos := 1 })).startDrain n r.2.2)) ∧
      (s.taken q.val seq (isAct 0x83 2) = some (s1, p) → st = qActive → exec (.queueStop q seq) s =
        .next ((s1.setFlds n [(.CFE_Q_STATUS_state, qStopped), (.CFE_Q_STATUS_idle, 0)]).endPkt p 0)) ∧
      (s.taken q.val seq (isAct 0x83 3) = some (s1, p) → st = qStopped →
        exec (.queueStart q seq) s = .next ((s1.setFld .CFE_Q_STATUS_state n qActive).endPkt p 0)) ∧
      (s.taken q.val seq (isAct 0x83 4) = some (s1, p) → st = qFaulted →
        exec (.queueResume q seq) s = .next ((s1.resumeQueue n ((p.b 12 1).testBit 2)).endPkt p 0)))

/-- R255, R276, R278, R317, R436, R443: the packets that set accounts, priorities, pins, registers and the power cap,
and the sync dump, once taken: sync dumps are written one at a time, in the order they start.
Of the model: a REG_WRITE that is discarded is log entry 51, the charges of DUMP_SYNC log entry 9.
Completes: assign, clear, prioSet, placePin, powerCap, regWrite, dumpSync. -/
def Obligations.SettingPackets : Prop :=
  ∀ (q : Fin 4096) seq s s1 p, let n := p.b 10 2
    (s.taken q.val seq (isAct 0x84 0) = some (s1, p) →
      (s1.qState n = qDisabled → exec (.assign q seq) s = .next (s1.failPkt p fcQueueState 0 [])) ∧
      (s1.qState n ≠ qDisabled →
        exec (.assign q seq) s = .next ((s1.setFld .CFE_Q_CFG_acct n (p.b 12 2)).endPkt p 0))) ∧
    (s.taken q.val seq (isAct 0x84 1) = some (s1, p) → ∃ s2 : State, exec (.clear q seq) s = .next (s2.endPkt p 0) ∧
      (∀ f ∈ [Fld.CFE_ACCT_cell_ns, .CFE_ACCT_matrix_tokens, .CFE_ACCT_vector_ops, .CFE_ACCT_close_bytes,
          .CFE_ACCT_far_bytes, .CFE_ACCT_fabric_bytes, .CFE_ACCT_energy_mj, .CFE_ACCT_kernels],
        ∀ t, s2.fld f t = if p.b 12 2 ≤ t ∧ t < p.b 12 2 + p.b 14 2 then 0 else s1.fld f t) ∧
      s2 = { s1 with regs := s2.regs }) ∧
    (s.taken q.val seq (isOp 0x85) = some (s1, p) →
      (s1.qState n = qDisabled → exec (.prioSet q seq) s = .next (s1.failPkt p fcQueueState 0 [])) ∧
      (s1.qState n ≠ qDisabled → exec (.prioSet q seq) s = .next ((s1.setFlds n
        [(.CFE_Q_CFG_prio, p.b 12 1), (.CFE_Q_BUDGET_budget_ms, p.b 16 4)]).endPkt p 0))) ∧
    (s.taken q.val seq (isOp 0x86) = some (s1, p) → s1.pinWait.contains (p.q, p.seq) = false →
      let s2 := s1.setPins (p.b 8 4) (p.b 12 4) (p.b 16 1) (p.b 17 1)
      exec (.placePin q seq) s = .next (State.pinPkt { s2 with pinWait := s2.pinWait ++ [(p.q, p.seq)] } p)) ∧
    (s.taken q.val seq (isOp 0x89) = some (s1, p) → exec (.powerCap q seq) s = .next ((s1.setFlds 0
      [(.PWR_CAP_cap_w, max 2100 (min 2800 (p.b 8 2))), (.PWR_CAP_source, 2)]).endPkt p 0)) ∧
    (s.taken q.val seq (isOp 0x8C) = some (s1, p) →
      (badAccess (p.b 8 4) (p.b 12 1) = true → exec (.regWrite q seq) s = .next (s1.endPkt p 0)) ∧
      (badAccess (p.b 8 4) (p.b 12 1) = false →
        let w := 2 ^ (8 * p.b 12 1)
        let r := s1.write0 (p.b 8 4) (p.b 16 8 % w) (p.b 24 8 % w) true
        exec (.regWrite q seq) s = .next (if r.2 then s1.failPkt p fcRegisterState 0 [] else r.1.endPkt p 0))) ∧
    (s.taken q.val seq (isOp 0x88) = some (s1, p) → let l := (s1.otherDumps p).map (·.pos)
      let n := if p.pos = 0 then l.foldl max 0 + 1 else p.pos
      let s2 := s1.modPkt p.q p.seq (fun x => { x with pos := n })
      ((∃ m ∈ l, m ≠ 0 ∧ m < n) → exec (.dumpSync q seq) s = .next s2) ∧
      ((∀ m ∈ l, m = 0 ∨ n ≤ m) →
        exec (.dumpSync q seq) s = .next ((s2.stepWrite p (p.b 8 8) (s2.syncDump p.start) true).finish p)))

/-- R277, R421, R422, R424, R440: REGION_CTL, once taken, on a region on which no other action is in progress: ISOLATE
marks a cell; RESET and SELFTEST isolate the region, then rebuild it; QUARANTINE; POWER_DOWN once its stores are
drained, or their limit is reached; POWER_UP from OFFLINE, by a rail of 750 mV and a reset; in any other state it fails
with REGION_STATE. A second action on the region fails, too. A region rebuilt is ONLINE, or, without an enabled block,
quarantined. The stages of an action are the model's: log entry 29.
Completes: regionReset, selftest, regionPowerUp, isolate, quarantine, regionPowerDown. -/
def Obligations.RegionPackets : Prop :=
  ∀ (q : Fin 4096) seq t s s1 p, let r := p.b 9 1
    let st := s1.fld .REG_STATUS_state r
    let sole := s1.pool.any (fun x => x.onRegion r && !(x.q == p.q && x.seq == p.seq)) = false
    let c := (12 * r + p.b 10 1) * 9 + p.b 11 1
    (∀ x, s.alive = true → s.pkt q.val seq = some x → x.midAction = true →
      (∀ k ∈ ([(.regionReset q seq t, 1), (.selftest q seq t, 2)] : List (Instr × Nat)), isAct 0x87 k.2 x = true →
        exec k.1 s = .next (s.endReset x t)) ∧
      (isAct 0x87 5 x = true → (x.pos = 1 → exec (.regionPowerUp q seq t) s = .next
          (((s.setFld .REG_SPEED_vcore_mv x.rgn 750).isolateRegion x.rgn rgnResetting fcRegionReset).modPkt x.q x.seq
            (fun y => { y with pos := 2 }))) ∧
        (x.pos ≠ 1 → exec (.regionPowerUp q seq t) s = .next (s.endReset x t))) ∧
      (∀ u : State, u = s.rebuildRegion x.rgn t false → u.alive = true → s.qState x.q ≠ qDraining → u.qState x.q = s.qState x.q →
        s.endReset x t = u.endPkt x 0 ∧
        (u.fld .REG_STATUS_enabled_blocks x.rgn ≠ 0 → u.fld .REG_STATUS_state x.rgn = rgnOnline) ∧
        (u.fld .REG_STATUS_enabled_blocks x.rgn = 0 → u.fld .REG_STATUS_state x.rgn = rgnQuarantined))) ∧
    ((∀ x, s.pkt q.val seq = some x → x.midAction = false) →
    (∀ k ∈ ([(.isolate q seq, 0), (.regionReset q seq t, 1), (.selftest q seq t, 2), (.quarantine q seq, 3),
        (.regionPowerDown q seq, 4), (.regionPowerUp q seq t, 5)] : List (Instr × Nat)),
      s.taken q.val seq (isAct 0x87 k.2) = some (s1, p) → ¬ sole → exec k.1 s = .next (s1.failPkt p fcRegionState 0 [])) ∧
    (sole → p.pos = 0 →
      (s.taken q.val seq (isAct 0x87 0) = some (s1, p) → exec (.isolate q seq) s =
        .next (if (st = rgnOnline ∨ st = rgnQuarantined) ∧ s1.cellEnabled c = true then (s1.markIsolate c).endPkt p 0
          else s1.failPkt p fcRegionState 0 [])) ∧
      (∀ k ∈ ([(.regionReset q seq t, 1), (.selftest q seq t, 2)] : List (Instr × Nat)),
        s.taken q.val seq (isAct 0x87 k.2) = some (s1, p) → exec k.1 s =
          .next (if st = rgnOnline ∨ st = rgnQuarantined then
            (s1.isolateRegion r rgnResetting fcRegionReset).modPkt p.q p.seq (fun x => { x with pos := 1 })
          else s1.failPkt p fcRegionState 0 [])) ∧
      (s.taken q.val seq (isAct 0x87 3) = some (s1, p) →
        let s2 := s1.quarantineRegion r 1
        exec (.quarantine q seq) s = .next (if s1.rgnUp r then (if s2.alive then s2.endPkt p 0 else s2)
          else s1.failPkt p fcRegionState 0 [])) ∧
      (s.taken q.val seq (isAct 0x87 4) = some (s1, p) →
        let d := (s1.drainBegin r).drainRegion r
        exec (.regionPowerDown q seq) s = .next (if st = rgnOnline ∨ st = rgnQuarantined then
          (if d.2 then (d.1.regionOff r).endPkt p 0
            else if mapGet 0 d.1.drainAt r ≤ d.1.now + 1 then
              (((regionCells r).foldl State.drainLose d.1).regionOff r).endPkt p 0
            else d.1)
          else s1.failPkt p fcRegionState 0 [])) ∧
      (s.taken q.val seq (isAct 0x87 5) = some (s1, p) → exec (.regionPowerUp q seq t) s =
        .next (if st = rgnOffline then s1.modPkt p.q p.seq (fun x => { x with pos := 1 })
          else s1.failPkt p fcRegionState 0 []))))

/-! ### Fetch and firmware -/

/-- R262, R264, R265, R267, R269, R271, R273: a run of one packet brings its 64 bytes into the pool under the queue's
next sequence number, with the steps it waits on, and moves the fetcher past it; with nothing below the write pointer
the latch is cleared and the fetcher goes idle, with room in the pool or not; without room nothing is fetched. CHAIN
turns the fetcher to the buffer it names and completes.
Of the model: which of several faults a packet reports, and what one that fails leaves, is log entry 35.
Completes: fetchRun, chain. -/
def Obligations.Fetches : Prop :=
  ∀ (q : Fin 4096) s, s.ready = true → let n := q.val
    (∀ s2 bs, s.mayFetch n = true → (s.queue n).refetch = none → s.runLength n = 1 →
      (s.roomTaken n).readPkt n (s.nextAddr n).1 (s.nextAddr n).2 = .ok s2 bs →
      let seq := s2.fld .CFE_Q_SEQ_fetched_seq n + 1
      let x : Pkt :=
        { q := n, seq := seq, addr := (s.nextAddr n).1, ind := (s.nextAddr n).2, words := pktWords bs, deps := []
          st := .fetched, since := none, start := 0, acct := s2.fld .CFE_Q_CFG_acct n, pos := 0, eng := 0, fault := 0
          lim := 0, crcLim := 0, cxlLim := 0, held := 0, buf := [] }
      let p := { x with deps := x.waits.map (stepBack (s2.queue n).skips 2048 seq) }
      s2.checkPkt p = 0 → ∃ t, exec (.fetchRun q) s = .next t ∧ t.pool = s2.pool ++ [p] ∧
        t.fld .CFE_Q_SEQ_fetched_seq n = seq % 2 ^ Fld.CFE_Q_SEQ_fetched_seq.desc.width ∧
        (p.ind = false → t.fld .CFE_Q_RPTR_rptr n =
          (s2.fld .CFE_Q_RPTR_rptr n + 1) % 2 ^ Fld.CFE_Q_RPTR_rptr.desc.width) ∧
        t = { s2 with pool := t.pool, regs := t.regs, queues := t.queues }) ∧
    (s.fetches n = true → (s.queue n).refetch = none → s.fld .CFE_Q_STATUS_in_chain n = 0 →
      s.fld .CFE_Q_WPTR_wptr n = (s.queue n).w → (s.queue n).w ≤ s.fld .CFE_Q_RPTR_rptr n →
      ∃ t, exec (.fetchRun q) s = .next t ∧ t.fld .CFE_Q_STATUS_idle n = 1 ∧ t.fld .CFE_Q_STATUS_doorbell_latch n = 0 ∧
        t = { s with regs := t.regs }) ∧
    (s.fetches n = false → exec (.fetchRun q) s = .next s) ∧
    (s.fetches n = true → s.mayFetch n = false → ((s.queue n).refetch ≠ none ∨ s.runLength n ≠ 0) →
      exec (.fetchRun q) s = .next s) ∧
    (∀ seq p, s.pkt n seq = some p → p.opcode = 0x0E → p.fault = 0 →
      exec (.chain q seq) s = .next ((s.setFlds p.q [(.CFE_Q_CHAIN_next, p.b 8 8), (.CFE_Q_CHAIN_LEFT_left, p.b 16 4),
        (.CFE_Q_STATUS_in_chain, 1)]).endPkt p 0))

/-- R404 to R406, R410, R413: FW_STAGE, once taken, fails on a wrong length or in a state that forbids it; else it
programs its bytes into the inactive slot and checks them: accepted, the set is staged and the packet, where no relay is
asked for, completes; refused it fails. FW_ACTIVATE arms a staged set. One command stages a whole set: log entry 27.
Of the model: the cryptography of the check is log entry 26.
Completes: fwStage, fwActivate. -/
def Obligations.FirmwarePackets : Prop :=
  ∀ (q : Fin 4096) seq e s s1 p,
    (s.taken q.val seq (isOp 0x8A) = some (s1, p) → s1.sec.ends.any (fun x => x.2 == (p.q, p.seq)) = false →
      let len := p.b 16 8
      let slot := s1.inactive
      (len = 0 ∨ 32 * 2 ^ 20 < len → exec (.fwStage q seq e) s = .next (s1.failPkt p fcFwImageFormat 0 [])) ∧
      (len ≠ 0 → len ≤ 32 * 2 ^ 20 → (s1.stageBusy = true ∨ s1.slotFits slot len = false) →
        exec (.fwStage q seq e) s = .next (s1.failPkt p fcFwState 0 [])) ∧
      (len ≠ 0 → len ≤ 32 * 2 ^ 20 → s1.stageBusy = false → s1.slotFits slot len = true →
        (∀ s2, s1.stepRead p (p.b 8 8) len = .wait s2 → exec (.fwStage q seq e) s = .next s2) ∧
        (∀ s2 bs, s1.stepRead p (p.b 8 8) len = .ok s2 bs →
          (e.flashOk = false → exec (.fwStage q seq e) s = .next ((s2.stageBegin slot).unstaged.failPkt p fcFwFlash 0 [])) ∧
          (e.flashOk = true → let s3 := (s2.stageBegin slot).stagePut slot 0 bs
            (∀ f, s3.accept slot = some f →
              exec (.fwStage q seq e) s = .next (s3.unstaged.failPkt p f.code 0 [])) ∧
            (s3.accept slot = none → (p.b 24 2 % 2 ^ 12 = 0 ∨ p.b 26 1 % 16 = 0) →
              exec (.fwStage q seq e) s = .next ((s3.stageEnd slot 0 0).1.endPkt p 0)))))) ∧
    (s.taken q.val seq (isOp 0x8B) = some (s1, p) →
      let t := p.b 16 8
      (s1.stage ≠ stStaged ∨ (t ≠ 0 ∧ t < s1.now + 10000000) →
        exec (.fwActivate q seq e) s = .next (s1.failPkt p fcFwState 0 [])) ∧
      (s1.stage = stStaged → (t = 0 ∨ s1.now + 10000000 ≤ t) →
        (e.flashOk = false → exec (.fwActivate q seq e) s = .next (s1.unstaged.failPkt p fcFwFlash 0 [])) ∧
        (e.flashOk = true → (∀ f, s1.accept s1.sec.slot = some f →
            exec (.fwActivate q seq e) s = .next (s1.unstaged.failPkt p f.code 0 [])) ∧
          (s1.accept s1.sec.slot = none →
            (e.loadOk = false → exec (.fwActivate q seq e) s = .next (s1.failPkt p fcFwActivateFailed 0 [])) ∧
            (e.loadOk = true →
              let a := State.setFlds { s1 with sec := { s1.sec with late := false } } 0
                [(.SEC_FW_STATE_stage_state, stArmed), (.SEC_FW_ARM_at_ns, t)]
              exec (.fwActivate q seq e) s = .next ((if p.b 8 1 % 2 = 1 then a.passActivate t else a).endPkt p 0))))))

/-- R417: a mailbox command leaves its number in SEC_MBX_CMD and ends with state 2 and result 0, or state 3 and what is
wrong; BEGIN opens a transfer, CHUNK takes its next bytes, FINISH and ABORT end it, DISARM takes an armed set back to
staged, JANUARY_NEXT sets its bit, RESTART out of January mode is refused.
Of the model: where the mailbox answers, and the results of CHUNK, are log entry 27.
Completes: mbxBegin, chunk, finish, mbxAbort, disarm, januaryNext, restart, januaryFlashPoll. -/
def Obligations.Mailbox : Prop :=
  ∀ s, s.mbxUp = true →
    let res := fun (t : State) (n r : Nat) => t.fld .SEC_MBX_CMD_cmd 0 = n ∧ t.fld .SEC_MBX_STATUS_result 0 = r ∧
      t.fld .SEC_MBX_STATUS_state 0 = if r = 0 then 2 else 3
    (∀ (len : BitVec 32) image ok, ∃ t, exec (.mbxBegin len image ok) s = .next t ∧
      (s.sec.xfer ≠ none → res t 1 1 ∧ t.sec = s.sec) ∧
      (s.sec.xfer = none → image = false → s.stageBusy = false → s.slotFits s.inactive len.toNat = true → len ≠ 0 →
        len.toNat ≤ 32 * 2 ^ 20 →
        (ok = true → res t 1 0 ∧ t.sec.xfer = some ⟨s.inactive, 0, len.toNat, 0, 0, 0, 12, 0⟩ ∧ t.stage = stStaging ∧
          t.fld .SEC_MBX_STATUS_bytes 0 = 0) ∧
        (ok = false → res t 1 6 ∧ t.stage = stNone)) ∧
      (s.sec.xfer = none → image = true → s.january = true → res t 1 7)) ∧
    (∀ n ok, n < 2 ^ 17 → ∃ t, exec (.chunk n ok) s = .next t ∧ (s.relayOpen 12 = none → res t 2 2 ∧ t.flash = s.flash) ∧
      (∀ x, s.relayOpen 12 = some x → 1 ≤ n → n ≤ 65536 → x.got + n ≤ x.length →
        (ok = true → res t 2 0 ∧ t.sec.xfer = some { x with got := x.got + n } ∧
          t.fld .SEC_MBX_STATUS_bytes 0 = (x.got + n) % 2 ^ Fld.SEC_MBX_STATUS_bytes.desc.width) ∧
        (ok = false → res t 2 6 ∧ t.sec.xfer = none))) ∧
    (∀ ok, ∃ t, exec (.finish ok) s = .next t ∧ (s.relayOpen 12 = none → res t 3 2 ∧ t.sec = s.sec) ∧
      (∀ x, s.relayOpen 12 = some x → t.sec.xfer = none ∧ (ok = false → res t 3 6) ∧
        (ok = true → x.target ≠ 0 → res t 3 0) ∧
        (ok = true → x.target = 0 → (s.accept x.slot = none → res t 3 0 ∧ t.stage = stStaged) ∧
          (∀ f, s.accept x.slot = some f → res t 3 f.result ∧ t.stage = stNone)))) ∧
    (∃ t, exec .mbxAbort s = .next t ∧ res t 4 0 ∧ t.sec.xfer = none) ∧
    (∃ t, exec .disarm s = .next t ∧ (s.stage = stArmed → res t 5 0 ∧ t.stage = stStaged) ∧
      (s.stage ≠ stArmed → res t 5 7 ∧ t.stage = s.stage) ∧ t = { s with regs := t.regs }) ∧
    (∀ v, ∃ t, exec (.januaryNext v) s = .next t ∧ res t 6 0 ∧
      t.fld .SEC_FW_STATE_january_next 0 = (if v then 1 else 0) ∧ t = { s with regs := t.regs }) ∧
    (∀ e, (s.january = true → exec (.restart e) s = .next (s.chipReset.startUp e)) ∧
      (s.january = false → ∃ t, exec (.restart e) s = .next t ∧ res t 7 7 ∧ t = { s with regs := t.regs })) ∧
    (s.january = true → s.fld .SEC_JAN_set_ready 0 ≠ 0 → exec .januaryFlashPoll s = .next s) ∧
    (s.january = true → s.fld .SEC_JAN_set_ready 0 = 0 → exec .januaryFlashPoll s = .next (if s.candidates.any (fun c => s.accept c == none) then
      s.setFlds 0 [(.SEC_JAN_set_ready, 1), (.SEC_JAN_path, 3)] else s))

/-- R410 steps 4 to 9, R411, R412: at the armed instant the set is activating, the contexts end and every port that is
not OFF is reset; when the dies have started and the work of the contexts has ended, the set's seal is written, its
fuses are blown and it runs; a start not over in two seconds fails and the dies swap back, the set staged as before.
Of the model: a reset that comes during the swap is log entry 28.
Completes: armedInstant, diesStarted, dieStartTimeout. -/
def Obligations.FirmwareSwap : Prop :=
  ∀ s, (s.ready = true → s.stage = stArmed → s.fld .SEC_FW_ARM_at_ns 0 ≤ s.now →
      let a := s.setFld .SEC_FW_STATE_stage_state 0 stActivating
      let b : State := { a with hif := { a.hif with rst := .swap }, sec := { a.sec with swapAt := a.now } }
      let c := (b.setBoot 0xB).endWork
      exec .armedInstant s = .next (c.each b.portsOn State.portReset)) ∧
    (s.ready = true → s.stage = stArmed → s.now < s.fld .SEC_FW_ARM_at_ns 0 → exec .armedInstant s = .next s) ∧
    (s.swapping = true → s.sec.swapAt + 2000000000 ≤ s.now →
      exec .diesStarted s = .next s.swapBack ∧ exec .dieStartTimeout s = .next s.swapBack) ∧
    (s.swapping = true → s.now < s.sec.swapAt + 2000000000 → s.drained = false → exec .diesStarted s = .next s) ∧
    (s.swapping = true → s.now < s.sec.swapAt + 2000000000 → s.drained = true → s.hif.rst = .swap →
      let m := s.manifest s.sec.slot
      ∃ t, exec .diesStarted s = .next t ∧ t.fld .HIF_PROMPT_STATE_boot_state 0 = 8 ∧ t.sec.running = m ∧ t.stage = stNone ∧
        t.fld .SEC_FW_STATE_running_slot 0 = s.sec.slot % 2 ^ Fld.SEC_FW_STATE_running_slot.desc.width ∧
        t.fld .SEC_FW_RUN_version 0 = mnum m 0x10 8 ∧ t.fld .SEC_FW_STATE_last_result 0 = (if s.sec.late then 3 else 1) ∧
        t.hif.rst = .none ∧
        (mnum m 0xE 2 % 2 = 1 → t.fuses.svn = max s.fuses.svn (mnum m 0x18 4) ∧
          t.fuses.revoked = s.fuses.revoked ||| mnum m 0x1C 2) ∧
        (mnum m 0xE 2 % 2 = 0 → t.fuses = s.fuses) ∧ t.mem = s.mem) ∧
    (s.swapping = true → (s.now < s.sec.swapAt + 2000000000 → exec .dieStartTimeout s = .next s) ∧
      (s.sec.swapAt + 2000000000 ≤ s.now → s.hif.rst = .swap → ∃ t, exec .dieStartTimeout s = .next t ∧
        t.fld .HIF_PROMPT_STATE_boot_state 0 = 8 ∧ t.fld .SEC_FW_STATE_last_result 0 = 2 ∧ t.stage = stStaged ∧
        t.hif.rst = .none ∧ t.sec = s.sec ∧ t.flash = s.flash ∧ t.fuses = s.fuses))

/-! ### The fabric -/

/-- R344, R347, R350 to R353, R356: a frame on a live link with the `lseq` it expects, for this device, is this
device's, its `lack` taken, an acknowledgement and its credits due; one of a type that no row lists is dropped and
counted; a PROBE that only acknowledges has no other effect; a bad frame is counted and asked for again; one for another
device is forwarded on a NATIVE port with a hop less and dropped without hops.
R355, R360, R368 to R371, R423: an answer goes to the request whose transaction and both epochs it names, one that names
none is dropped, and the parts of a long read are gathered until all of it is there; PROBE is answered, and its answer
measures its route; the frames of collectives reach their step; a frame that goes no further than the link has no other
effect. What the spec leaves open of a received frame is log entry 25.
Of the model: credits and queues are log entry 55.
Completes: rdRsp, wrAck, atomRsp, feRsp, fenceAck, probe, collCredit, collAbort, collData. -/
def Obligations.FramesReceived : Prop :=
  (∀ (s : State) p type f, let k := s.linkKey p (s.rxNbr f)
    let l := s.link k
    let me := s.fld .FAB_ID_dev_id 0
    let mode := s.fld .FAB_PORT_CFG_mode p
    (s.portLive p = false → s.rx p type f = .gone s) ∧
    (s.portLive p = true → (mode = modeNative ∨ mode = modeEncap) → ackProbe type f = true →
      s.rx p type f = .gone (if f.good then s.ackTo k f.lack.toNat else s)) ∧
    (s.portLive p = true → (mode = modeNative ∨ mode = modeEncap) → ackProbe type f = false →
      (f.good = false → s.rx p type f =
        .gone ((s.satFld .FAB_PORT_ERR_crc_errors p 1).setLink k { l with nak := some l.nextRx })) ∧
      (f.good = true → f.lseq.toNat ≠ l.nextRx → s.rx p type f =
        .gone ((s.logHdr (2 * p + 1) type f).setLink k { l with nak := some l.nextRx })) ∧
      (f.good = true → f.lseq.toNat = l.nextRx → type ∉ listedTypes →
        let s1 := ((s.logHdr (2 * p + 1) type f).setLink k (l.took (mode == modeNative) type f)).ackTo k f.lack.toNat
        s.rx p type f = .gone (s1.satFld .FAB_PORT_ERR_dropped p 1)) ∧
      (f.good = true → f.lseq.toNat = l.nextRx → type ∈ listedTypes → s.january = false →
        let s1 := ((s.logHdr (2 * p + 1) type f).setLink k (l.took (mode == modeNative) type f)).ackTo k f.lack.toNat
        (s1.january = false → s1.fld .FAB_ID_dev_id 0 = me → me ≠ 0 → f.dst.toNat = me → f.dst ≠ 0xFFFF →
          s.rx p type f = .mine s1) ∧
        (s1.january = false → s1.fld .FAB_ID_dev_id 0 = me → me ≠ 0 → f.dst.toNat ≠ me → f.dst ≠ 0 → f.dst ≠ 0xFFFF →
          mode = modeNative → s.rx p type f = .gone (s1.forward type f)))) ∧
    (f.hops = 0 → s.forward type f = s.satFld .FAB_COUNT_hop_drops 0 1) ∧
    (∀ o n, f.hops ≠ 0 → s.route f.dst.toNat = some (o, n) →
      s.forward type f = s.putOnLink o n type { f with hops := f.hops - 1 })) ∧
  (∀ (p : Fin 12) (f : Frame) s,
    (∀ r ∈ ([(.rdRsp p f, ftRdRsp), (.wrAck p f, ftWrAck), (.atomRsp p f, ftAtomRsp), (.feRsp p f, ftFeRsp),
        (.fenceAck p f, ftFenceAck)] : List (Instr × Nat)), ∀ s1, s.rx p.val r.2 f = .mine s1 →
      (s1.replyFor r.2 f = none → exec r.1 s = .next s1) ∧
      (∀ x, s1.replyFor r.2 f = some x →
        x ∈ s1.remote ∧ x.tid = f.tid.toNat ∧ x.tepoch = f.tepoch.toNat ∧
        (∀ t bs, x.replyPart r.2 f.status.toNat f.data = some bs → s1.remAnswer x f.status.toNat f.arg.toNat bs = .ok t →
          exec r.1 s = .next t) ∧
        (x.replyPart r.2 f.status.toNat f.data = none →
          let l := s1.remote.map (fun y => if y.tid = x.tid then { y with got := x.got ++ f.data } else y)
          exec r.1 s = .next { s1 with remote := l }))) ∧
    (∀ s1, s.rx p.val ftProbe f = .mine s1 →
      (f.vc = false → exec (.probe p f) s = .next (s1.sendOrDrop ftProbe { Frame.blank with
        dst := f.src, tid := f.tid, tepoch := f.tepoch, vc := true })) ∧
      (∀ x dst, f.vc = true → f.status = 0 → s1.replyFor ftProbe f = some x → x.svc = .probe dst →
        exec (.probe p f) s = .next ((s1.endReq x.tid false).probed dst x.since x.addr))) ∧
    (∀ s1, let g := bits f.addr.toNat 32 8
      let c := f.addr.toNat % 2 ^ 32
      (s.rx p.val ftCollCredit f = .mine s1 →
        exec (.collCredit p f) s = .next (s1.collCreditIn p.val g c f.src.toNat f.arg.toNat)) ∧
      (s.rx p.val ftCollAbort f = .mine s1 → exec (.collAbort p f) s = .next (s1.collAbortIn p.val g c f.src.toNat)) ∧
      (s.rx p.val ftCollData f = .mine s1 → ∀ t,
        s1.collDataIn p.val g c f.src.toNat f.arg.toNat f.tid.toNat f.data = .ok t → exec (.collData p f) s = .next t)) ∧
    (∀ e, ∀ r ∈ ([(.rdRsp p f, ftRdRsp), (.wrAck p f, ftWrAck), (.atomRsp p f, ftAtomRsp), (.feRsp p f, ftFeRsp),
        (.fenceAck p f, ftFenceAck), (.probe p f, ftProbe), (.collData p f, ftCollData), (.collCredit p f, ftCollCredit),
        (.collAbort p f, ftCollAbort), (.rdReq p f, ftRdReq), (.wrReq p f, ftWrReq), (.atomReq p f, ftAtomReq),
        (.feReq p f, ftFeReq), (.feWithdraw p f, ftFeWithdraw), (.fenceSig p f, ftFenceSig), (.fwRelayStart p f, ftFwRelay),
        (.fwRelayData p f, ftFwRelay), (.fwRelayEnd p f e, ftFwRelay), (.fwRelayActivate p f e, ftFwRelay)]
        : List (Instr × Nat)), ∀ t, s.rx p.val r.2 f = .gone t → exec r.1 s = .next t))

/-- R359 to R361, R363, R372: a request of a peer that reaches this device: refused by the export table or a memory
fault it is answered so; one whose lines the host holds, or that a full table turned away, waits at its fabric die, while
that has room; one that has to read an uncorrectable line is answered so; else RD_REQ, WR_REQ, ATOM_REQ and FE_REQ act at
the home and answer, a WR_REQ that ends a tile by the tile's CRC; FENCE_SIG acts where the fence is open to peers;
FE_WITHDRAW takes its waiter, or its request that waits, back. What the spec leaves open of these is log entry 25.
Of the model: which lines read as uncorrectable is log entry 53.
Completes: rdReq, wrReq, atomReq, feReq, feWithdraw, fenceSig. -/
def Obligations.PeerRequests : Prop :=
  ∀ (p : Fin 12) (f : Frame) s s1, let d := reqAddr f
    (∀ r ∈ ([(.rdReq p f, ftRdReq, min (max f.arg.toNat 1) 4096, false, false),
        (.wrReq p f, ftWrReq, max f.data.length 1, true, false), (.atomReq p f, ftAtomReq, if f.size = 2 then 4 else 8, false, true),
        (.feReq p f, ftFeReq, 8, false, true)] : List (Instr × Nat × Nat × Bool × Bool)), s.rx p.val r.2.1 f = .mine s1 →
      (∀ st, s1.refused f r.2.2.1 r.2.2.2.1 r.2.2.2.2 = some st → exec r.1 s = .next (s1.answer r.2.1 f st 0 [])) ∧
      (∀ t, s1.refused f r.2.2.1 r.2.2.2.1 r.2.2.2.2 = none →
        s1.heldLine (.dev d) r.2.2.1 (r.2.2.2.1 || r.2.2.2.2) = some t →
        let a : Arrived := ⟨p.val, s.linkKey p.val (s.rxNbr f), r.2.1, f⟩
        exec r.1 s = .next (if s.noRoom p.val a.key f then s
          else (s1.waited (s1.biSnoop t (r.2.2.2.1 || r.2.2.2.2))).keepFrame a))) ∧
    (∀ r ∈ ([(.rdReq p f, ftRdReq, min (max f.arg.toNat 1) 4096, false), (.atomReq p f, ftAtomReq, if f.size = 2 then 4 else 8, true),
        (.feReq p f, ftFeReq, 8, true)] : List (Instr × Nat × Nat × Bool)), s.rx p.val r.2.1 f = .mine s1 →
      s1.refused f r.2.2.1 false r.2.2.2 = none → s1.heldLine (.dev d) r.2.2.1 r.2.2.2 = none →
      (s1.takeBad (.dev d) r.2.2.1).2 = true →
      exec r.1 s = .next ((s1.takeBad (.dev d) r.2.2.1).1.answer r.2.1 f 3 0 [])) ∧
    (s.rx p.val ftRdReq f = .mine s1 → let n := min (max f.arg.toNat 1) 4096
      s1.refused f n false false = none → s1.heldLine (.dev d) n false = none → (s1.takeBad (.dev d) n).2 = false →
      exec (.rdReq p f) s = .next ((s1.touchSpan none (.dev d) n false).answer ftRdReq f 0 0
        ((spans 3 d n).flatMap (fun c => s1.devBytes c.1 c.2)))) ∧
    (s.rx p.val ftWrReq f = .mine s1 → let n := f.data.length
      s1.refused f (max n 1) true false = none → s1.heldLine (.dev d) (max n 1) true = none →
      (endsTile f = false → s1.fillBad (.dev d) n = false → n ≠ 0 → d % 4096 + n ≤ 4096 →
        ∀ s2, s1.spanPut none (.dev d) f.data none = some s2 → exec (.wrReq p f) s = .next (s2.answer ftWrReq f 0 0 [])) ∧
      (endsTile f = true → (∀ c ∈ spans 3 d n, s1.fillBad (.dev c.1) c.2 = false) → ∀ s2, s1.peerPut f = some s2 →
        let t := d + n - 4096
        let crc := crc32c (s2.devBytes t 4096)
        (crc = f.arg.toNat → exec (.wrReq p f) s = .next ((s2.chkWhole t (some crc)).answer ftWrReq f 0 0 [])) ∧
        (crc ≠ f.arg.toNat → f.arg ≠ 0 → exec (.wrReq p f) s = .next ((s2.chkWhole t none).answer ftWrReq f 3 0 [])))) ∧
    (s.rx p.val ftAtomReq f = .mine s1 → let w := if f.size = 2 then 4 else 8
      s1.refused f w false true = none → s1.heldLine (.dev d) w true = none → (s1.takeBad (.dev d) w).2 = false →
      let a := d / w * w
      let old := leNat (s1.devBytes a w)
      let ops := (atomOperands (0x10 + f.aop.toNat == opCas) (min f.arg.toNat 32) f.data).map
        (fun e => (e.1 % 2 ^ (8 * w), e.2 % 2 ^ (8 * w)))
      let r := atomRun (0x10 + f.aop.toNat) f.size.toNat f.sign old ops
      ∀ s2, (if r.1 = old then some (s1.homeTouch none (.dev a)) else s1.homeWrite none (.dev a) (natLe w r.1) none) = some s2 →
        exec (.atomReq p f) s = .next (s2.answer ftAtomReq f 0 0 (r.2.flatMap (natLe 8)))) ∧
    (s.rx p.val ftFeReq f = .mine s1 → s1.refused f 8 false true = none → s1.heldLine (.dev d) 8 true = none →
      (s1.takeBad (.dev d) 8).2 = false → ∀ s2 r, s1.feArrive (d / 8 * 8) (0x20 + f.aop.toNat) (leNat (f.data.take 8))
        (.peer f.src.toNat f.tid.toNat p.val f.tepoch.toNat) s1.now 0xFF = (s2, r) →
      (r = .served ∨ r = .waits → exec (.feReq p f) s = .next s2) ∧
      (r = .notSync → exec (.feReq p f) s = .next (s2.answer ftFeReq f 6 0 [])) ∧
      (r = .returned → let a : Arrived := ⟨p.val, s.linkKey p.val (s.rxNbr f), ftFeReq, f⟩
        exec (.feReq p f) s = .next (if s.noRoom p.val a.key f then s else (s1.waited s1).keepFrame a))) ∧
    (s.rx p.val ftFeWithdraw f = .mine s1 →
      let mine := fun (a : Arrived) => a.type == ftFeReq && a.frame.src == f.src && a.frame.tid == f.tid &&
        a.frame.tepoch == f.tepoch
      let s2 := s1.each (s1.arrived.filter mine) (fun s a => s.credit a true)
      let s3 : State := { s2 with arrived := s2.arrived.filter (fun a => !mine a) }
      exec (.feWithdraw p f) s = .next (s3.feWithdraw (fun w => match w.src with
      | .peer dev tid _ ep => dev == f.src.toNat && tid == f.tid.toNat && ep == f.tepoch.toNat
      | _ => false))) ∧
    (s.rx p.val ftFenceSig f = .mine s1 → let n := f.addr.toNat % 4096
      (s1.fld .CFE_FENCE_CTL_remote_ok n = 0 → exec (.fenceSig p f) s = .next (s1.answer ftFenceSig f 1 0 [])) ∧
      (s1.fld .CFE_FENCE_CTL_remote_ok n ≠ 0 → let r := s1.fenceSignal n (leNat (f.data.take 8))
        exec (.fenceSig p f) s = .next (r.1.answer ftFenceSig f 0 (b2n r.2) [])))

/-- R404, R408, R409, R413: the relay of a firmware set: START opens a transfer into the inactive slot, unless relays
are not accepted, the device is busy or the relay was seen; DATA programs its bytes; END checks the set, which is then
staged where no hop is left; the frames of a relay that is ignored are ignored up to its END; ACTIVATE arms the set of
that relay, and counts as busy in January mode. The model's choices of a relay are log entry 27.
Of the model: the cryptography of the check is log entry 26.
Completes: fwRelayStart, fwRelayData, fwRelayEnd, fwRelayActivate. -/
def Obligations.FirmwareRelay : Prop :=
  ∀ (p : Fin 12) (f : Frame) e s s1, s.rx p.val ftFwRelay f = .mine s1 → let kind := f.arg.toNat % 4
    let id := leNat (f.data.take 8)
    let src := f.src.toNat
    let skips := s1.relaySkips p.val src
    (kind = 0 → let len := leNat ((f.data.drop 8).take 8)
      (s1.fld .SEC_RELAY_relay_accept 0 = 0 ∨ s1.stageBusy = true →
        exec (.fwRelayStart p f) s = .next (s1.relaySkip p.val src 1)) ∧
      (s1.fld .SEC_RELAY_relay_accept 0 ≠ 0 → s1.stageBusy = false →
        (id ∈ s1.sec.seen → exec (.fwRelayStart p f) s = .next (s1.relaySkip p.val src 0)) ∧
        (id ∉ s1.sec.seen → len ≠ 0 → len ≤ 32 * 2 ^ 20 → s1.slotFits s1.inactive len = true →
          ∃ t, exec (.fwRelayStart p f) s = .next t ∧ t.stage = stStaging ∧
            t.sec.xfer = some ⟨s1.inactive, 0, len, 0, id, leNat ((f.data.drop 16).take 1), p.val, src⟩))) ∧
    (kind = 1 → (s1.relayOpen p.val src = none ∨ skips = true → exec (.fwRelayData p f) s = .next s1) ∧
      (∀ x, s1.relayOpen p.val src = some x → skips = false → f.addr.toNat + f.data.length ≤ x.length →
        ∃ t, exec (.fwRelayData p f) s = .next t ∧ t.sec.xfer = some { x with got := x.got + f.data.length } ∧
          t.flash = (s1.stagePut x.slot f.addr.toNat f.data).flash ∧ t.regs = s1.regs)) ∧
    (kind = 2 → (skips = true → exec (.fwRelayEnd p f e) s =
        .next { s1 with sec := { s1.sec with skips := s1.sec.skips.erase (p.val, src) } }) ∧
      (skips = false → s1.relayOpen p.val src = none → exec (.fwRelayEnd p f e) s = .next s1) ∧
      (∀ x, skips = false → s1.relayOpen p.val src = some x → let s2 : State := { s1 with sec := { s1.sec with xfer := none } }
        (e.flashOk = false → exec (.fwRelayEnd p f e) s = .next s2.unstaged) ∧
        (e.flashOk = true → (s2.accept x.slot ≠ none → exec (.fwRelayEnd p f e) s = .next s2.unstaged) ∧
          (s2.accept x.slot = none → (s2.january = true ∨ x.hops = 0) → exec (.fwRelayEnd p f e) s =
            .next ((s2.stageEnd x.slot x.relay 2).1.satFld .SEC_RELAY_relays_staged 0 1))))) ∧
    (kind = 3 →
      (s1.january = true ∨ s1.stage ≠ stStaged ∨ id = 0 ∨ id ≠ s1.sec.relayId →
        exec (.fwRelayActivate p f e) s = .next (s1.satFld .SEC_RELAY_relay_busy 0 1)) ∧
      (s1.january = false → s1.stage = stStaged → id ≠ 0 → id = s1.sec.relayId → let t := leNat ((f.data.drop 8).take 8)
        let late := decide (t < s1.now + 10000000)
        let s2 := if s1.sec.passed then s1 else s1.passActivate t
        exec (.fwRelayActivate p f e) s = .next (s2.arm (if late then 0 else t) late e).1))

/-- R344, R345, R349, R356 to R358: the link layer: acknowledgements, NAKs and timers replay what is not acknowledged,
and acknowledgements and credits let go what waits; a stall retrains a NATIVE port, a retraining of 100 ms fails it, a
first training of 100 ms leaves it DOWN; a port whose training ends is up, degraded or down by the lanes that trained,
and a DOWN port tries again after a second; PFC pauses an ENCAP port, and a resume lets go what waits; LLDP leaves on a
PLAIN one. The training outcomes are read as log entry 25 says.
Of the model: credits and queues are log entry 55.
Completes: nak, retransmissionTimer, lackStall, controlUnit, pfc, lldp, silitPortUp, portTrainingRetry,
silitRetrainTimeout. -/
def Obligations.LinkLayer : Prop :=
  ∀ (p : Fin 12) nbr lseq s, let n := p.val
    let mode := s.fld .FAB_PORT_CFG_mode n
    let st := s.fld .FAB_PORT_STATUS_state n
    (s.portLive n = true →
      (mode = modeNative ∨ mode = modeEncap → exec (.nak p nbr lseq) s = .next ((s.ackTo (s.linkKey n nbr)
        ((lseq % 2 ^ 32 + 2 ^ 32 - 1) % 2 ^ 32)).replayFrom n nbr)) ∧
      (mode = modeEncap → let l := s.link (s.linkKey n nbr)
        (l.replay ≠ [] → l.paused = false → l.since + s.fld .FAB_PORT_CFG_rto_us n * 1000 ≤ s.now →
          exec (.retransmissionTimer p nbr) s = .next (s.replayFrom n nbr)) ∧
        (l.replay = [] ∨ l.paused = true ∨ s.now < l.since + s.fld .FAB_PORT_CFG_rto_us n * 1000 →
          exec (.retransmissionTimer p nbr) s = .next s)) ∧
      (mode = modeNative → let l := s.link (s.linkKey n 0)
        (l.replay ≠ [] → l.since + 10000 ≤ s.now → ∃ t, exec (.lackStall p) s = .next t ∧
          t.fld .FAB_PORT_STATUS_state n = portTraining ∧ mapFind t.trainAt n = some s.now ∧
          n ∈ t.retrain ∧ t = { s with regs := t.regs, trainAt := t.trainAt, retrain := t.retrain }) ∧
        (∀ lack c0 c1, let s1 := s.ackTo (s.linkKey n 0) (lack % 2 ^ 32)
          let l1 := s1.link (s.linkKey n 0)
          let s2 := (s1.setLink (s.linkKey n 0) { l1 with cr0 := l1.cr0 + c0, cr1 := l1.cr1 + c1 }).pump (s.linkKey n 0)
          exec (.controlUnit p lack none c0 c1) s = .next s2 ∧
          (∀ x, exec (.controlUnit p lack (some x) c0 c1) s = .next (s2.nakIn n 0 (x % 2 ^ 32))))) ∧
      (∀ on, mode = modeEncap → s.fld .FAB_PORT_CFG_pfc_en n ≠ 0 →
        let t : State := { s with links := s.links.map (fun e =>
          if e.1 / 4097 = n then (e.1, { e.2 with paused := on }) else e) }
        exec (.pfc p (s.fld .FAB_PORT_CFG_pfc_prio n) on) s = .next (t.each (s.linksOf n) State.pump)) ∧
      (mode = modePlain → exec (.lldp p) s = .next { s with plainTx := s.plainTx ++
        [⟨0xCC, { Frame.blank with src := BitVec.ofNat 16 (s.fld .FAB_ID_dev_id 0) }, none⟩] })) ∧
    (s.alive = true → s.linksHeld = false →
      (∀ l, st = portTraining → exec (.silitPortUp p l) s = .next (s.portTrained n l)) ∧
      (∀ l, st = portDown → mode ≠ modeOff → n ∉ s.siliOff → (mapGet 0 s.trainAt n + 1000000000 ≤ s.now →
          exec (.portTrainingRetry p l) s = .next (s.portTrained n l)) ∧
        (s.now < mapGet 0 s.trainAt n + 1000000000 → exec (.portTrainingRetry p l) s = .next s)) ∧
      (st = portTraining → (mapGet 0 s.trainAt n + 100000000 ≤ s.now →
          exec (.silitRetrainTimeout p) s = .next (if n ∈ s.retrain then s.portDead n else s.portDownAgain n)) ∧
        (s.now < mapGet 0 s.trainAt n + 100000000 → exec (.silitRetrainTimeout p) s = .next s))) ∧
    (mode = modeNative → s.trainResult n ⟨0xFF⟩ = (portUp, 0xFF) ∧ s.trainResult n ⟨0xF3⟩ = (portDegraded, 0xF0) ∧
      s.trainResult n ⟨0x7E⟩ = (portDown, 0))

/-- R374 to R376: PTP: an Announce of a better time transmitter, or one after the chosen one has fallen silent, is
chosen, a change of choice is HOLDOVER; a one-step Sync gives its offset, a two-step Sync with its Follow_Up, by the
corrections of both; the delay request and its response measure the path; three Sync intervals without a Sync in LOCKED
are HOLDOVER, the slew stopped. The rank of transmitters, the intervals and the slew are read as log entry 37 says.
Completes: announce, ptpSync, followUp, delayResp, delayReq, syncLoss. -/
def Obligations.NetworkTime : Prop :=
  ∀ (p : Fin 12) (m : PtpMsg) s, s.alive = true →
    (s.ptpHears p.val m = true →
      (s.ptpChosen p.val m = false → s.betterGm p.val m = true → ∃ t, exec (.announce p m) s = .next t ∧
        t.time.chosen = some (p.val, m.clockId, m.rank) ∧ t.time.inLock = 0 ∧ t.fld .TIM_GM_clock_id 0 = m.clockId.toNat ∧
        t.fld .TIM_STATUS_port 0 = p.val ∧ t.timState = (if s.time.chosen = none then timAcquiring else timHoldover) ∧
        t = { s with regs := t.regs, time := t.time }) ∧
      (s.ptpChosen p.val m = false → s.betterGm p.val m = false → exec (.announce p m) s = .next s) ∧
      (s.ptpChosen p.val m = false → s.gmSilent = true → s.betterGm p.val m = true) ∧
      (s.ptpChosen p.val m = true →
        exec (.announce p m) s = .next { s with time := { s.time with
          chosen := some (p.val, m.clockId, m.rank), annAt := s.now, annIv := s.now - s.time.annAt } } ∧
        (s.stamped m.arrival = true →
          let h := { s.time with syncAt := s.now, syncIv := if s.time.syncAt = 0 then 0 else s.now - s.time.syncAt }
          (m.twoStep = true → exec (.ptpSync p m) s =
            .next { s with time := { h with twoStep := some (m.seq, m.arrival, m.corr) } }) ∧
          (m.twoStep = false → exec (.ptpSync p m) s =
            .next (State.synced { s with time := h } p.val (m.origin + m.corr) m.arrival))) ∧
        (∀ t2 c2, s.time.twoStep = some (m.seq, t2, c2) →
          exec (.followUp p m) s = .next (s.synced p.val (m.origin + c2 + m.corr) t2)) ∧
        (s.time.t3 ≠ 0 → s.time.t2 ≠ 0 → exec (.delayResp p m) s = .next { s with time := { s.time with
          delay := ((s.time.t2 : Int) - s.time.t1 + ((m.origin : Int) - m.corr - s.time.t3)) / 2, t3 := 0 } }))) ∧
    (∀ c r, s.ptpPort p.val = true → s.time.chosen = some (p.val, c, r) → s.time.t2 ≠ 0 →
      ∃ t, exec (.delayReq p) s = .next t ∧ t.time = { s.time with t3 := s.now } ∧
        t.plainTx = s.plainTx ++ [⟨0xF7, { Frame.blank with src := BitVec.ofNat 16 (s.fld .FAB_ID_dev_id 0) }, none⟩]) ∧
    (s.timState = timLocked → s.time.syncAt + 3 * s.time.syncIv ≤ s.now → ∃ t, exec .syncLoss s = .next t ∧ t.timState = timHoldover ∧
      t.time = { s.time with inLock := 0, slewPpm := 0 } ∧ t = { s with regs := t.regs, time := t.time }) ∧
    (s.timState ≠ timLocked ∨ s.now < s.time.syncAt + 3 * s.time.syncIv → exec .syncLoss s = .next s)

/-! ### Resets, attestation, faults -/

/-- R319, R320, R322, R340, R378 to R380, R439, R451: the resets: a host-side reset restores configuration space, and in
READY ends the contexts with `boot_state` RESETTING; after a fatal stop an FLR or a CXL Reset still writes the host's
lines back and invalidates them (R332); D3hot holds messages back until D0; the trained link's mode and
width show; PERST# and a loss of power leave what they must, and the release starts the device. What overlapping resets
do, and what outlasts one, is read as log entries 28 and 31 say.
Of the model: start-up as one command is log entry 34.
Completes: hotReset, secondaryBusReset, linkDisable, surpriseLinkDown, flr, cxlReset, d3hotEntry, d3hotToD0,
hostLinkTrained, perstAssert, pwrgoodFall, chipResetRelease. -/
def Obligations.DeviceResets : Prop :=
  ∀ s, (s.hostThere = true →
      (∀ r ∈ ([(.hotReset, .host, true), (.secondaryBusReset, .host, true), (.linkDisable, .host, true),
          (.surpriseLinkDown, .host, true), (.flr, .flr, false)] : List (Instr × Resetting × Bool)),
        exec r.1 s = .next (s.hostReset r.2.1 r.2.2)) ∧
      (∀ clr, (s.hif.pcie = false → exec (.cxlReset clr) s = .next (s.hostReset (.cxl clr false) false)) ∧
        (s.hif.pcie = true → exec (.cxlReset clr) s = .next s)) ∧
      exec .d3hotEntry s = .next { s with hif := { s.hif with d3hot := true } } ∧
      (s.hif.d3hot = true → mapWf Msix.init s.msix = true → ∃ t, exec .d3hotToD0 s = .next t ∧
        t.hif = { s.hif with d3hot := false } ∧
        (∀ v, t.vec v = (let x := s.vec v
          if x.pending = true ∧ x.masked = false ∧ s.hif.msixEn = true ∧ s.hif.msixMask = false then
            { x with pending := false, sent := x.sent + 1 }
          else x)) ∧
        t = { s with hif := t.hif, msix := t.msix })) ∧
    (∀ r down, s.fld .HIF_PROMPT_STATE_boot_state 0 = 0xA → r ≠ .host →
      s.hostReset r down = (if down then s.configReset.linkDown else s.configReset).hostInval) ∧
    (∀ r down, s.alive = false ∨ (s.fld .HIF_PROMPT_STATE_boot_state 0 ≠ 8 ∧ s.fld .HIF_PROMPT_STATE_boot_state 0 ≠ 0xB) →
      (s.fld .HIF_PROMPT_STATE_boot_state 0 = 0xA → r = .host) → ∃ t, s.hostReset r down = t ∧ t.hif.decoder = none ∧ t.hif.viral = false ∧ t.hif.doe0 = none ∧
        t.hif.msixEn = false ∧ t.fld .HIF_LINK_STATUS_cache_en 0 = 0 ∧
        t.fld .HIF_LINK_STATUS_mem_en 0 = 0 ∧ (down = true → t.hif.linkUp = false ∧ t.hif.filter = []) ∧
        (down = false → t.hif.linkUp = s.hif.linkUp) ∧ t.kernels = s.kernels ∧ t.pool = s.pool ∧ t.mem = s.mem ∧
        t.fld .HIF_PROMPT_STATE_boot_state 0 = s.fld .HIF_PROMPT_STATE_boot_state 0) ∧
    (∀ r down, s.alive = true → s.fld .HIF_PROMPT_STATE_boot_state 0 = 8 → ∃ x : State,
      s.hostReset r down = ((x.setBoot 0xB).endWork).resetCheck ∧ x.hif.decoder = none ∧ x.hif.viral = false ∧
        x.fld .HIF_LINK_STATUS_cache_en 0 = 0 ∧ (down = true → x.hif.linkUp = false) ∧ x.kernels = s.kernels ∧
        x.pool = s.pool) ∧
    (s.pwr.pwrgood = true → s.pwr.perst = false → s.pwr.regsOff = false → s.linksHeld = false →
      ∀ (m : Fin 4) lanes gts, lanes ∈ [1, 2, 4, 8, 16] → ∃ t : State,
        exec (.hostLinkTrained m lanes gts) s = .next t.resetCheck ∧ t.hif.linkUp = true ∧
        (t.hif.pcie = true ↔ m.val = 3) ∧ t.fld .HIF_LINK_STATUS_mode 0 = m.val ∧ t.fld .HIF_LINK_STATUS_lanes 0 = lanes ∧
        t.fld .HIF_LINK_STATUS_degraded 0 = (if lanes < 16 ∨ gts < 64 then 1 else 0) ∧ t.mem = s.mem) ∧
    (s.pwr.pwrgood = true → s.pwr.perst = false → (s.pwr.offReq = false ∨ s.pwr.offRdy = true) →
      ∃ t, exec .perstAssert s = .next t ∧ t.pwr.perst = true ∧ t.pwr.pwrgood = true ∧ t.flash = s.flash ∧ t.fuses = s.fuses ∧
        t.hostMem = s.hostMem ∧ t.mem = [] ∧ t.kernels = [] ∧ t.pool = [] ∧
        t.fld .HIF_PROMPT_STATE_boot_state 0 = Fld.HIF_PROMPT_STATE_boot_state.desc.reset) ∧
    (s.pwr.pwrgood = true → ∃ t, exec .pwrgoodFall s = .next t ∧ t.pwr.pwrgood = false ∧ t.flash = s.flash ∧
      t.fuses = s.fuses ∧ t.mem = [] ∧ t.kernels = []) ∧
    (∀ e, s.pwr.regsOff = false → (s.pwr.perst = true ∨ s.pwr.pwrgood = false) → exec (.chipResetRelease e) s =
      .next (State.startUp { s.chipReset with pwr := { s.chipReset.pwr with pwrgood := true, perst := false } } e))

/-- R337 to R339, R397, R398: DOE and SPDM: a request while one is in progress is discarded with Error; else its answer
stands: the instances' protocols, a CDAT entry, and, in the order of the negotiation, SPDM's answers, the 16 KiB of the
factory store the chain; an abort clears an instance. The layouts are the model's: log entry 38.
Of the model: the byte orders of digests and signatures are log entry 26.
Completes: doeDiscovery, doeAbort, tableAccess, getVersion, getCapabilities, negotiateAlgorithms, getDigests,
getCertificate, challenge, getMeasurements. -/
def Obligations.Attestation : Prop :=
  ∀ s, s.cfgUp = true →
    (∀ inst i, (s.doeBusy inst = true → exec (.doeDiscovery inst i) s = .next { s with hif :=
        if inst then { s.hif with doeErr1 := true } else { s.hif with doeErr0 := true } }) ∧
      (s.doeBusy inst = false → ∃ t, exec (.doeDiscovery inst i) s = .next t ∧
        (if inst then t.hif.doe1 else t.hif.doe0) = some (discovery inst i) ∧ t.free = s.free + 1 ∧ t.regs = s.regs) ∧
      ∃ t, exec (.doeAbort inst) s = .next t ∧ t.doeBusy inst = false ∧ (if inst then t.hif.doe1 else t.hif.doe0) = none ∧
        t = { s with hif := t.hif }) ∧
    (∀ i, s.doeBusy true = false → ∃ t x, exec (.tableAccess i) s = .next t ∧ t.hif.doe1 = some x ∧
      x.data = natLe 2 0 ++ natLe 2 (if i < 3 then i + 1 else 0xFFFF) ++ s.cdat i) ∧
    (∀ path slot off len nonce op, (path = .doe → s.doeBusy false = false) →
      let out := fun (c : Instr) (st n : Nat) (a : Nat → Response) => (∃ t x, exec c s = .next t ∧
          (match path with | .doe => t.hif.doe0 | .mctp => t.hif.spdm) = some x ∧
          (s.hif.spdmSt = st → t.hif.spdmSt = n ∧ ∃ k, x = a k) ∧ (s.hif.spdmSt ≠ st → x = spdmError 4 ∧ t.hif.spdmSt = s.hif.spdmSt))
      (∃ t x, exec (.getVersion path) s = .next t ∧ t.hif.spdmSt = 1 ∧
        (match path with | .doe => t.hif.doe0 | .mctp => t.hif.spdm) = some x ∧
        x.data = natLe 1 0 ++ natLe 1 2 ++ natLe 2 0x1200 ++ natLe 2 0x1300) ∧
      out (.getCapabilities path) 1 2 (fun _ => ⟨0x61, 0, natLe 1 0 ++ natLe 1 20 ++ natLe 2 0 ++ natLe 4 0x16⟩) ∧
      out (.negotiateAlgorithms path) 2 3 (fun _ =>
        ⟨0x63, 0, natLe 2 36 ++ natLe 1 1 ++ natLe 1 0 ++ natLe 4 0x8 ++ natLe 4 0x40 ++ natLe 4 0x4 ++ natLe 16 0⟩) ∧
      out (.getDigests path) 3 3 (fun _ => ⟨0x01, 256, sha512 s.chain⟩) ∧
      (slot = 0 → off < 16384 → let n := min len (16384 - off)
        out (.getCertificate path slot off len) 3 3 (fun _ => ⟨0x02, 0,
          natLe 2 n ++ natLe 2 (16384 - off - n) ++ bytesAt s.sec.otp off n⟩)) ∧
      (slot ≠ 0 → out (.challenge path slot nonce) 3 3 (fun _ => spdmError 1)) ∧
      out (.challenge path 0 nonce) 3 3 (fun _ => let m := sha512 s.chain ++ Config.freeBytes s.free 32 ++ natLe 2 0
        ⟨0x03, 256, m ++ Config.sign s.fuses.secret (nonce ++ m) (s.free + 1)⟩) ∧
      (1 ≤ op → op ≤ 12 → out (.getMeasurements path op nonce) 3 3 (fun _ =>
        let m := natLe 1 1 ++ natLe 3 (s.block12 op).length ++ s.block12 op ++ Config.freeBytes s.free 32 ++ natLe 2 0
        ⟨0x60, 0, m ++ (if nonce = [] then [] else Config.sign s.fuses.secret (nonce ++ m) (s.free + 1))⟩)))

/-- R17, R430, R431: a failure of the chip, outside a fatal stop, is a fatal stop: FATAL with its code, die and time, in
the registers and the prompt page; a second one changes nothing.
R34, R420, R421: the faults of a region: its network (cause 2), its manager (3) and a token rate below 1,060 for 10 ms
(5) quarantine an ONLINE region, counted; the last region to go is a fatal stop. A measurement shows the lowest token
rate of the four replicas.
Of the model: that a silence has passed when its command comes is log entry 19, how dies are numbered log entry 12.
Completes: d2dLinkFailure, dieInternalError, fwFault, ctlWatchdog, regionNetworkError, regionManagerSilent,
regionSlow, tokenRateMeasure. -/
def Obligations.FaultStops : Prop :=
  (∀ die s, s.alive = true → s.fld .HIF_PROMPT_STATE_boot_state 0 ≠ 0 →
    (∀ r ∈ ([(.d2dLinkFailure die, 0x0201, die, decide (die < 40)),
        (.dieInternalError die, 0x0206, die, decide (24 ≤ die ∧ die < 40)),
        (.fwFault die, 0x0207, die, decide ((24 ≤ die ∧ die < 28) ∨ (30 ≤ die ∧ die < 36) ∨ die = 39)),
        (.ctlWatchdog, 0x0209, 39, true)] : List (Instr × Nat × Nat × Bool)),
      (r.2.2.2 = false → exec r.1 s = .next s) ∧
      (r.2.2.2 = true → ∃ t, exec r.1 s = .next t ∧ t.fld .HIF_PROMPT_STATE_boot_state 0 = 0xA ∧
        t.fld .RAS_FATAL_fatal_code 0 = r.2.1 ∧ t.fld .RAS_FATAL_die 0 = r.2.2.1 ∧ t.fld .RAS_FATAL_valid 0 = 1 ∧
        t.fld .HIF_PROMPT_STATE_fatal 0 = 1 ∧ t.fld .HIF_PROMPT_FATAL_fatal_code 0 = r.2.1 ∧
        t.fld .RAS_FATAL_TIME_tai_ns 0 = s.now % 2 ^ Fld.RAS_FATAL_TIME_tai_ns.desc.width ∧ t.mem = s.mem ∧
        t.alive = false)) ∧
    (∀ (t : State) code d, t.fld .HIF_PROMPT_STATE_boot_state 0 = 0xA → t.fatalStop code d = t)) ∧
  (∀ (r : Fin 24) s, s.alive = true → let n := r.val
    exec (.regionNetworkError r) s = .next (s.quarantineRegion n 2) ∧
    exec (.regionManagerSilent r) s = .next (s.quarantineRegion n 3) ∧
    (s.regionHot n = false → s.fld .REG_SPEED_token_rate_mtps n < 1060 → 700 ≤ s.fld .REG_SPEED_vcore_mv n →
      mapGet 0 s.slowAt n ≠ 0 → mapGet 0 s.slowAt n + 10000000 ≤ s.now + 1 →
      exec (.regionSlow r) s = .next (s.quarantineRegion n 5)) ∧
    (s.regionHot n = true ∨ 1060 ≤ s.fld .REG_SPEED_token_rate_mtps n ∨ s.fld .REG_SPEED_vcore_mv n < 700 ∨
      mapGet 0 s.slowAt n = 0 ∨ s.now + 1 < mapGet 0 s.slowAt n + 10000000 →
      exec (.regionSlow r) s = .next s) ∧
    (∀ a b c d, s.fld .REG_STATUS_state n ≠ rgnOffline → ∃ t, exec (.tokenRateMeasure r [a, b, c, d]) s = .next t ∧
      t.fld .REG_SPEED_token_rate_mtps n = min (min a b) (min c d) % 2 ^ Fld.REG_SPEED_token_rate_mtps.desc.width ∧
      (∀ i, i ≠ n → t.fld .REG_SPEED_token_rate_mtps i = s.fld .REG_SPEED_token_rate_mtps i) ∧
      mapGet 0 t.slowAt n = (if s.regionHot n = false ∧ t.fld .REG_SPEED_token_rate_mtps n < 1060 ∧
        700 ≤ s.fld .REG_SPEED_vcore_mv n then (if mapGet 0 s.slowAt n = 0 then s.now + 1 else mapGet 0 s.slowAt n) else 0) ∧
      t = { s with regs := t.regs, slowAt := t.slowAt }) ∧
    (∀ cause, (s.fld .REG_STATUS_state n ≠ rgnOnline → s.fld .REG_STATUS_state n ≠ rgnResetting →
        s.quarantineRegion n cause = s) ∧
      (s.fld .REG_STATUS_state n = rgnOnline → s.quarantineRegion n cause =
        (let t := (s.isolateRegion n rgnQuarantined fcRegionQuarantined).quarantined n cause
         if t.alive then t.each (t.pool.filter (Pkt.acting n)) (fun x p => x.endAction p fcRegionState) else t))) ∧
    (∀ cause, let t := s.markQuarantined n cause
      t.fld .REG_STATUS_state n = rgnQuarantined ∧ t.fld .RAS_RGN_CAUSE_cause n = cause % 2 ^ Fld.RAS_RGN_CAUSE_cause.desc.width ∧
      ((∃ i, i < 24 ∧ t.fld .REG_STATUS_state i ≠ rgnQuarantined) → s.quarantined n cause = t) ∧
      ((∀ i, i < 24 → t.fld .REG_STATUS_state i = rgnQuarantined) → s.quarantined n cause = t.fatalStop 0x0205 n)))

/-! ### Power, sideband, test access -/

/-- R315, R328, R439, R442 to R448, R450, R451, R461: the power manager while it runs: a tick shows the rails and the
mean power, adds to each unit's energy, lowers or raises the rails by the cap, sets the state and stops by R448; a board
rail lost is a loss of power; the energy split pays the tags; the sample ring keeps 1,000; the brake sets its state; a
sensor at 125 °C after its offset (R394) trips the regulators; the heartbeat counts. Where states overlap and how energy
is split is read as log entry 39 says.
Completes: powerManagerTick, powerSample, pwrBrakeAssert, pwrBrakeRelease, energySplit, sensorSample, beat, pwroffReq,
pwroffReqNRelease. -/
def Obligations.PowerManager : Prop :=
  ∀ s, (s.pmRuns = true →
      (∀ m : RailSample, railLost m = false → let a := ((s.measured m).averaged.metered).watchRails m
        let cap := a.fld .PWR_CAP_cap_w 0 * 1000 * a.pwr.avg.length
        let hi := decide (cap < a.pwr.avg.sum)
        let under := decide (a.pwr.avg.sum * 100 < cap * 98)
        exec (.powerManagerTick m) s = .next (((if a.railsFree then
          a.railTick hi under (decide (235000 < a.fld .PWR_RAIL_ma 40)) else a).pwrState hi under).railFaults m)) ∧
      (∃ t, exec .powerSample s = .next t ∧ t = { s with pwr := { s.pwr with ring := t.pwr.ring } } ∧
        t.pwr.ring.length ≤ 1000 ∧ ∃ x, t.pwr.ring = (s.pwr.ring ++ [x]).drop (s.pwr.ring.length + 1 - 1000) ∧
          x.ns = s.now ∧ x.power = s.fld .PWR_STATUS_power_w 0 ∧ x.cap = s.fld .PWR_CAP_cap_w 0 ∧ x.rails.length = 56 ∧
          x.temps.length = 128) ∧
      (∃ t, exec .pwrBrakeAssert s = .next t ∧ t.pwr.brake = true ∧ t.fld .PWR_STATUS_state 0 = 3) ∧
      (s.fld .PWR_STATUS_state 0 ≠ 1 → ∃ t, exec .pwrBrakeRelease s = .next t ∧ t.pwr.brake = false ∧
        t.fld .PWR_STATUS_state 0 = (if s.pwr.therm = [] then 0 else 2)) ∧
      (∃ t, exec (.energySplit ()) s = .next t ∧ t.used = [] ∧ t.mem = s.mem ∧
        (∀ u x tag, s.pwr.unitPj = [(u, x)] → mapRange s.used (65536 * u) (65536 * (u + 1)) = [(65536 * u + tag, 1)] →
          tag < 65536 → let e := x / 100000
          mapGet 0 t.pwr.unitPj u = x % 100000 ∧ t.fld .CFE_ACCT_energy_mj tag =
            (s.fld .CFE_ACCT_energy_mj tag + (mapGet 0 s.energyRem tag + e) / 1000) %
              2 ^ Fld.CFE_ACCT_energy_mj.desc.width ∧
          mapGet 0 t.energyRem tag = (mapGet 0 s.energyRem tag + e) % 1000))) ∧
    (s.pwr.pwrgood = true → ∀ m, railLost m = true → exec (.powerManagerTick m) s = .next s.powerLoss) ∧
    (s.pwr.pwrgood = true → s.pwr.regsOff = false → ∀ l, (∃ x ∈ l, x.1 < 128 ∧ 1000 ≤ x.2 + s.calOf 3 x.1) →
      ∃ u, exec (.sensorSample l) s = .next u ∧ u.pwr.thermtrip = true ∧ u.pwr.regsOff = true ∧ u.pwr.pwrgood = true ∧
        u.mem = [] ∧ u.flash = s.flash) ∧
    (s.pwr.pwrgood = true → s.pwr.regsOff = false → 3 ≤ s.fld .HIF_PROMPT_STATE_boot_state 0 →
      s.fld .HIF_PROMPT_STATE_boot_state 0 < 9 → ∃ t, exec .beat s = .next t ∧ t = { s with regs := t.regs } ∧
        t.fld .HIF_PROMPT_BEAT_beat 0 = (s.fld .HIF_PROMPT_BEAT_beat 0 + 1) % 2 ^ Fld.HIF_PROMPT_BEAT_beat.desc.width) ∧
    (s.pwr.pwrgood = true → s.pwr.perst = false → s.pwr.regsOff = false → s.pwr.offReq = false → s.migs = [] →
      let w := { s.pwr with offPin := true, offReq := true, offAt := s.now, offLim := s.now + s.deadNs false }
      exec .pwroffReq s = .next (State.offStep { s with pwr := w })) ∧
    exec .pwroffReqNRelease s = .next { s with pwr := { s.pwr with offPin := false } }

/-- R443, R452 to R455: the sideband sets endpoint and receiver, reads a sensor, sets the power cap and releases ALERT_N;
the test access port loads its instruction, and drives the preloaded cells, nothing, or the identification; every code
that no row lists is BYPASS. Sensors, endpoint IDs and events are read as log entry 40 says.
Completes: setEndpointId, setEventReceiver, pldmSensorRead, pldmEffecterSet, eventAcknowledge, extest, clamp, highz,
extestPulse, extestTrain, idcode, testLogicReset, bypass, samplePreload. -/
def Obligations.SidebandAndTest : Prop :=
  ∀ s, (s.sideUp = true →
      (∀ e : Byte, e ≠ 0 → e ≠ 0xFF → exec (.setEndpointId e) s = .next { s with side := { s.side with eid := e.toNat } }) ∧
      exec (.setEndpointId 0) s = .next s ∧ exec (.setEndpointId 0xFF) s = .next s ∧
      (∀ e : Byte, exec (.setEventReceiver e) s = .next { s with side := { s.side with receiver := some e.toNat } }) ∧
      (∀ i, exec (.pldmSensorRead i) s = .next { s with side := { s.side with reading := some (i, s.pldmSensor i) } }) ∧
      (s.pmRuns = true → s.pldmSensor 1 = some (s.fld .PWR_STATUS_power_w 0 : Int) ∧
        ∀ v, ∃ t, exec (.pldmEffecterSet 1 v) s = .next t ∧ t.fld .PWR_CAP_source 0 = 3 ∧
          t.fld .PWR_CAP_cap_w 0 = max 2100 (min 2800 v) ∧ t = { s with regs := t.regs }) ∧
      (∀ i v, i ≠ 1 → exec (.pldmEffecterSet i v) s = .next s) ∧
      exec .eventAcknowledge s = .next { s with side := { s.side with events := [], alert := false } }) ∧
    (s.pwr.pwrgood = true →
      (∀ r ∈ ([(.extest, 0x00, some s.tap.preload, false, false), (.clamp, 0x03, some s.tap.preload, false, true),
          (.highz, 0x04, none, true, true), (.extestPulse, 0x09, some s.tap.preload, false, false),
          (.extestTrain, 0x0A, some s.tap.preload, false, false)]
          : List (Instr × BitVec 8 × Option (BitVec 614) × Bool × Bool)),
        let t : State := { s with tap := { s.tap with ir := r.2.1, drive := r.2.2.1, hiz := r.2.2.2.1, bypass := r.2.2.2.2 } }
        (s.linksHeld = true → exec r.1 s = .next t) ∧ (s.linksHeld = false → exec r.1 s = .next t.linksDrop)) ∧
      (∀ r ∈ ([(.idcode), (.testLogicReset)] : List Instr), exec r s = .next { s with tap := { s.tap with
        ir := 0x01, drive := none, hiz := false, bypass := false, dr := 0x1481256F } }) ∧
      (∀ code ∈ ([0x00, 0x01, 0x02, 0x03, 0x04, 0x09, 0x0A] : List (BitVec 8)), exec (.bypass code) s = .next s) ∧
      (∀ code : BitVec 8, code ∉ ([0x00, 0x01, 0x02, 0x03, 0x04, 0x09, 0x0A] : List (BitVec 8)) →
        exec (.bypass code) s = .next { s with tap := { s.tap with ir := code, drive := none, hiz := false, bypass := true } }) ∧
      (∀ pins pre, exec (.samplePreload pins pre) s = .next { s with tap := { s.tap with
        ir := 0x02, drive := none, hiz := false, bypass := false, sampled := pins, preload := pre } }))
end

