-- ==== Sys2Proof/Laws/Maps.lean ====
section
/-!
SUPPORT. The laws of canonical maps and byte memories: a read after a write, every other key, the canonical form kept.
-/

namespace Sys2Proof.Machine

variable {α : Type}

@[simp] theorem mapFind_nil (k : Nat) : mapFind ([] : NMap α) k = none := rfl

theorem mapFind_mapIns (m : NMap α) (k q : Nat) (v : α) :
    mapFind (mapIns m k v) q = if q = k then some v else mapFind m q := by
  induction m with
  | nil => by_cases h : k = q <;> simp [mapIns, mapFind, h, eq_comm]
  | cons e t ih =>
    obtain ⟨k', v'⟩ := e
    simp only [mapIns]
    split
    · by_cases h : k = q <;> simp [mapFind, h, eq_comm]
    · split
      · subst_vars
        rcases eq_or_ne q k' with rfl | h
        · simp [mapFind]
        · simp [mapFind, h, h.symm]
      · by_cases h : k' = q
        · subst h
          simp_all [mapFind]
        · simp [mapFind, h, ih]

theorem mapFind_mapErase (m : NMap α) (k q : Nat) :
    mapFind (mapErase m k) q = if q = k then none else mapFind m q := by
  induction m with
  | nil => simp [mapErase, mapFind]
  | cons e t ih =>
    obtain ⟨k', v'⟩ := e
    simp only [mapErase]
    split
    · subst_vars
      rw [ih]
      rcases eq_or_ne q k' with rfl | h
      · simp
      · simp [mapFind, h, h.symm]
    · by_cases h : k' = q
      · subst h
        simp_all [mapFind]
      · simp [mapFind, h, ih]

/-- A read after a write: the value written at its key, every other key as before. -/
theorem mapGet_mapSet [DecidableEq α] (d : α) (m : NMap α) (k q : Nat) (v : α) :
    mapGet d (mapSet d m k v) q = if q = k then v else mapGet d m q := by
  unfold mapGet mapSet
  split
  · rw [mapFind_mapErase]
    split <;> simp_all
  · rw [mapFind_mapIns]
    split <;> simp_all

@[simp] theorem mapGet_mapSet_self [DecidableEq α] (d : α) (m : NMap α) (k : Nat) (v : α) :
    mapGet d (mapSet d m k v) k = v := by simp [mapGet_mapSet]

theorem mapGet_mapSet_other [DecidableEq α] (d : α) (m : NMap α) {k q : Nat} (v : α) (h : q ≠ k) :
    mapGet d (mapSet d m k v) q = mapGet d m q := by simp [mapGet_mapSet, h]

/-! ### The canonical form -/

theorem mem_mapIns {m : NMap α} {k : Nat} {v : α} {e : Nat × α} (h : e ∈ mapIns m k v) : e = (k, v) ∨ e ∈ m := by
  induction m with
  | nil => simpa [mapIns] using h
  | cons x t ih =>
    obtain ⟨k', v'⟩ := x
    simp only [mapIns] at h
    split at h
    · simpa using h
    · split at h
      · rcases List.mem_cons.mp h with h | h
        · exact .inl h
        · exact .inr (List.mem_cons_of_mem _ h)
      · rcases List.mem_cons.mp h with h | h
        · exact .inr (by simp [h])
        · rcases ih h with h | h
          · exact .inl h
          · exact .inr (List.mem_cons_of_mem _ h)

theorem mem_mapErase {m : NMap α} {k : Nat} {e : Nat × α} (h : e ∈ mapErase m k) : e ∈ m := by
  induction m with
  | nil => simp [mapErase] at h
  | cons x t ih =>
    obtain ⟨k', v'⟩ := x
    simp only [mapErase] at h
    split at h
    · exact List.mem_cons_of_mem _ (ih h)
    · rcases List.mem_cons.mp h with h | h
      · simp [h]
      · exact List.mem_cons_of_mem _ (ih h)

theorem mapSorted_mapIns (m : NMap α) (k : Nat) (v : α) (h : mapSorted m = true) : mapSorted (mapIns m k v) = true := by
  induction m with
  | nil => simp [mapIns, mapSorted]
  | cons x t ih =>
    obtain ⟨k', v'⟩ := x
    simp only [mapSorted, Bool.and_eq_true, List.all_eq_true, decide_eq_true_eq] at h
    simp only [mapIns]
    split
    · simp only [mapSorted, Bool.and_eq_true, List.all_eq_true, decide_eq_true_eq, List.mem_cons]
      refine ⟨?_, h.1, h.2⟩
      rintro e (rfl | he)
      · assumption
      · exact Nat.lt_trans (by assumption) (h.1 e he)
    · split
      · subst_vars
        simp only [mapSorted, Bool.and_eq_true, List.all_eq_true, decide_eq_true_eq]
        exact h
      · simp only [mapSorted, Bool.and_eq_true, List.all_eq_true, decide_eq_true_eq]
        refine ⟨?_, ih h.2⟩
        intro e he
        rcases mem_mapIns he with rfl | he
        · exact Nat.lt_of_le_of_ne (Nat.le_of_not_lt (by assumption)) (by assumption)
        · exact h.1 e he

theorem mapSorted_mapErase (m : NMap α) (k : Nat) (h : mapSorted m = true) : mapSorted (mapErase m k) = true := by
  induction m with
  | nil => simp [mapErase, mapSorted]
  | cons x t ih =>
    obtain ⟨k', v'⟩ := x
    simp only [mapSorted, Bool.and_eq_true, List.all_eq_true, decide_eq_true_eq] at h
    simp only [mapErase]
    split
    · exact ih h.2
    · simp only [mapSorted, Bool.and_eq_true, List.all_eq_true, decide_eq_true_eq]
      exact ⟨fun e he => h.1 e (mem_mapErase he), ih h.2⟩

theorem mapSorted_filter (m : NMap α) (p : Nat × α → Bool) (h : mapSorted m = true) : mapSorted (m.filter p) = true := by
  induction m with
  | nil => rfl
  | cons x t ih =>
    obtain ⟨k', v'⟩ := x
    simp only [mapSorted, Bool.and_eq_true, List.all_eq_true, decide_eq_true_eq] at h
    simp only [List.filter_cons]
    split
    · simp only [mapSorted, Bool.and_eq_true, List.all_eq_true, decide_eq_true_eq]
      exact ⟨fun e he => h.1 e (List.mem_filter.mp he).1, ih h.2⟩
    · exact ih h.2

variable [DecidableEq α]

theorem mapWf_iff (d : α) (m : NMap α) : mapWf d m = true ↔ mapSorted m = true ∧ ∀ e ∈ m, e.2 ≠ d := by
  simp [mapWf]

@[simp] theorem mapWf_nil (d : α) : mapWf d ([] : NMap α) = true := by simp [mapWf, mapSorted]

/-- A write keeps the canonical form. -/
theorem mapWf_mapSet (d : α) (m : NMap α) (k : Nat) (v : α) (h : mapWf d m = true) : mapWf d (mapSet d m k v) = true := by
  rw [mapWf_iff] at *
  unfold mapSet
  split
  · exact ⟨mapSorted_mapErase m k h.1, fun e he => h.2 e (mem_mapErase he)⟩
  · refine ⟨mapSorted_mapIns m k v h.1, fun e he => ?_⟩
    rcases mem_mapIns he with rfl | he
    · assumption
    · exact h.2 e he

/-- A part of a map keeps the canonical form. -/
theorem mapWf_filter (d : α) (m : NMap α) (p : Nat × α → Bool) (h : mapWf d m = true) : mapWf d (m.filter p) = true := by
  rw [mapWf_iff] at *
  exact ⟨mapSorted_filter m p h.1, fun e he => h.2 e (List.mem_filter.mp he).1⟩

theorem mapWf_mapClear (d : α) (m : NMap α) (lo hi : Nat) (h : mapWf d m = true) : mapWf d (mapClear m lo hi) = true :=
  mapWf_filter d m _ h

theorem mapWf_foldSet {β : Type} (d : α) (f : β → Nat × α) (l : List β) (m : NMap α) (h : mapWf d m = true) :
    mapWf d (l.foldl (fun m e => mapSet d m (f e).1 (f e).2) m) = true := by
  induction l generalizing m with
  | nil => exact h
  | cons e t ih => exact ih _ (mapWf_mapSet d m _ _ h)

theorem mapWf_putBytes (m : NMap Byte) (a : Nat) (bs : List Byte) (h : mapWf 0 m = true) : mapWf 0 (putBytes m a bs) = true := by
  induction bs generalizing m a with
  | nil => exact h
  | cons b t ih => exact ih _ _ (mapWf_mapSet 0 m a b h)

omit [DecidableEq α] in
theorem mapFind_mapRange (m : NMap α) (lo hi q : Nat) :
    mapFind (mapRange m lo hi) q = if lo ≤ q ∧ q < hi then mapFind m q else none := by
  unfold mapRange
  induction m with
  | nil => simp
  | cons e t ih =>
    obtain ⟨k, v⟩ := e
    simp only [List.filter_cons]
    by_cases hk : k = q
    · subst hk
      by_cases h : lo ≤ k ∧ k < hi
      · simp [mapFind, h]
      · have : (decide (lo ≤ k) && decide (k < hi)) = false := by simpa using h
        simp [this, ih, h]
    · split
      · simp [mapFind, hk, ih]
      · simp [mapFind, hk, ih]

omit [DecidableEq α] in
theorem mapFind_mapClear (m : NMap α) (lo hi q : Nat) :
    mapFind (mapClear m lo hi) q = if lo ≤ q ∧ q < hi then none else mapFind m q := by
  unfold mapClear
  induction m with
  | nil => simp
  | cons e t ih =>
    obtain ⟨k, v⟩ := e
    simp only [List.filter_cons]
    by_cases hk : k = q
    · subst hk
      by_cases h : lo ≤ k ∧ k < hi
      · have : (!(decide (lo ≤ k) && decide (k < hi))) = false := by simp [h]
        rw [if_neg (by simp [this]), ih, if_pos h, if_pos h]
      · have : (!(decide (lo ≤ k) && decide (k < hi))) = true := by
          rw [Bool.not_eq_true', Bool.and_eq_false_iff, decide_eq_false_iff_not, decide_eq_false_iff_not]
          omega
        rw [if_pos this]
        simp [mapFind, h]
    · split
      · rw [mapFind, if_neg hk, ih, mapFind, if_neg hk]
      · rw [ih, mapFind, if_neg hk]

/-! ### Byte memories -/

/-- A byte after a write: the written run, every other byte as before. -/
theorem mapGet_putBytes (m : NMap Byte) (a q : Nat) (bs : List Byte) :
    mapGet 0 (putBytes m a bs) q = if a ≤ q ∧ q < a + bs.length then bs.getD (q - a) 0 else mapGet 0 m q := by
  induction bs generalizing m a with
  | nil => simp [putBytes]
  | cons b t ih =>
    simp only [putBytes, ih, mapGet_mapSet, List.length_cons]
    by_cases h1 : q = a
    · subst h1; simp
    · by_cases h2 : a + 1 ≤ q ∧ q < a + 1 + t.length
      · have : q - a = (q - (a + 1)) + 1 := by omega
        rw [if_pos h2, if_pos (by omega), this, List.getD_cons_succ]
      · rw [if_neg h2, if_neg h1, if_neg (by omega)]

@[simp] theorem bytesAt_length (m : NMap Byte) (a n : Nat) : (bytesAt m a n).length = n := by simp [bytesAt]

theorem bytesAt_getD (m : NMap Byte) (a n i : Nat) (h : i < n) : (bytesAt m a n).getD i 0 = mapGet 0 m (a + i) := by
  simp [bytesAt, mapGet, mapFind_mapRange, h]

/-- A run read after it was written. -/
theorem bytesAt_putBytes_self (m : NMap Byte) (a : Nat) (bs : List Byte) : bytesAt (putBytes m a bs) a bs.length = bs := by
  apply List.ext_getElem
  · simp
  · intro i h1 h2
    have h := bytesAt_getD (putBytes m a bs) a bs.length i h2
    rw [mapGet_putBytes, if_pos ⟨by omega, by omega⟩, Nat.add_sub_cancel_left] at h
    simpa [List.getD_eq_getElem?_getD, h1, h2] using h

/-- A run that a write does not touch reads as before. -/
theorem bytesAt_putBytes_other (m : NMap Byte) (a b n : Nat) (bs : List Byte) (h : b + n ≤ a ∨ a + bs.length ≤ b) :
    bytesAt (putBytes m a bs) b n = bytesAt m b n := by
  apply List.ext_getElem
  · simp
  · intro i h1 h2
    have hn : i < n := by simpa using h1
    have e1 := bytesAt_getD (putBytes m a bs) b n i hn
    have e2 := bytesAt_getD m b n i hn
    rw [mapGet_putBytes, if_neg (by omega)] at e1
    have := e1.trans e2.symm
    simpa [List.getD_eq_getElem?_getD, hn] using this

end Sys2Proof.Machine
end

