-- ==== Sys2Proof/Laws/Regs.lean ====
section
/-!
SUPPORT. Register fields have homes of their own: a read after a write.
-/

namespace Sys2Proof.Machine

theorem Fld.ctorIdx_lt (f : Fld) : f.ctorIdx < 1024 := by cases f <;> decide

theorem Fld.ctorIdx_inj {f g : Fld} (h : f.ctorIdx = g.ctorIdx) : f = g := by
  rw [← Fld.ofNat_ctorIdx f, h, Fld.ofNat_ctorIdx]

/-- Two fields share a home only where they are one field at one index. -/
theorem fldKey_inj {f g : Fld} {i j : Nat} (h : fldKey f i = fldKey g j) : f = g ∧ i = j := by
  have hf := f.ctorIdx_lt
  have hg := g.ctorIdx_lt
  unfold fldKey at h
  have hi : i = j := by omega
  subst hi
  exact ⟨Fld.ctorIdx_inj (by omega), rfl⟩

theorem State.fld_setFld_self (s : State) (f : Fld) (i v : Nat) :
    (s.setFld f i v).fld f i = v % 2 ^ f.desc.width := by simp [State.fld, State.setFld]

theorem State.fld_setFld_other (s : State) (f g : Fld) (i j v : Nat) (h : ¬ (g = f ∧ j = i)) :
    (s.setFld f i v).fld g j = s.fld g j := by
  unfold State.fld State.setFld mapGet
  rw [show mapFind (mapSet f.desc.reset s.regs (fldKey f i) (v % 2 ^ f.desc.width)) (fldKey g j)
      = mapFind s.regs (fldKey g j) from ?_]
  have hk : fldKey g j ≠ fldKey f i := fun e => h (fldKey_inj e)
  unfold mapSet
  split
  · rw [mapFind_mapErase, if_neg hk]
  · rw [mapFind_mapIns, if_neg hk]

theorem State.fld_setFld_ne (s : State) {f g : Fld} (i j v : Nat) (h : g ≠ f) : (s.setFld f i v).fld g j = s.fld g j :=
  s.fld_setFld_other f g i j v (fun e => h e.1)

theorem State.fld_addFld_ne (s : State) {f g : Fld} (i j n : Nat) (h : g ≠ f) : (s.addFld f i n).fld g j = s.fld g j :=
  s.fld_setFld_ne i j _ h

theorem State.fld_satFld_ne (s : State) {f g : Fld} (i j n : Nat) (h : g ≠ f) : (s.satFld f i n).fld g j = s.fld g j :=
  s.fld_setFld_ne i j _ h

/-- Several fields set: one that is not among them reads as before. -/
theorem State.fld_setFlds_ne (s : State) {g : Fld} (i j : Nat) (l : List (Fld × Nat)) (h : ∀ e ∈ l, e.1 ≠ g) :
    (s.setFlds i l).fld g j = s.fld g j := by
  induction l generalizing s with
  | nil => rfl
  | cons e t ih =>
    obtain ⟨f, v⟩ := e
    rw [State.setFlds, ih _ (fun e he => h e (List.mem_cons_of_mem _ he)),
      s.fld_setFld_ne i j v (Ne.symm (h (f, v) (by simp)))]

/-- Several fields set change registers alone. -/
theorem State.setFlds_only (s : State) (i : Nat) (l : List (Fld × Nat)) :
    s.setFlds i l = { s with regs := (s.setFlds i l).regs } := by
  induction l generalizing s with
  | nil => rfl
  | cons e t ih =>
    obtain ⟨f, v⟩ := e
    rw [State.setFlds, ih]
    rfl

end Sys2Proof.Machine
end

