-- ==== Sys2Proof/Laws/State.lean ====
section
/-!
SUPPORT. The fields of the state under the primitive updates: what each leaves as it was.
-/

namespace Sys2Proof.Machine

variable (s : State)

/-! ### setFld -/

@[simp] theorem State.setFld_pending (f : Fld) (i v : Nat) : (s.setFld f i v).pending = s.pending := rfl
@[simp] theorem State.setFld_free (f : Fld) (i v : Nat) : (s.setFld f i v).free = s.free := rfl
@[simp] theorem State.setFld_cells (f : Fld) (i v : Nat) : (s.setFld f i v).cells = s.cells := rfl
@[simp] theorem State.setFld_blocks (f : Fld) (i v : Nat) : (s.setFld f i v).blocks = s.blocks := rfl
@[simp] theorem State.setFld_mem (f : Fld) (i v : Nat) : (s.setFld f i v).mem = s.mem := rfl
@[simp] theorem State.setFld_check (f : Fld) (i v : Nat) : (s.setFld f i v).check = s.check := rfl
@[simp] theorem State.setFld_full (f : Fld) (i v : Nat) : (s.setFld f i v).full = s.full := rfl
@[simp] theorem State.setFld_hostMem (f : Fld) (i v : Nat) : (s.setFld f i v).hostMem = s.hostMem := rfl
@[simp] theorem State.setFld_loct (f : Fld) (i v : Nat) : (s.setFld f i v).loct = s.loct := rfl
@[simp] theorem State.setFld_lcache (f : Fld) (i v : Nat) : (s.setFld f i v).lcache = s.lcache := rfl
@[simp] theorem State.setFld_sampled (f : Fld) (i v : Nat) : (s.setFld f i v).sampled = s.sampled := rfl
@[simp] theorem State.setFld_migs (f : Fld) (i v : Nat) : (s.setFld f i v).migs = s.migs := rfl
@[simp] theorem State.setFld_unclean (f : Fld) (i v : Nat) : (s.setFld f i v).unclean = s.unclean := rfl
@[simp] theorem State.setFld_unslot (f : Fld) (i v : Nat) : (s.setFld f i v).unslot = s.unslot := rfl
@[simp] theorem State.setFld_promo (f : Fld) (i v : Nat) : (s.setFld f i v).promo = s.promo := rfl
@[simp] theorem State.setFld_roomOwed (f : Fld) (i v : Nat) : (s.setFld f i v).roomOwed = s.roomOwed := rfl
@[simp] theorem State.setFld_feLines (f : Fld) (i v : Nat) : (s.setFld f i v).feLines = s.feLines := rfl
@[simp] theorem State.setFld_ftBad (f : Fld) (i v : Nat) : (s.setFld f i v).ftBad = s.ftBad := rfl
@[simp] theorem State.setFld_farClear (f : Fld) (i v : Nat) : (s.setFld f i v).farClear = s.farClear := rfl
@[simp] theorem State.setFld_evac (f : Fld) (i v : Nat) : (s.setFld f i v).evac = s.evac := rfl
@[simp] theorem State.setFld_skip (f : Fld) (i v : Nat) : (s.setFld f i v).skip = s.skip := rfl
@[simp] theorem State.setFld_pinWait (f : Fld) (i v : Nat) : (s.setFld f i v).pinWait = s.pinWait := rfl
@[simp] theorem State.setFld_want (f : Fld) (i v : Nat) : (s.setFld f i v).want = s.want := rfl
@[simp] theorem State.setFld_demoting (f : Fld) (i v : Nat) : (s.setFld f i v).demoting = s.demoting := rfl
@[simp] theorem State.setFld_scds (f : Fld) (i v : Nat) : (s.setFld f i v).scds = s.scds := rfl
@[simp] theorem State.setFld_hostDirty (f : Fld) (i v : Nat) : (s.setFld f i v).hostDirty = s.hostDirty := rfl
@[simp] theorem State.setFld_resv (f : Fld) (i v : Nat) : (s.setFld f i v).resv = s.resv := rfl
@[simp] theorem State.setFld_waiters (f : Fld) (i v : Nat) : (s.setFld f i v).waiters = s.waiters := rfl
@[simp] theorem State.setFld_tiles (f : Fld) (i v : Nat) : (s.setFld f i v).tiles = s.tiles := rfl
@[simp] theorem State.setFld_tlbs (f : Fld) (i v : Nat) : (s.setFld f i v).tlbs = s.tlbs := rfl
@[simp] theorem State.setFld_walks (f : Fld) (i v : Nat) : (s.setFld f i v).walks = s.walks := rfl
@[simp] theorem State.setFld_queues (f : Fld) (i v : Nat) : (s.setFld f i v).queues = s.queues := rfl
@[simp] theorem State.setFld_pool (f : Fld) (i v : Nat) : (s.setFld f i v).pool = s.pool := rfl
@[simp] theorem State.setFld_done (f : Fld) (i v : Nat) : (s.setFld f i v).done = s.done := rfl
@[simp] theorem State.setFld_fails (f : Fld) (i v : Nat) : (s.setFld f i v).fails = s.fails := rfl
@[simp] theorem State.setFld_acks (f : Fld) (i v : Nat) : (s.setFld f i v).acks = s.acks := rfl
@[simp] theorem State.setFld_copyEng (f : Fld) (i v : Nat) : (s.setFld f i v).copyEng = s.copyEng := rfl
@[simp] theorem State.setFld_lastQ (f : Fld) (i v : Nat) : (s.setFld f i v).lastQ = s.lastQ := rfl
@[simp] theorem State.setFld_roomTurn (f : Fld) (i v : Nat) : (s.setFld f i v).roomTurn = s.roomTurn := rfl
@[simp] theorem State.setFld_kernels (f : Fld) (i v : Nat) : (s.setFld f i v).kernels = s.kernels := rfl
@[simp] theorem State.setFld_nextKern (f : Fld) (i v : Nat) : (s.setFld f i v).nextKern = s.nextKern := rfl
@[simp] theorem State.setFld_kepoch (f : Fld) (i v : Nat) : (s.setFld f i v).kepoch = s.kepoch := rfl
@[simp] theorem State.setFld_colls (f : Fld) (i v : Nat) : (s.setFld f i v).colls = s.colls := rfl
@[simp] theorem State.setFld_held (f : Fld) (i v : Nat) : (s.setFld f i v).held = s.held := rfl
@[simp] theorem State.setFld_collSeq (f : Fld) (i v : Nat) : (s.setFld f i v).collSeq = s.collSeq := rfl
@[simp] theorem State.setFld_msix (f : Fld) (i v : Nat) : (s.setFld f i v).msix = s.msix := rfl
@[simp] theorem State.setFld_hif (f : Fld) (i v : Nat) : (s.setFld f i v).hif = s.hif := rfl
@[simp] theorem State.setFld_links (f : Fld) (i v : Nat) : (s.setFld f i v).links = s.links := rfl
@[simp] theorem State.setFld_remote (f : Fld) (i v : Nat) : (s.setFld f i v).remote = s.remote := rfl
@[simp] theorem State.setFld_nextTid (f : Fld) (i v : Nat) : (s.setFld f i v).nextTid = s.nextTid := rfl
@[simp] theorem State.setFld_gens (f : Fld) (i v : Nat) : (s.setFld f i v).gens = s.gens := rfl
@[simp] theorem State.setFld_badLines (f : Fld) (i v : Nat) : (s.setFld f i v).badLines = s.badLines := rfl
@[simp] theorem State.setFld_pairs (f : Fld) (i v : Nat) : (s.setFld f i v).pairs = s.pairs := rfl
@[simp] theorem State.setFld_arrived (f : Fld) (i v : Nat) : (s.setFld f i v).arrived = s.arrived := rfl
@[simp] theorem State.setFld_retrain (f : Fld) (i v : Nat) : (s.setFld f i v).retrain = s.retrain := rfl
@[simp] theorem State.setFld_rtts (f : Fld) (i v : Nat) : (s.setFld f i v).rtts = s.rtts := rfl
@[simp] theorem State.setFld_dumpDue (f : Fld) (i v : Nat) : (s.setFld f i v).dumpDue = s.dumpDue := rfl
@[simp] theorem State.setFld_flashDev (f : Fld) (i v : Nat) : (s.setFld f i v).flashDev = s.flashDev := rfl
@[simp] theorem State.setFld_later (f : Fld) (i v : Nat) : (s.setFld f i v).later = s.later := rfl
@[simp] theorem State.setFld_normRgn (f : Fld) (i v : Nat) : (s.setFld f i v).normRgn = s.normRgn := rfl
@[simp] theorem State.setFld_normScd (f : Fld) (i v : Nat) : (s.setFld f i v).normScd = s.normScd := rfl
@[simp] theorem State.setFld_slowAt (f : Fld) (i v : Nat) : (s.setFld f i v).slowAt = s.slowAt := rfl
@[simp] theorem State.setFld_tidHold (f : Fld) (i v : Nat) : (s.setFld f i v).tidHold = s.tidHold := rfl
@[simp] theorem State.setFld_plainTx (f : Fld) (i v : Nat) : (s.setFld f i v).plainTx = s.plainTx := rfl
@[simp] theorem State.setFld_hdrs (f : Fld) (i v : Nat) : (s.setFld f i v).hdrs = s.hdrs := rfl
@[simp] theorem State.setFld_time (f : Fld) (i v : Nat) : (s.setFld f i v).time = s.time := rfl
@[simp] theorem State.setFld_flash (f : Fld) (i v : Nat) : (s.setFld f i v).flash = s.flash := rfl
@[simp] theorem State.setFld_fuses (f : Fld) (i v : Nat) : (s.setFld f i v).fuses = s.fuses := rfl
@[simp] theorem State.setFld_usercal (f : Fld) (i v : Nat) : (s.setFld f i v).usercal = s.usercal := rfl
@[simp] theorem State.setFld_ports (f : Fld) (i v : Nat) : (s.setFld f i v).ports = s.ports := rfl
@[simp] theorem State.setFld_ftTimes (f : Fld) (i v : Nat) : (s.setFld f i v).ftTimes = s.ftTimes := rfl
@[simp] theorem State.setFld_devLoad (f : Fld) (i v : Nat) : (s.setFld f i v).devLoad = s.devLoad := rfl
@[simp] theorem State.setFld_sec (f : Fld) (i v : Nat) : (s.setFld f i v).sec = s.sec := rfl
@[simp] theorem State.setFld_pwr (f : Fld) (i v : Nat) : (s.setFld f i v).pwr = s.pwr := rfl
@[simp] theorem State.setFld_side (f : Fld) (i v : Nat) : (s.setFld f i v).side = s.side := rfl
@[simp] theorem State.setFld_tap (f : Fld) (i v : Nat) : (s.setFld f i v).tap = s.tap := rfl
@[simp] theorem State.setFld_dump (f : Fld) (i v : Nat) : (s.setFld f i v).dump = s.dump := rfl
@[simp] theorem State.setFld_refresh (f : Fld) (i v : Nat) : (s.setFld f i v).refresh = s.refresh := rfl
@[simp] theorem State.setFld_hotDies (f : Fld) (i v : Nat) : (s.setFld f i v).hotDies = s.hotDies := rfl
@[simp] theorem State.setFld_dieTemp (f : Fld) (i v : Nat) : (s.setFld f i v).dieTemp = s.dieTemp := rfl
@[simp] theorem State.setFld_patrolAt (f : Fld) (i v : Nat) : (s.setFld f i v).patrolAt = s.patrolAt := rfl
@[simp] theorem State.setFld_scrubAt (f : Fld) (i v : Nat) : (s.setFld f i v).scrubAt = s.scrubAt := rfl
@[simp] theorem State.setFld_patrolPer (f : Fld) (i v : Nat) : (s.setFld f i v).patrolPer = s.patrolPer := rfl
@[simp] theorem State.setFld_scrubPer (f : Fld) (i v : Nat) : (s.setFld f i v).scrubPer = s.scrubPer := rfl
@[simp] theorem State.setFld_drainAt (f : Fld) (i v : Nat) : (s.setFld f i v).drainAt = s.drainAt := rfl
@[simp] theorem State.setFld_siliOff (f : Fld) (i v : Nat) : (s.setFld f i v).siliOff = s.siliOff := rfl
@[simp] theorem State.setFld_trainAt (f : Fld) (i v : Nat) : (s.setFld f i v).trainAt = s.trainAt := rfl
@[simp] theorem State.setFld_slices (f : Fld) (i v : Nat) : (s.setFld f i v).slices = s.slices := rfl
@[simp] theorem State.setFld_energyRem (f : Fld) (i v : Nat) : (s.setFld f i v).energyRem = s.energyRem := rfl
@[simp] theorem State.setFld_used (f : Fld) (i v : Nat) : (s.setFld f i v).used = s.used := rfl

/-! ### satFld -/

@[simp] theorem State.satFld_pending (f : Fld) (i n : Nat) : (s.satFld f i n).pending = s.pending := rfl
@[simp] theorem State.satFld_free (f : Fld) (i n : Nat) : (s.satFld f i n).free = s.free := rfl
@[simp] theorem State.satFld_cells (f : Fld) (i n : Nat) : (s.satFld f i n).cells = s.cells := rfl
@[simp] theorem State.satFld_blocks (f : Fld) (i n : Nat) : (s.satFld f i n).blocks = s.blocks := rfl
@[simp] theorem State.satFld_mem (f : Fld) (i n : Nat) : (s.satFld f i n).mem = s.mem := rfl
@[simp] theorem State.satFld_check (f : Fld) (i n : Nat) : (s.satFld f i n).check = s.check := rfl
@[simp] theorem State.satFld_full (f : Fld) (i n : Nat) : (s.satFld f i n).full = s.full := rfl
@[simp] theorem State.satFld_hostMem (f : Fld) (i n : Nat) : (s.satFld f i n).hostMem = s.hostMem := rfl
@[simp] theorem State.satFld_loct (f : Fld) (i n : Nat) : (s.satFld f i n).loct = s.loct := rfl
@[simp] theorem State.satFld_lcache (f : Fld) (i n : Nat) : (s.satFld f i n).lcache = s.lcache := rfl
@[simp] theorem State.satFld_sampled (f : Fld) (i n : Nat) : (s.satFld f i n).sampled = s.sampled := rfl
@[simp] theorem State.satFld_migs (f : Fld) (i n : Nat) : (s.satFld f i n).migs = s.migs := rfl
@[simp] theorem State.satFld_unclean (f : Fld) (i n : Nat) : (s.satFld f i n).unclean = s.unclean := rfl
@[simp] theorem State.satFld_unslot (f : Fld) (i n : Nat) : (s.satFld f i n).unslot = s.unslot := rfl
@[simp] theorem State.satFld_promo (f : Fld) (i n : Nat) : (s.satFld f i n).promo = s.promo := rfl
@[simp] theorem State.satFld_roomOwed (f : Fld) (i n : Nat) : (s.satFld f i n).roomOwed = s.roomOwed := rfl
@[simp] theorem State.satFld_feLines (f : Fld) (i n : Nat) : (s.satFld f i n).feLines = s.feLines := rfl
@[simp] theorem State.satFld_ftBad (f : Fld) (i n : Nat) : (s.satFld f i n).ftBad = s.ftBad := rfl
@[simp] theorem State.satFld_farClear (f : Fld) (i n : Nat) : (s.satFld f i n).farClear = s.farClear := rfl
@[simp] theorem State.satFld_evac (f : Fld) (i n : Nat) : (s.satFld f i n).evac = s.evac := rfl
@[simp] theorem State.satFld_skip (f : Fld) (i n : Nat) : (s.satFld f i n).skip = s.skip := rfl
@[simp] theorem State.satFld_pinWait (f : Fld) (i n : Nat) : (s.satFld f i n).pinWait = s.pinWait := rfl
@[simp] theorem State.satFld_want (f : Fld) (i n : Nat) : (s.satFld f i n).want = s.want := rfl
@[simp] theorem State.satFld_demoting (f : Fld) (i n : Nat) : (s.satFld f i n).demoting = s.demoting := rfl
@[simp] theorem State.satFld_scds (f : Fld) (i n : Nat) : (s.satFld f i n).scds = s.scds := rfl
@[simp] theorem State.satFld_hostDirty (f : Fld) (i n : Nat) : (s.satFld f i n).hostDirty = s.hostDirty := rfl
@[simp] theorem State.satFld_resv (f : Fld) (i n : Nat) : (s.satFld f i n).resv = s.resv := rfl
@[simp] theorem State.satFld_waiters (f : Fld) (i n : Nat) : (s.satFld f i n).waiters = s.waiters := rfl
@[simp] theorem State.satFld_tiles (f : Fld) (i n : Nat) : (s.satFld f i n).tiles = s.tiles := rfl
@[simp] theorem State.satFld_tlbs (f : Fld) (i n : Nat) : (s.satFld f i n).tlbs = s.tlbs := rfl
@[simp] theorem State.satFld_walks (f : Fld) (i n : Nat) : (s.satFld f i n).walks = s.walks := rfl
@[simp] theorem State.satFld_queues (f : Fld) (i n : Nat) : (s.satFld f i n).queues = s.queues := rfl
@[simp] theorem State.satFld_pool (f : Fld) (i n : Nat) : (s.satFld f i n).pool = s.pool := rfl
@[simp] theorem State.satFld_done (f : Fld) (i n : Nat) : (s.satFld f i n).done = s.done := rfl
@[simp] theorem State.satFld_fails (f : Fld) (i n : Nat) : (s.satFld f i n).fails = s.fails := rfl
@[simp] theorem State.satFld_acks (f : Fld) (i n : Nat) : (s.satFld f i n).acks = s.acks := rfl
@[simp] theorem State.satFld_copyEng (f : Fld) (i n : Nat) : (s.satFld f i n).copyEng = s.copyEng := rfl
@[simp] theorem State.satFld_lastQ (f : Fld) (i n : Nat) : (s.satFld f i n).lastQ = s.lastQ := rfl
@[simp] theorem State.satFld_roomTurn (f : Fld) (i n : Nat) : (s.satFld f i n).roomTurn = s.roomTurn := rfl
@[simp] theorem State.satFld_kernels (f : Fld) (i n : Nat) : (s.satFld f i n).kernels = s.kernels := rfl
@[simp] theorem State.satFld_nextKern (f : Fld) (i n : Nat) : (s.satFld f i n).nextKern = s.nextKern := rfl
@[simp] theorem State.satFld_kepoch (f : Fld) (i n : Nat) : (s.satFld f i n).kepoch = s.kepoch := rfl
@[simp] theorem State.satFld_colls (f : Fld) (i n : Nat) : (s.satFld f i n).colls = s.colls := rfl
@[simp] theorem State.satFld_held (f : Fld) (i n : Nat) : (s.satFld f i n).held = s.held := rfl
@[simp] theorem State.satFld_collSeq (f : Fld) (i n : Nat) : (s.satFld f i n).collSeq = s.collSeq := rfl
@[simp] theorem State.satFld_msix (f : Fld) (i n : Nat) : (s.satFld f i n).msix = s.msix := rfl
@[simp] theorem State.satFld_hif (f : Fld) (i n : Nat) : (s.satFld f i n).hif = s.hif := rfl
@[simp] theorem State.satFld_links (f : Fld) (i n : Nat) : (s.satFld f i n).links = s.links := rfl
@[simp] theorem State.satFld_remote (f : Fld) (i n : Nat) : (s.satFld f i n).remote = s.remote := rfl
@[simp] theorem State.satFld_nextTid (f : Fld) (i n : Nat) : (s.satFld f i n).nextTid = s.nextTid := rfl
@[simp] theorem State.satFld_gens (f : Fld) (i n : Nat) : (s.satFld f i n).gens = s.gens := rfl
@[simp] theorem State.satFld_badLines (f : Fld) (i n : Nat) : (s.satFld f i n).badLines = s.badLines := rfl
@[simp] theorem State.satFld_pairs (f : Fld) (i n : Nat) : (s.satFld f i n).pairs = s.pairs := rfl
@[simp] theorem State.satFld_arrived (f : Fld) (i n : Nat) : (s.satFld f i n).arrived = s.arrived := rfl
@[simp] theorem State.satFld_retrain (f : Fld) (i n : Nat) : (s.satFld f i n).retrain = s.retrain := rfl
@[simp] theorem State.satFld_rtts (f : Fld) (i n : Nat) : (s.satFld f i n).rtts = s.rtts := rfl
@[simp] theorem State.satFld_dumpDue (f : Fld) (i n : Nat) : (s.satFld f i n).dumpDue = s.dumpDue := rfl
@[simp] theorem State.satFld_flashDev (f : Fld) (i n : Nat) : (s.satFld f i n).flashDev = s.flashDev := rfl
@[simp] theorem State.satFld_later (f : Fld) (i n : Nat) : (s.satFld f i n).later = s.later := rfl
@[simp] theorem State.satFld_normRgn (f : Fld) (i n : Nat) : (s.satFld f i n).normRgn = s.normRgn := rfl
@[simp] theorem State.satFld_normScd (f : Fld) (i n : Nat) : (s.satFld f i n).normScd = s.normScd := rfl
@[simp] theorem State.satFld_slowAt (f : Fld) (i n : Nat) : (s.satFld f i n).slowAt = s.slowAt := rfl
@[simp] theorem State.satFld_tidHold (f : Fld) (i n : Nat) : (s.satFld f i n).tidHold = s.tidHold := rfl
@[simp] theorem State.satFld_plainTx (f : Fld) (i n : Nat) : (s.satFld f i n).plainTx = s.plainTx := rfl
@[simp] theorem State.satFld_hdrs (f : Fld) (i n : Nat) : (s.satFld f i n).hdrs = s.hdrs := rfl
@[simp] theorem State.satFld_time (f : Fld) (i n : Nat) : (s.satFld f i n).time = s.time := rfl
@[simp] theorem State.satFld_flash (f : Fld) (i n : Nat) : (s.satFld f i n).flash = s.flash := rfl
@[simp] theorem State.satFld_fuses (f : Fld) (i n : Nat) : (s.satFld f i n).fuses = s.fuses := rfl
@[simp] theorem State.satFld_usercal (f : Fld) (i n : Nat) : (s.satFld f i n).usercal = s.usercal := rfl
@[simp] theorem State.satFld_ports (f : Fld) (i n : Nat) : (s.satFld f i n).ports = s.ports := rfl
@[simp] theorem State.satFld_ftTimes (f : Fld) (i n : Nat) : (s.satFld f i n).ftTimes = s.ftTimes := rfl
@[simp] theorem State.satFld_devLoad (f : Fld) (i n : Nat) : (s.satFld f i n).devLoad = s.devLoad := rfl
@[simp] theorem State.satFld_sec (f : Fld) (i n : Nat) : (s.satFld f i n).sec = s.sec := rfl
@[simp] theorem State.satFld_pwr (f : Fld) (i n : Nat) : (s.satFld f i n).pwr = s.pwr := rfl
@[simp] theorem State.satFld_side (f : Fld) (i n : Nat) : (s.satFld f i n).side = s.side := rfl
@[simp] theorem State.satFld_tap (f : Fld) (i n : Nat) : (s.satFld f i n).tap = s.tap := rfl
@[simp] theorem State.satFld_dump (f : Fld) (i n : Nat) : (s.satFld f i n).dump = s.dump := rfl
@[simp] theorem State.satFld_refresh (f : Fld) (i n : Nat) : (s.satFld f i n).refresh = s.refresh := rfl
@[simp] theorem State.satFld_hotDies (f : Fld) (i n : Nat) : (s.satFld f i n).hotDies = s.hotDies := rfl
@[simp] theorem State.satFld_dieTemp (f : Fld) (i n : Nat) : (s.satFld f i n).dieTemp = s.dieTemp := rfl
@[simp] theorem State.satFld_patrolAt (f : Fld) (i n : Nat) : (s.satFld f i n).patrolAt = s.patrolAt := rfl
@[simp] theorem State.satFld_scrubAt (f : Fld) (i n : Nat) : (s.satFld f i n).scrubAt = s.scrubAt := rfl
@[simp] theorem State.satFld_patrolPer (f : Fld) (i n : Nat) : (s.satFld f i n).patrolPer = s.patrolPer := rfl
@[simp] theorem State.satFld_scrubPer (f : Fld) (i n : Nat) : (s.satFld f i n).scrubPer = s.scrubPer := rfl
@[simp] theorem State.satFld_drainAt (f : Fld) (i n : Nat) : (s.satFld f i n).drainAt = s.drainAt := rfl
@[simp] theorem State.satFld_siliOff (f : Fld) (i n : Nat) : (s.satFld f i n).siliOff = s.siliOff := rfl
@[simp] theorem State.satFld_trainAt (f : Fld) (i n : Nat) : (s.satFld f i n).trainAt = s.trainAt := rfl
@[simp] theorem State.satFld_slices (f : Fld) (i n : Nat) : (s.satFld f i n).slices = s.slices := rfl
@[simp] theorem State.satFld_energyRem (f : Fld) (i n : Nat) : (s.satFld f i n).energyRem = s.energyRem := rfl
@[simp] theorem State.satFld_used (f : Fld) (i n : Nat) : (s.satFld f i n).used = s.used := rfl

/-! ### addFld -/

@[simp] theorem State.addFld_pending (f : Fld) (i n : Nat) : (s.addFld f i n).pending = s.pending := rfl
@[simp] theorem State.addFld_free (f : Fld) (i n : Nat) : (s.addFld f i n).free = s.free := rfl
@[simp] theorem State.addFld_cells (f : Fld) (i n : Nat) : (s.addFld f i n).cells = s.cells := rfl
@[simp] theorem State.addFld_blocks (f : Fld) (i n : Nat) : (s.addFld f i n).blocks = s.blocks := rfl
@[simp] theorem State.addFld_mem (f : Fld) (i n : Nat) : (s.addFld f i n).mem = s.mem := rfl
@[simp] theorem State.addFld_check (f : Fld) (i n : Nat) : (s.addFld f i n).check = s.check := rfl
@[simp] theorem State.addFld_full (f : Fld) (i n : Nat) : (s.addFld f i n).full = s.full := rfl
@[simp] theorem State.addFld_hostMem (f : Fld) (i n : Nat) : (s.addFld f i n).hostMem = s.hostMem := rfl
@[simp] theorem State.addFld_loct (f : Fld) (i n : Nat) : (s.addFld f i n).loct = s.loct := rfl
@[simp] theorem State.addFld_lcache (f : Fld) (i n : Nat) : (s.addFld f i n).lcache = s.lcache := rfl
@[simp] theorem State.addFld_sampled (f : Fld) (i n : Nat) : (s.addFld f i n).sampled = s.sampled := rfl
@[simp] theorem State.addFld_migs (f : Fld) (i n : Nat) : (s.addFld f i n).migs = s.migs := rfl
@[simp] theorem State.addFld_unclean (f : Fld) (i n : Nat) : (s.addFld f i n).unclean = s.unclean := rfl
@[simp] theorem State.addFld_unslot (f : Fld) (i n : Nat) : (s.addFld f i n).unslot = s.unslot := rfl
@[simp] theorem State.addFld_promo (f : Fld) (i n : Nat) : (s.addFld f i n).promo = s.promo := rfl
@[simp] theorem State.addFld_roomOwed (f : Fld) (i n : Nat) : (s.addFld f i n).roomOwed = s.roomOwed := rfl
@[simp] theorem State.addFld_feLines (f : Fld) (i n : Nat) : (s.addFld f i n).feLines = s.feLines := rfl
@[simp] theorem State.addFld_ftBad (f : Fld) (i n : Nat) : (s.addFld f i n).ftBad = s.ftBad := rfl
@[simp] theorem State.addFld_farClear (f : Fld) (i n : Nat) : (s.addFld f i n).farClear = s.farClear := rfl
@[simp] theorem State.addFld_evac (f : Fld) (i n : Nat) : (s.addFld f i n).evac = s.evac := rfl
@[simp] theorem State.addFld_skip (f : Fld) (i n : Nat) : (s.addFld f i n).skip = s.skip := rfl
@[simp] theorem State.addFld_pinWait (f : Fld) (i n : Nat) : (s.addFld f i n).pinWait = s.pinWait := rfl
@[simp] theorem State.addFld_want (f : Fld) (i n : Nat) : (s.addFld f i n).want = s.want := rfl
@[simp] theorem State.addFld_demoting (f : Fld) (i n : Nat) : (s.addFld f i n).demoting = s.demoting := rfl
@[simp] theorem State.addFld_scds (f : Fld) (i n : Nat) : (s.addFld f i n).scds = s.scds := rfl
@[simp] theorem State.addFld_hostDirty (f : Fld) (i n : Nat) : (s.addFld f i n).hostDirty = s.hostDirty := rfl
@[simp] theorem State.addFld_resv (f : Fld) (i n : Nat) : (s.addFld f i n).resv = s.resv := rfl
@[simp] theorem State.addFld_waiters (f : Fld) (i n : Nat) : (s.addFld f i n).waiters = s.waiters := rfl
@[simp] theorem State.addFld_tiles (f : Fld) (i n : Nat) : (s.addFld f i n).tiles = s.tiles := rfl
@[simp] theorem State.addFld_tlbs (f : Fld) (i n : Nat) : (s.addFld f i n).tlbs = s.tlbs := rfl
@[simp] theorem State.addFld_walks (f : Fld) (i n : Nat) : (s.addFld f i n).walks = s.walks := rfl
@[simp] theorem State.addFld_queues (f : Fld) (i n : Nat) : (s.addFld f i n).queues = s.queues := rfl
@[simp] theorem State.addFld_pool (f : Fld) (i n : Nat) : (s.addFld f i n).pool = s.pool := rfl
@[simp] theorem State.addFld_done (f : Fld) (i n : Nat) : (s.addFld f i n).done = s.done := rfl
@[simp] theorem State.addFld_fails (f : Fld) (i n : Nat) : (s.addFld f i n).fails = s.fails := rfl
@[simp] theorem State.addFld_acks (f : Fld) (i n : Nat) : (s.addFld f i n).acks = s.acks := rfl
@[simp] theorem State.addFld_copyEng (f : Fld) (i n : Nat) : (s.addFld f i n).copyEng = s.copyEng := rfl
@[simp] theorem State.addFld_lastQ (f : Fld) (i n : Nat) : (s.addFld f i n).lastQ = s.lastQ := rfl
@[simp] theorem State.addFld_roomTurn (f : Fld) (i n : Nat) : (s.addFld f i n).roomTurn = s.roomTurn := rfl
@[simp] theorem State.addFld_kernels (f : Fld) (i n : Nat) : (s.addFld f i n).kernels = s.kernels := rfl
@[simp] theorem State.addFld_nextKern (f : Fld) (i n : Nat) : (s.addFld f i n).nextKern = s.nextKern := rfl
@[simp] theorem State.addFld_kepoch (f : Fld) (i n : Nat) : (s.addFld f i n).kepoch = s.kepoch := rfl
@[simp] theorem State.addFld_colls (f : Fld) (i n : Nat) : (s.addFld f i n).colls = s.colls := rfl
@[simp] theorem State.addFld_held (f : Fld) (i n : Nat) : (s.addFld f i n).held = s.held := rfl
@[simp] theorem State.addFld_collSeq (f : Fld) (i n : Nat) : (s.addFld f i n).collSeq = s.collSeq := rfl
@[simp] theorem State.addFld_msix (f : Fld) (i n : Nat) : (s.addFld f i n).msix = s.msix := rfl
@[simp] theorem State.addFld_hif (f : Fld) (i n : Nat) : (s.addFld f i n).hif = s.hif := rfl
@[simp] theorem State.addFld_links (f : Fld) (i n : Nat) : (s.addFld f i n).links = s.links := rfl
@[simp] theorem State.addFld_remote (f : Fld) (i n : Nat) : (s.addFld f i n).remote = s.remote := rfl
@[simp] theorem State.addFld_nextTid (f : Fld) (i n : Nat) : (s.addFld f i n).nextTid = s.nextTid := rfl
@[simp] theorem State.addFld_gens (f : Fld) (i n : Nat) : (s.addFld f i n).gens = s.gens := rfl
@[simp] theorem State.addFld_badLines (f : Fld) (i n : Nat) : (s.addFld f i n).badLines = s.badLines := rfl
@[simp] theorem State.addFld_pairs (f : Fld) (i n : Nat) : (s.addFld f i n).pairs = s.pairs := rfl
@[simp] theorem State.addFld_arrived (f : Fld) (i n : Nat) : (s.addFld f i n).arrived = s.arrived := rfl
@[simp] theorem State.addFld_retrain (f : Fld) (i n : Nat) : (s.addFld f i n).retrain = s.retrain := rfl
@[simp] theorem State.addFld_rtts (f : Fld) (i n : Nat) : (s.addFld f i n).rtts = s.rtts := rfl
@[simp] theorem State.addFld_dumpDue (f : Fld) (i n : Nat) : (s.addFld f i n).dumpDue = s.dumpDue := rfl
@[simp] theorem State.addFld_flashDev (f : Fld) (i n : Nat) : (s.addFld f i n).flashDev = s.flashDev := rfl
@[simp] theorem State.addFld_later (f : Fld) (i n : Nat) : (s.addFld f i n).later = s.later := rfl
@[simp] theorem State.addFld_normRgn (f : Fld) (i n : Nat) : (s.addFld f i n).normRgn = s.normRgn := rfl
@[simp] theorem State.addFld_normScd (f : Fld) (i n : Nat) : (s.addFld f i n).normScd = s.normScd := rfl
@[simp] theorem State.addFld_slowAt (f : Fld) (i n : Nat) : (s.addFld f i n).slowAt = s.slowAt := rfl
@[simp] theorem State.addFld_tidHold (f : Fld) (i n : Nat) : (s.addFld f i n).tidHold = s.tidHold := rfl
@[simp] theorem State.addFld_plainTx (f : Fld) (i n : Nat) : (s.addFld f i n).plainTx = s.plainTx := rfl
@[simp] theorem State.addFld_hdrs (f : Fld) (i n : Nat) : (s.addFld f i n).hdrs = s.hdrs := rfl
@[simp] theorem State.addFld_time (f : Fld) (i n : Nat) : (s.addFld f i n).time = s.time := rfl
@[simp] theorem State.addFld_flash (f : Fld) (i n : Nat) : (s.addFld f i n).flash = s.flash := rfl
@[simp] theorem State.addFld_fuses (f : Fld) (i n : Nat) : (s.addFld f i n).fuses = s.fuses := rfl
@[simp] theorem State.addFld_usercal (f : Fld) (i n : Nat) : (s.addFld f i n).usercal = s.usercal := rfl
@[simp] theorem State.addFld_ports (f : Fld) (i n : Nat) : (s.addFld f i n).ports = s.ports := rfl
@[simp] theorem State.addFld_ftTimes (f : Fld) (i n : Nat) : (s.addFld f i n).ftTimes = s.ftTimes := rfl
@[simp] theorem State.addFld_devLoad (f : Fld) (i n : Nat) : (s.addFld f i n).devLoad = s.devLoad := rfl
@[simp] theorem State.addFld_sec (f : Fld) (i n : Nat) : (s.addFld f i n).sec = s.sec := rfl
@[simp] theorem State.addFld_pwr (f : Fld) (i n : Nat) : (s.addFld f i n).pwr = s.pwr := rfl
@[simp] theorem State.addFld_side (f : Fld) (i n : Nat) : (s.addFld f i n).side = s.side := rfl
@[simp] theorem State.addFld_tap (f : Fld) (i n : Nat) : (s.addFld f i n).tap = s.tap := rfl
@[simp] theorem State.addFld_dump (f : Fld) (i n : Nat) : (s.addFld f i n).dump = s.dump := rfl
@[simp] theorem State.addFld_refresh (f : Fld) (i n : Nat) : (s.addFld f i n).refresh = s.refresh := rfl
@[simp] theorem State.addFld_hotDies (f : Fld) (i n : Nat) : (s.addFld f i n).hotDies = s.hotDies := rfl
@[simp] theorem State.addFld_dieTemp (f : Fld) (i n : Nat) : (s.addFld f i n).dieTemp = s.dieTemp := rfl
@[simp] theorem State.addFld_patrolAt (f : Fld) (i n : Nat) : (s.addFld f i n).patrolAt = s.patrolAt := rfl
@[simp] theorem State.addFld_scrubAt (f : Fld) (i n : Nat) : (s.addFld f i n).scrubAt = s.scrubAt := rfl
@[simp] theorem State.addFld_patrolPer (f : Fld) (i n : Nat) : (s.addFld f i n).patrolPer = s.patrolPer := rfl
@[simp] theorem State.addFld_scrubPer (f : Fld) (i n : Nat) : (s.addFld f i n).scrubPer = s.scrubPer := rfl
@[simp] theorem State.addFld_drainAt (f : Fld) (i n : Nat) : (s.addFld f i n).drainAt = s.drainAt := rfl
@[simp] theorem State.addFld_siliOff (f : Fld) (i n : Nat) : (s.addFld f i n).siliOff = s.siliOff := rfl
@[simp] theorem State.addFld_trainAt (f : Fld) (i n : Nat) : (s.addFld f i n).trainAt = s.trainAt := rfl
@[simp] theorem State.addFld_slices (f : Fld) (i n : Nat) : (s.addFld f i n).slices = s.slices := rfl
@[simp] theorem State.addFld_energyRem (f : Fld) (i n : Nat) : (s.addFld f i n).energyRem = s.energyRem := rfl
@[simp] theorem State.addFld_used (f : Fld) (i n : Nat) : (s.addFld f i n).used = s.used := rfl

/-! ### setCell -/

@[simp] theorem State.setCell_pending (c : Nat) (x : Cell) : (s.setCell c x).pending = s.pending := rfl
@[simp] theorem State.setCell_free (c : Nat) (x : Cell) : (s.setCell c x).free = s.free := rfl
@[simp] theorem State.setCell_regs (c : Nat) (x : Cell) : (s.setCell c x).regs = s.regs := rfl
@[simp] theorem State.setCell_blocks (c : Nat) (x : Cell) : (s.setCell c x).blocks = s.blocks := rfl
@[simp] theorem State.setCell_mem (c : Nat) (x : Cell) : (s.setCell c x).mem = s.mem := rfl
@[simp] theorem State.setCell_check (c : Nat) (x : Cell) : (s.setCell c x).check = s.check := rfl
@[simp] theorem State.setCell_full (c : Nat) (x : Cell) : (s.setCell c x).full = s.full := rfl
@[simp] theorem State.setCell_hostMem (c : Nat) (x : Cell) : (s.setCell c x).hostMem = s.hostMem := rfl
@[simp] theorem State.setCell_loct (c : Nat) (x : Cell) : (s.setCell c x).loct = s.loct := rfl
@[simp] theorem State.setCell_lcache (c : Nat) (x : Cell) : (s.setCell c x).lcache = s.lcache := rfl
@[simp] theorem State.setCell_sampled (c : Nat) (x : Cell) : (s.setCell c x).sampled = s.sampled := rfl
@[simp] theorem State.setCell_migs (c : Nat) (x : Cell) : (s.setCell c x).migs = s.migs := rfl
@[simp] theorem State.setCell_unclean (c : Nat) (x : Cell) : (s.setCell c x).unclean = s.unclean := rfl
@[simp] theorem State.setCell_unslot (c : Nat) (x : Cell) : (s.setCell c x).unslot = s.unslot := rfl
@[simp] theorem State.setCell_promo (c : Nat) (x : Cell) : (s.setCell c x).promo = s.promo := rfl
@[simp] theorem State.setCell_roomOwed (c : Nat) (x : Cell) : (s.setCell c x).roomOwed = s.roomOwed := rfl
@[simp] theorem State.setCell_feLines (c : Nat) (x : Cell) : (s.setCell c x).feLines = s.feLines := rfl
@[simp] theorem State.setCell_ftBad (c : Nat) (x : Cell) : (s.setCell c x).ftBad = s.ftBad := rfl
@[simp] theorem State.setCell_farClear (c : Nat) (x : Cell) : (s.setCell c x).farClear = s.farClear := rfl
@[simp] theorem State.setCell_evac (c : Nat) (x : Cell) : (s.setCell c x).evac = s.evac := rfl
@[simp] theorem State.setCell_skip (c : Nat) (x : Cell) : (s.setCell c x).skip = s.skip := rfl
@[simp] theorem State.setCell_pinWait (c : Nat) (x : Cell) : (s.setCell c x).pinWait = s.pinWait := rfl
@[simp] theorem State.setCell_want (c : Nat) (x : Cell) : (s.setCell c x).want = s.want := rfl
@[simp] theorem State.setCell_demoting (c : Nat) (x : Cell) : (s.setCell c x).demoting = s.demoting := rfl
@[simp] theorem State.setCell_scds (c : Nat) (x : Cell) : (s.setCell c x).scds = s.scds := rfl
@[simp] theorem State.setCell_hostDirty (c : Nat) (x : Cell) : (s.setCell c x).hostDirty = s.hostDirty := rfl
@[simp] theorem State.setCell_resv (c : Nat) (x : Cell) : (s.setCell c x).resv = s.resv := rfl
@[simp] theorem State.setCell_waiters (c : Nat) (x : Cell) : (s.setCell c x).waiters = s.waiters := rfl
@[simp] theorem State.setCell_tiles (c : Nat) (x : Cell) : (s.setCell c x).tiles = s.tiles := rfl
@[simp] theorem State.setCell_tlbs (c : Nat) (x : Cell) : (s.setCell c x).tlbs = s.tlbs := rfl
@[simp] theorem State.setCell_walks (c : Nat) (x : Cell) : (s.setCell c x).walks = s.walks := rfl
@[simp] theorem State.setCell_queues (c : Nat) (x : Cell) : (s.setCell c x).queues = s.queues := rfl
@[simp] theorem State.setCell_pool (c : Nat) (x : Cell) : (s.setCell c x).pool = s.pool := rfl
@[simp] theorem State.setCell_done (c : Nat) (x : Cell) : (s.setCell c x).done = s.done := rfl
@[simp] theorem State.setCell_fails (c : Nat) (x : Cell) : (s.setCell c x).fails = s.fails := rfl
@[simp] theorem State.setCell_acks (c : Nat) (x : Cell) : (s.setCell c x).acks = s.acks := rfl
@[simp] theorem State.setCell_copyEng (c : Nat) (x : Cell) : (s.setCell c x).copyEng = s.copyEng := rfl
@[simp] theorem State.setCell_lastQ (c : Nat) (x : Cell) : (s.setCell c x).lastQ = s.lastQ := rfl
@[simp] theorem State.setCell_roomTurn (c : Nat) (x : Cell) : (s.setCell c x).roomTurn = s.roomTurn := rfl
@[simp] theorem State.setCell_kernels (c : Nat) (x : Cell) : (s.setCell c x).kernels = s.kernels := rfl
@[simp] theorem State.setCell_nextKern (c : Nat) (x : Cell) : (s.setCell c x).nextKern = s.nextKern := rfl
@[simp] theorem State.setCell_kepoch (c : Nat) (x : Cell) : (s.setCell c x).kepoch = s.kepoch := rfl
@[simp] theorem State.setCell_colls (c : Nat) (x : Cell) : (s.setCell c x).colls = s.colls := rfl
@[simp] theorem State.setCell_held (c : Nat) (x : Cell) : (s.setCell c x).held = s.held := rfl
@[simp] theorem State.setCell_collSeq (c : Nat) (x : Cell) : (s.setCell c x).collSeq = s.collSeq := rfl
@[simp] theorem State.setCell_msix (c : Nat) (x : Cell) : (s.setCell c x).msix = s.msix := rfl
@[simp] theorem State.setCell_hif (c : Nat) (x : Cell) : (s.setCell c x).hif = s.hif := rfl
@[simp] theorem State.setCell_links (c : Nat) (x : Cell) : (s.setCell c x).links = s.links := rfl
@[simp] theorem State.setCell_remote (c : Nat) (x : Cell) : (s.setCell c x).remote = s.remote := rfl
@[simp] theorem State.setCell_nextTid (c : Nat) (x : Cell) : (s.setCell c x).nextTid = s.nextTid := rfl
@[simp] theorem State.setCell_gens (c : Nat) (x : Cell) : (s.setCell c x).gens = s.gens := rfl
@[simp] theorem State.setCell_badLines (c : Nat) (x : Cell) : (s.setCell c x).badLines = s.badLines := rfl
@[simp] theorem State.setCell_pairs (c : Nat) (x : Cell) : (s.setCell c x).pairs = s.pairs := rfl
@[simp] theorem State.setCell_arrived (c : Nat) (x : Cell) : (s.setCell c x).arrived = s.arrived := rfl
@[simp] theorem State.setCell_retrain (c : Nat) (x : Cell) : (s.setCell c x).retrain = s.retrain := rfl
@[simp] theorem State.setCell_rtts (c : Nat) (x : Cell) : (s.setCell c x).rtts = s.rtts := rfl
@[simp] theorem State.setCell_dumpDue (c : Nat) (x : Cell) : (s.setCell c x).dumpDue = s.dumpDue := rfl
@[simp] theorem State.setCell_flashDev (c : Nat) (x : Cell) : (s.setCell c x).flashDev = s.flashDev := rfl
@[simp] theorem State.setCell_later (c : Nat) (x : Cell) : (s.setCell c x).later = s.later := rfl
@[simp] theorem State.setCell_normRgn (c : Nat) (x : Cell) : (s.setCell c x).normRgn = s.normRgn := rfl
@[simp] theorem State.setCell_normScd (c : Nat) (x : Cell) : (s.setCell c x).normScd = s.normScd := rfl
@[simp] theorem State.setCell_slowAt (c : Nat) (x : Cell) : (s.setCell c x).slowAt = s.slowAt := rfl
@[simp] theorem State.setCell_tidHold (c : Nat) (x : Cell) : (s.setCell c x).tidHold = s.tidHold := rfl
@[simp] theorem State.setCell_plainTx (c : Nat) (x : Cell) : (s.setCell c x).plainTx = s.plainTx := rfl
@[simp] theorem State.setCell_hdrs (c : Nat) (x : Cell) : (s.setCell c x).hdrs = s.hdrs := rfl
@[simp] theorem State.setCell_time (c : Nat) (x : Cell) : (s.setCell c x).time = s.time := rfl
@[simp] theorem State.setCell_flash (c : Nat) (x : Cell) : (s.setCell c x).flash = s.flash := rfl
@[simp] theorem State.setCell_fuses (c : Nat) (x : Cell) : (s.setCell c x).fuses = s.fuses := rfl
@[simp] theorem State.setCell_usercal (c : Nat) (x : Cell) : (s.setCell c x).usercal = s.usercal := rfl
@[simp] theorem State.setCell_ports (c : Nat) (x : Cell) : (s.setCell c x).ports = s.ports := rfl
@[simp] theorem State.setCell_ftTimes (c : Nat) (x : Cell) : (s.setCell c x).ftTimes = s.ftTimes := rfl
@[simp] theorem State.setCell_devLoad (c : Nat) (x : Cell) : (s.setCell c x).devLoad = s.devLoad := rfl
@[simp] theorem State.setCell_sec (c : Nat) (x : Cell) : (s.setCell c x).sec = s.sec := rfl
@[simp] theorem State.setCell_pwr (c : Nat) (x : Cell) : (s.setCell c x).pwr = s.pwr := rfl
@[simp] theorem State.setCell_side (c : Nat) (x : Cell) : (s.setCell c x).side = s.side := rfl
@[simp] theorem State.setCell_tap (c : Nat) (x : Cell) : (s.setCell c x).tap = s.tap := rfl
@[simp] theorem State.setCell_dump (c : Nat) (x : Cell) : (s.setCell c x).dump = s.dump := rfl
@[simp] theorem State.setCell_refresh (c : Nat) (x : Cell) : (s.setCell c x).refresh = s.refresh := rfl
@[simp] theorem State.setCell_hotDies (c : Nat) (x : Cell) : (s.setCell c x).hotDies = s.hotDies := rfl
@[simp] theorem State.setCell_dieTemp (c : Nat) (x : Cell) : (s.setCell c x).dieTemp = s.dieTemp := rfl
@[simp] theorem State.setCell_patrolAt (c : Nat) (x : Cell) : (s.setCell c x).patrolAt = s.patrolAt := rfl
@[simp] theorem State.setCell_scrubAt (c : Nat) (x : Cell) : (s.setCell c x).scrubAt = s.scrubAt := rfl
@[simp] theorem State.setCell_patrolPer (c : Nat) (x : Cell) : (s.setCell c x).patrolPer = s.patrolPer := rfl
@[simp] theorem State.setCell_scrubPer (c : Nat) (x : Cell) : (s.setCell c x).scrubPer = s.scrubPer := rfl
@[simp] theorem State.setCell_drainAt (c : Nat) (x : Cell) : (s.setCell c x).drainAt = s.drainAt := rfl
@[simp] theorem State.setCell_siliOff (c : Nat) (x : Cell) : (s.setCell c x).siliOff = s.siliOff := rfl
@[simp] theorem State.setCell_trainAt (c : Nat) (x : Cell) : (s.setCell c x).trainAt = s.trainAt := rfl
@[simp] theorem State.setCell_slices (c : Nat) (x : Cell) : (s.setCell c x).slices = s.slices := rfl
@[simp] theorem State.setCell_energyRem (c : Nat) (x : Cell) : (s.setCell c x).energyRem = s.energyRem := rfl
@[simp] theorem State.setCell_used (c : Nat) (x : Cell) : (s.setCell c x).used = s.used := rfl

/-! ### modCell -/

@[simp] theorem State.modCell_pending (c : Nat) (g : Cell → Cell) : (s.modCell c g).pending = s.pending := rfl
@[simp] theorem State.modCell_free (c : Nat) (g : Cell → Cell) : (s.modCell c g).free = s.free := rfl
@[simp] theorem State.modCell_regs (c : Nat) (g : Cell → Cell) : (s.modCell c g).regs = s.regs := rfl
@[simp] theorem State.modCell_blocks (c : Nat) (g : Cell → Cell) : (s.modCell c g).blocks = s.blocks := rfl
@[simp] theorem State.modCell_mem (c : Nat) (g : Cell → Cell) : (s.modCell c g).mem = s.mem := rfl
@[simp] theorem State.modCell_check (c : Nat) (g : Cell → Cell) : (s.modCell c g).check = s.check := rfl
@[simp] theorem State.modCell_full (c : Nat) (g : Cell → Cell) : (s.modCell c g).full = s.full := rfl
@[simp] theorem State.modCell_hostMem (c : Nat) (g : Cell → Cell) : (s.modCell c g).hostMem = s.hostMem := rfl
@[simp] theorem State.modCell_loct (c : Nat) (g : Cell → Cell) : (s.modCell c g).loct = s.loct := rfl
@[simp] theorem State.modCell_lcache (c : Nat) (g : Cell → Cell) : (s.modCell c g).lcache = s.lcache := rfl
@[simp] theorem State.modCell_sampled (c : Nat) (g : Cell → Cell) : (s.modCell c g).sampled = s.sampled := rfl
@[simp] theorem State.modCell_migs (c : Nat) (g : Cell → Cell) : (s.modCell c g).migs = s.migs := rfl
@[simp] theorem State.modCell_unclean (c : Nat) (g : Cell → Cell) : (s.modCell c g).unclean = s.unclean := rfl
@[simp] theorem State.modCell_unslot (c : Nat) (g : Cell → Cell) : (s.modCell c g).unslot = s.unslot := rfl
@[simp] theorem State.modCell_promo (c : Nat) (g : Cell → Cell) : (s.modCell c g).promo = s.promo := rfl
@[simp] theorem State.modCell_roomOwed (c : Nat) (g : Cell → Cell) : (s.modCell c g).roomOwed = s.roomOwed := rfl
@[simp] theorem State.modCell_feLines (c : Nat) (g : Cell → Cell) : (s.modCell c g).feLines = s.feLines := rfl
@[simp] theorem State.modCell_ftBad (c : Nat) (g : Cell → Cell) : (s.modCell c g).ftBad = s.ftBad := rfl
@[simp] theorem State.modCell_farClear (c : Nat) (g : Cell → Cell) : (s.modCell c g).farClear = s.farClear := rfl
@[simp] theorem State.modCell_evac (c : Nat) (g : Cell → Cell) : (s.modCell c g).evac = s.evac := rfl
@[simp] theorem State.modCell_skip (c : Nat) (g : Cell → Cell) : (s.modCell c g).skip = s.skip := rfl
@[simp] theorem State.modCell_pinWait (c : Nat) (g : Cell → Cell) : (s.modCell c g).pinWait = s.pinWait := rfl
@[simp] theorem State.modCell_want (c : Nat) (g : Cell → Cell) : (s.modCell c g).want = s.want := rfl
@[simp] theorem State.modCell_demoting (c : Nat) (g : Cell → Cell) : (s.modCell c g).demoting = s.demoting := rfl
@[simp] theorem State.modCell_scds (c : Nat) (g : Cell → Cell) : (s.modCell c g).scds = s.scds := rfl
@[simp] theorem State.modCell_hostDirty (c : Nat) (g : Cell → Cell) : (s.modCell c g).hostDirty = s.hostDirty := rfl
@[simp] theorem State.modCell_resv (c : Nat) (g : Cell → Cell) : (s.modCell c g).resv = s.resv := rfl
@[simp] theorem State.modCell_waiters (c : Nat) (g : Cell → Cell) : (s.modCell c g).waiters = s.waiters := rfl
@[simp] theorem State.modCell_tiles (c : Nat) (g : Cell → Cell) : (s.modCell c g).tiles = s.tiles := rfl
@[simp] theorem State.modCell_tlbs (c : Nat) (g : Cell → Cell) : (s.modCell c g).tlbs = s.tlbs := rfl
@[simp] theorem State.modCell_walks (c : Nat) (g : Cell → Cell) : (s.modCell c g).walks = s.walks := rfl
@[simp] theorem State.modCell_queues (c : Nat) (g : Cell → Cell) : (s.modCell c g).queues = s.queues := rfl
@[simp] theorem State.modCell_pool (c : Nat) (g : Cell → Cell) : (s.modCell c g).pool = s.pool := rfl
@[simp] theorem State.modCell_done (c : Nat) (g : Cell → Cell) : (s.modCell c g).done = s.done := rfl
@[simp] theorem State.modCell_fails (c : Nat) (g : Cell → Cell) : (s.modCell c g).fails = s.fails := rfl
@[simp] theorem State.modCell_acks (c : Nat) (g : Cell → Cell) : (s.modCell c g).acks = s.acks := rfl
@[simp] theorem State.modCell_copyEng (c : Nat) (g : Cell → Cell) : (s.modCell c g).copyEng = s.copyEng := rfl
@[simp] theorem State.modCell_lastQ (c : Nat) (g : Cell → Cell) : (s.modCell c g).lastQ = s.lastQ := rfl
@[simp] theorem State.modCell_roomTurn (c : Nat) (g : Cell → Cell) : (s.modCell c g).roomTurn = s.roomTurn := rfl
@[simp] theorem State.modCell_kernels (c : Nat) (g : Cell → Cell) : (s.modCell c g).kernels = s.kernels := rfl
@[simp] theorem State.modCell_nextKern (c : Nat) (g : Cell → Cell) : (s.modCell c g).nextKern = s.nextKern := rfl
@[simp] theorem State.modCell_kepoch (c : Nat) (g : Cell → Cell) : (s.modCell c g).kepoch = s.kepoch := rfl
@[simp] theorem State.modCell_colls (c : Nat) (g : Cell → Cell) : (s.modCell c g).colls = s.colls := rfl
@[simp] theorem State.modCell_held (c : Nat) (g : Cell → Cell) : (s.modCell c g).held = s.held := rfl
@[simp] theorem State.modCell_collSeq (c : Nat) (g : Cell → Cell) : (s.modCell c g).collSeq = s.collSeq := rfl
@[simp] theorem State.modCell_msix (c : Nat) (g : Cell → Cell) : (s.modCell c g).msix = s.msix := rfl
@[simp] theorem State.modCell_hif (c : Nat) (g : Cell → Cell) : (s.modCell c g).hif = s.hif := rfl
@[simp] theorem State.modCell_links (c : Nat) (g : Cell → Cell) : (s.modCell c g).links = s.links := rfl
@[simp] theorem State.modCell_remote (c : Nat) (g : Cell → Cell) : (s.modCell c g).remote = s.remote := rfl
@[simp] theorem State.modCell_nextTid (c : Nat) (g : Cell → Cell) : (s.modCell c g).nextTid = s.nextTid := rfl
@[simp] theorem State.modCell_gens (c : Nat) (g : Cell → Cell) : (s.modCell c g).gens = s.gens := rfl
@[simp] theorem State.modCell_badLines (c : Nat) (g : Cell → Cell) : (s.modCell c g).badLines = s.badLines := rfl
@[simp] theorem State.modCell_pairs (c : Nat) (g : Cell → Cell) : (s.modCell c g).pairs = s.pairs := rfl
@[simp] theorem State.modCell_arrived (c : Nat) (g : Cell → Cell) : (s.modCell c g).arrived = s.arrived := rfl
@[simp] theorem State.modCell_retrain (c : Nat) (g : Cell → Cell) : (s.modCell c g).retrain = s.retrain := rfl
@[simp] theorem State.modCell_rtts (c : Nat) (g : Cell → Cell) : (s.modCell c g).rtts = s.rtts := rfl
@[simp] theorem State.modCell_dumpDue (c : Nat) (g : Cell → Cell) : (s.modCell c g).dumpDue = s.dumpDue := rfl
@[simp] theorem State.modCell_flashDev (c : Nat) (g : Cell → Cell) : (s.modCell c g).flashDev = s.flashDev := rfl
@[simp] theorem State.modCell_later (c : Nat) (g : Cell → Cell) : (s.modCell c g).later = s.later := rfl
@[simp] theorem State.modCell_normRgn (c : Nat) (g : Cell → Cell) : (s.modCell c g).normRgn = s.normRgn := rfl
@[simp] theorem State.modCell_normScd (c : Nat) (g : Cell → Cell) : (s.modCell c g).normScd = s.normScd := rfl
@[simp] theorem State.modCell_slowAt (c : Nat) (g : Cell → Cell) : (s.modCell c g).slowAt = s.slowAt := rfl
@[simp] theorem State.modCell_tidHold (c : Nat) (g : Cell → Cell) : (s.modCell c g).tidHold = s.tidHold := rfl
@[simp] theorem State.modCell_plainTx (c : Nat) (g : Cell → Cell) : (s.modCell c g).plainTx = s.plainTx := rfl
@[simp] theorem State.modCell_hdrs (c : Nat) (g : Cell → Cell) : (s.modCell c g).hdrs = s.hdrs := rfl
@[simp] theorem State.modCell_time (c : Nat) (g : Cell → Cell) : (s.modCell c g).time = s.time := rfl
@[simp] theorem State.modCell_flash (c : Nat) (g : Cell → Cell) : (s.modCell c g).flash = s.flash := rfl
@[simp] theorem State.modCell_fuses (c : Nat) (g : Cell → Cell) : (s.modCell c g).fuses = s.fuses := rfl
@[simp] theorem State.modCell_usercal (c : Nat) (g : Cell → Cell) : (s.modCell c g).usercal = s.usercal := rfl
@[simp] theorem State.modCell_ports (c : Nat) (g : Cell → Cell) : (s.modCell c g).ports = s.ports := rfl
@[simp] theorem State.modCell_ftTimes (c : Nat) (g : Cell → Cell) : (s.modCell c g).ftTimes = s.ftTimes := rfl
@[simp] theorem State.modCell_devLoad (c : Nat) (g : Cell → Cell) : (s.modCell c g).devLoad = s.devLoad := rfl
@[simp] theorem State.modCell_sec (c : Nat) (g : Cell → Cell) : (s.modCell c g).sec = s.sec := rfl
@[simp] theorem State.modCell_pwr (c : Nat) (g : Cell → Cell) : (s.modCell c g).pwr = s.pwr := rfl
@[simp] theorem State.modCell_side (c : Nat) (g : Cell → Cell) : (s.modCell c g).side = s.side := rfl
@[simp] theorem State.modCell_tap (c : Nat) (g : Cell → Cell) : (s.modCell c g).tap = s.tap := rfl
@[simp] theorem State.modCell_dump (c : Nat) (g : Cell → Cell) : (s.modCell c g).dump = s.dump := rfl
@[simp] theorem State.modCell_refresh (c : Nat) (g : Cell → Cell) : (s.modCell c g).refresh = s.refresh := rfl
@[simp] theorem State.modCell_hotDies (c : Nat) (g : Cell → Cell) : (s.modCell c g).hotDies = s.hotDies := rfl
@[simp] theorem State.modCell_dieTemp (c : Nat) (g : Cell → Cell) : (s.modCell c g).dieTemp = s.dieTemp := rfl
@[simp] theorem State.modCell_patrolAt (c : Nat) (g : Cell → Cell) : (s.modCell c g).patrolAt = s.patrolAt := rfl
@[simp] theorem State.modCell_scrubAt (c : Nat) (g : Cell → Cell) : (s.modCell c g).scrubAt = s.scrubAt := rfl
@[simp] theorem State.modCell_patrolPer (c : Nat) (g : Cell → Cell) : (s.modCell c g).patrolPer = s.patrolPer := rfl
@[simp] theorem State.modCell_scrubPer (c : Nat) (g : Cell → Cell) : (s.modCell c g).scrubPer = s.scrubPer := rfl
@[simp] theorem State.modCell_drainAt (c : Nat) (g : Cell → Cell) : (s.modCell c g).drainAt = s.drainAt := rfl
@[simp] theorem State.modCell_siliOff (c : Nat) (g : Cell → Cell) : (s.modCell c g).siliOff = s.siliOff := rfl
@[simp] theorem State.modCell_trainAt (c : Nat) (g : Cell → Cell) : (s.modCell c g).trainAt = s.trainAt := rfl
@[simp] theorem State.modCell_slices (c : Nat) (g : Cell → Cell) : (s.modCell c g).slices = s.slices := rfl
@[simp] theorem State.modCell_energyRem (c : Nat) (g : Cell → Cell) : (s.modCell c g).energyRem = s.energyRem := rfl
@[simp] theorem State.modCell_used (c : Nat) (g : Cell → Cell) : (s.modCell c g).used = s.used := rfl

/-! ### setGroup -/

@[simp] theorem State.setGroup_pending (c slot : Nat) (g : Group) : (s.setGroup c slot g).pending = s.pending := rfl
@[simp] theorem State.setGroup_free (c slot : Nat) (g : Group) : (s.setGroup c slot g).free = s.free := rfl
@[simp] theorem State.setGroup_regs (c slot : Nat) (g : Group) : (s.setGroup c slot g).regs = s.regs := rfl
@[simp] theorem State.setGroup_blocks (c slot : Nat) (g : Group) : (s.setGroup c slot g).blocks = s.blocks := rfl
@[simp] theorem State.setGroup_mem (c slot : Nat) (g : Group) : (s.setGroup c slot g).mem = s.mem := rfl
@[simp] theorem State.setGroup_check (c slot : Nat) (g : Group) : (s.setGroup c slot g).check = s.check := rfl
@[simp] theorem State.setGroup_full (c slot : Nat) (g : Group) : (s.setGroup c slot g).full = s.full := rfl
@[simp] theorem State.setGroup_hostMem (c slot : Nat) (g : Group) : (s.setGroup c slot g).hostMem = s.hostMem := rfl
@[simp] theorem State.setGroup_loct (c slot : Nat) (g : Group) : (s.setGroup c slot g).loct = s.loct := rfl
@[simp] theorem State.setGroup_lcache (c slot : Nat) (g : Group) : (s.setGroup c slot g).lcache = s.lcache := rfl
@[simp] theorem State.setGroup_sampled (c slot : Nat) (g : Group) : (s.setGroup c slot g).sampled = s.sampled := rfl
@[simp] theorem State.setGroup_migs (c slot : Nat) (g : Group) : (s.setGroup c slot g).migs = s.migs := rfl
@[simp] theorem State.setGroup_unclean (c slot : Nat) (g : Group) : (s.setGroup c slot g).unclean = s.unclean := rfl
@[simp] theorem State.setGroup_unslot (c slot : Nat) (g : Group) : (s.setGroup c slot g).unslot = s.unslot := rfl
@[simp] theorem State.setGroup_promo (c slot : Nat) (g : Group) : (s.setGroup c slot g).promo = s.promo := rfl
@[simp] theorem State.setGroup_roomOwed (c slot : Nat) (g : Group) : (s.setGroup c slot g).roomOwed = s.roomOwed := rfl
@[simp] theorem State.setGroup_feLines (c slot : Nat) (g : Group) : (s.setGroup c slot g).feLines = s.feLines := rfl
@[simp] theorem State.setGroup_ftBad (c slot : Nat) (g : Group) : (s.setGroup c slot g).ftBad = s.ftBad := rfl
@[simp] theorem State.setGroup_farClear (c slot : Nat) (g : Group) : (s.setGroup c slot g).farClear = s.farClear := rfl
@[simp] theorem State.setGroup_evac (c slot : Nat) (g : Group) : (s.setGroup c slot g).evac = s.evac := rfl
@[simp] theorem State.setGroup_skip (c slot : Nat) (g : Group) : (s.setGroup c slot g).skip = s.skip := rfl
@[simp] theorem State.setGroup_pinWait (c slot : Nat) (g : Group) : (s.setGroup c slot g).pinWait = s.pinWait := rfl
@[simp] theorem State.setGroup_want (c slot : Nat) (g : Group) : (s.setGroup c slot g).want = s.want := rfl
@[simp] theorem State.setGroup_demoting (c slot : Nat) (g : Group) : (s.setGroup c slot g).demoting = s.demoting := rfl
@[simp] theorem State.setGroup_scds (c slot : Nat) (g : Group) : (s.setGroup c slot g).scds = s.scds := rfl
@[simp] theorem State.setGroup_hostDirty (c slot : Nat) (g : Group) : (s.setGroup c slot g).hostDirty = s.hostDirty := rfl
@[simp] theorem State.setGroup_resv (c slot : Nat) (g : Group) : (s.setGroup c slot g).resv = s.resv := rfl
@[simp] theorem State.setGroup_waiters (c slot : Nat) (g : Group) : (s.setGroup c slot g).waiters = s.waiters := rfl
@[simp] theorem State.setGroup_tiles (c slot : Nat) (g : Group) : (s.setGroup c slot g).tiles = s.tiles := rfl
@[simp] theorem State.setGroup_tlbs (c slot : Nat) (g : Group) : (s.setGroup c slot g).tlbs = s.tlbs := rfl
@[simp] theorem State.setGroup_walks (c slot : Nat) (g : Group) : (s.setGroup c slot g).walks = s.walks := rfl
@[simp] theorem State.setGroup_queues (c slot : Nat) (g : Group) : (s.setGroup c slot g).queues = s.queues := rfl
@[simp] theorem State.setGroup_pool (c slot : Nat) (g : Group) : (s.setGroup c slot g).pool = s.pool := rfl
@[simp] theorem State.setGroup_done (c slot : Nat) (g : Group) : (s.setGroup c slot g).done = s.done := rfl
@[simp] theorem State.setGroup_fails (c slot : Nat) (g : Group) : (s.setGroup c slot g).fails = s.fails := rfl
@[simp] theorem State.setGroup_acks (c slot : Nat) (g : Group) : (s.setGroup c slot g).acks = s.acks := rfl
@[simp] theorem State.setGroup_copyEng (c slot : Nat) (g : Group) : (s.setGroup c slot g).copyEng = s.copyEng := rfl
@[simp] theorem State.setGroup_lastQ (c slot : Nat) (g : Group) : (s.setGroup c slot g).lastQ = s.lastQ := rfl
@[simp] theorem State.setGroup_roomTurn (c slot : Nat) (g : Group) : (s.setGroup c slot g).roomTurn = s.roomTurn := rfl
@[simp] theorem State.setGroup_kernels (c slot : Nat) (g : Group) : (s.setGroup c slot g).kernels = s.kernels := rfl
@[simp] theorem State.setGroup_nextKern (c slot : Nat) (g : Group) : (s.setGroup c slot g).nextKern = s.nextKern := rfl
@[simp] theorem State.setGroup_kepoch (c slot : Nat) (g : Group) : (s.setGroup c slot g).kepoch = s.kepoch := rfl
@[simp] theorem State.setGroup_colls (c slot : Nat) (g : Group) : (s.setGroup c slot g).colls = s.colls := rfl
@[simp] theorem State.setGroup_held (c slot : Nat) (g : Group) : (s.setGroup c slot g).held = s.held := rfl
@[simp] theorem State.setGroup_collSeq (c slot : Nat) (g : Group) : (s.setGroup c slot g).collSeq = s.collSeq := rfl
@[simp] theorem State.setGroup_msix (c slot : Nat) (g : Group) : (s.setGroup c slot g).msix = s.msix := rfl
@[simp] theorem State.setGroup_hif (c slot : Nat) (g : Group) : (s.setGroup c slot g).hif = s.hif := rfl
@[simp] theorem State.setGroup_links (c slot : Nat) (g : Group) : (s.setGroup c slot g).links = s.links := rfl
@[simp] theorem State.setGroup_remote (c slot : Nat) (g : Group) : (s.setGroup c slot g).remote = s.remote := rfl
@[simp] theorem State.setGroup_nextTid (c slot : Nat) (g : Group) : (s.setGroup c slot g).nextTid = s.nextTid := rfl
@[simp] theorem State.setGroup_gens (c slot : Nat) (g : Group) : (s.setGroup c slot g).gens = s.gens := rfl
@[simp] theorem State.setGroup_badLines (c slot : Nat) (g : Group) : (s.setGroup c slot g).badLines = s.badLines := rfl
@[simp] theorem State.setGroup_pairs (c slot : Nat) (g : Group) : (s.setGroup c slot g).pairs = s.pairs := rfl
@[simp] theorem State.setGroup_arrived (c slot : Nat) (g : Group) : (s.setGroup c slot g).arrived = s.arrived := rfl
@[simp] theorem State.setGroup_retrain (c slot : Nat) (g : Group) : (s.setGroup c slot g).retrain = s.retrain := rfl
@[simp] theorem State.setGroup_rtts (c slot : Nat) (g : Group) : (s.setGroup c slot g).rtts = s.rtts := rfl
@[simp] theorem State.setGroup_dumpDue (c slot : Nat) (g : Group) : (s.setGroup c slot g).dumpDue = s.dumpDue := rfl
@[simp] theorem State.setGroup_flashDev (c slot : Nat) (g : Group) : (s.setGroup c slot g).flashDev = s.flashDev := rfl
@[simp] theorem State.setGroup_later (c slot : Nat) (g : Group) : (s.setGroup c slot g).later = s.later := rfl
@[simp] theorem State.setGroup_normRgn (c slot : Nat) (g : Group) : (s.setGroup c slot g).normRgn = s.normRgn := rfl
@[simp] theorem State.setGroup_normScd (c slot : Nat) (g : Group) : (s.setGroup c slot g).normScd = s.normScd := rfl
@[simp] theorem State.setGroup_slowAt (c slot : Nat) (g : Group) : (s.setGroup c slot g).slowAt = s.slowAt := rfl
@[simp] theorem State.setGroup_tidHold (c slot : Nat) (g : Group) : (s.setGroup c slot g).tidHold = s.tidHold := rfl
@[simp] theorem State.setGroup_plainTx (c slot : Nat) (g : Group) : (s.setGroup c slot g).plainTx = s.plainTx := rfl
@[simp] theorem State.setGroup_hdrs (c slot : Nat) (g : Group) : (s.setGroup c slot g).hdrs = s.hdrs := rfl
@[simp] theorem State.setGroup_time (c slot : Nat) (g : Group) : (s.setGroup c slot g).time = s.time := rfl
@[simp] theorem State.setGroup_flash (c slot : Nat) (g : Group) : (s.setGroup c slot g).flash = s.flash := rfl
@[simp] theorem State.setGroup_fuses (c slot : Nat) (g : Group) : (s.setGroup c slot g).fuses = s.fuses := rfl
@[simp] theorem State.setGroup_usercal (c slot : Nat) (g : Group) : (s.setGroup c slot g).usercal = s.usercal := rfl
@[simp] theorem State.setGroup_ports (c slot : Nat) (g : Group) : (s.setGroup c slot g).ports = s.ports := rfl
@[simp] theorem State.setGroup_ftTimes (c slot : Nat) (g : Group) : (s.setGroup c slot g).ftTimes = s.ftTimes := rfl
@[simp] theorem State.setGroup_devLoad (c slot : Nat) (g : Group) : (s.setGroup c slot g).devLoad = s.devLoad := rfl
@[simp] theorem State.setGroup_sec (c slot : Nat) (g : Group) : (s.setGroup c slot g).sec = s.sec := rfl
@[simp] theorem State.setGroup_pwr (c slot : Nat) (g : Group) : (s.setGroup c slot g).pwr = s.pwr := rfl
@[simp] theorem State.setGroup_side (c slot : Nat) (g : Group) : (s.setGroup c slot g).side = s.side := rfl
@[simp] theorem State.setGroup_tap (c slot : Nat) (g : Group) : (s.setGroup c slot g).tap = s.tap := rfl
@[simp] theorem State.setGroup_dump (c slot : Nat) (g : Group) : (s.setGroup c slot g).dump = s.dump := rfl
@[simp] theorem State.setGroup_refresh (c slot : Nat) (g : Group) : (s.setGroup c slot g).refresh = s.refresh := rfl
@[simp] theorem State.setGroup_hotDies (c slot : Nat) (g : Group) : (s.setGroup c slot g).hotDies = s.hotDies := rfl
@[simp] theorem State.setGroup_dieTemp (c slot : Nat) (g : Group) : (s.setGroup c slot g).dieTemp = s.dieTemp := rfl
@[simp] theorem State.setGroup_patrolAt (c slot : Nat) (g : Group) : (s.setGroup c slot g).patrolAt = s.patrolAt := rfl
@[simp] theorem State.setGroup_scrubAt (c slot : Nat) (g : Group) : (s.setGroup c slot g).scrubAt = s.scrubAt := rfl
@[simp] theorem State.setGroup_patrolPer (c slot : Nat) (g : Group) : (s.setGroup c slot g).patrolPer = s.patrolPer := rfl
@[simp] theorem State.setGroup_scrubPer (c slot : Nat) (g : Group) : (s.setGroup c slot g).scrubPer = s.scrubPer := rfl
@[simp] theorem State.setGroup_drainAt (c slot : Nat) (g : Group) : (s.setGroup c slot g).drainAt = s.drainAt := rfl
@[simp] theorem State.setGroup_siliOff (c slot : Nat) (g : Group) : (s.setGroup c slot g).siliOff = s.siliOff := rfl
@[simp] theorem State.setGroup_trainAt (c slot : Nat) (g : Group) : (s.setGroup c slot g).trainAt = s.trainAt := rfl
@[simp] theorem State.setGroup_slices (c slot : Nat) (g : Group) : (s.setGroup c slot g).slices = s.slices := rfl
@[simp] theorem State.setGroup_energyRem (c slot : Nat) (g : Group) : (s.setGroup c slot g).energyRem = s.energyRem := rfl
@[simp] theorem State.setGroup_used (c slot : Nat) (g : Group) : (s.setGroup c slot g).used = s.used := rfl

/-! ### setBlock -/

@[simp] theorem State.setBlock_pending (b : Nat) (x : Block) : (s.setBlock b x).pending = s.pending := rfl
@[simp] theorem State.setBlock_free (b : Nat) (x : Block) : (s.setBlock b x).free = s.free := rfl
@[simp] theorem State.setBlock_regs (b : Nat) (x : Block) : (s.setBlock b x).regs = s.regs := rfl
@[simp] theorem State.setBlock_cells (b : Nat) (x : Block) : (s.setBlock b x).cells = s.cells := rfl
@[simp] theorem State.setBlock_mem (b : Nat) (x : Block) : (s.setBlock b x).mem = s.mem := rfl
@[simp] theorem State.setBlock_check (b : Nat) (x : Block) : (s.setBlock b x).check = s.check := rfl
@[simp] theorem State.setBlock_full (b : Nat) (x : Block) : (s.setBlock b x).full = s.full := rfl
@[simp] theorem State.setBlock_hostMem (b : Nat) (x : Block) : (s.setBlock b x).hostMem = s.hostMem := rfl
@[simp] theorem State.setBlock_loct (b : Nat) (x : Block) : (s.setBlock b x).loct = s.loct := rfl
@[simp] theorem State.setBlock_lcache (b : Nat) (x : Block) : (s.setBlock b x).lcache = s.lcache := rfl
@[simp] theorem State.setBlock_sampled (b : Nat) (x : Block) : (s.setBlock b x).sampled = s.sampled := rfl
@[simp] theorem State.setBlock_migs (b : Nat) (x : Block) : (s.setBlock b x).migs = s.migs := rfl
@[simp] theorem State.setBlock_unclean (b : Nat) (x : Block) : (s.setBlock b x).unclean = s.unclean := rfl
@[simp] theorem State.setBlock_unslot (b : Nat) (x : Block) : (s.setBlock b x).unslot = s.unslot := rfl
@[simp] theorem State.setBlock_promo (b : Nat) (x : Block) : (s.setBlock b x).promo = s.promo := rfl
@[simp] theorem State.setBlock_roomOwed (b : Nat) (x : Block) : (s.setBlock b x).roomOwed = s.roomOwed := rfl
@[simp] theorem State.setBlock_feLines (b : Nat) (x : Block) : (s.setBlock b x).feLines = s.feLines := rfl
@[simp] theorem State.setBlock_ftBad (b : Nat) (x : Block) : (s.setBlock b x).ftBad = s.ftBad := rfl
@[simp] theorem State.setBlock_farClear (b : Nat) (x : Block) : (s.setBlock b x).farClear = s.farClear := rfl
@[simp] theorem State.setBlock_evac (b : Nat) (x : Block) : (s.setBlock b x).evac = s.evac := rfl
@[simp] theorem State.setBlock_skip (b : Nat) (x : Block) : (s.setBlock b x).skip = s.skip := rfl
@[simp] theorem State.setBlock_pinWait (b : Nat) (x : Block) : (s.setBlock b x).pinWait = s.pinWait := rfl
@[simp] theorem State.setBlock_want (b : Nat) (x : Block) : (s.setBlock b x).want = s.want := rfl
@[simp] theorem State.setBlock_demoting (b : Nat) (x : Block) : (s.setBlock b x).demoting = s.demoting := rfl
@[simp] theorem State.setBlock_scds (b : Nat) (x : Block) : (s.setBlock b x).scds = s.scds := rfl
@[simp] theorem State.setBlock_hostDirty (b : Nat) (x : Block) : (s.setBlock b x).hostDirty = s.hostDirty := rfl
@[simp] theorem State.setBlock_resv (b : Nat) (x : Block) : (s.setBlock b x).resv = s.resv := rfl
@[simp] theorem State.setBlock_waiters (b : Nat) (x : Block) : (s.setBlock b x).waiters = s.waiters := rfl
@[simp] theorem State.setBlock_tiles (b : Nat) (x : Block) : (s.setBlock b x).tiles = s.tiles := rfl
@[simp] theorem State.setBlock_tlbs (b : Nat) (x : Block) : (s.setBlock b x).tlbs = s.tlbs := rfl
@[simp] theorem State.setBlock_walks (b : Nat) (x : Block) : (s.setBlock b x).walks = s.walks := rfl
@[simp] theorem State.setBlock_queues (b : Nat) (x : Block) : (s.setBlock b x).queues = s.queues := rfl
@[simp] theorem State.setBlock_pool (b : Nat) (x : Block) : (s.setBlock b x).pool = s.pool := rfl
@[simp] theorem State.setBlock_done (b : Nat) (x : Block) : (s.setBlock b x).done = s.done := rfl
@[simp] theorem State.setBlock_fails (b : Nat) (x : Block) : (s.setBlock b x).fails = s.fails := rfl
@[simp] theorem State.setBlock_acks (b : Nat) (x : Block) : (s.setBlock b x).acks = s.acks := rfl
@[simp] theorem State.setBlock_copyEng (b : Nat) (x : Block) : (s.setBlock b x).copyEng = s.copyEng := rfl
@[simp] theorem State.setBlock_lastQ (b : Nat) (x : Block) : (s.setBlock b x).lastQ = s.lastQ := rfl
@[simp] theorem State.setBlock_roomTurn (b : Nat) (x : Block) : (s.setBlock b x).roomTurn = s.roomTurn := rfl
@[simp] theorem State.setBlock_kernels (b : Nat) (x : Block) : (s.setBlock b x).kernels = s.kernels := rfl
@[simp] theorem State.setBlock_nextKern (b : Nat) (x : Block) : (s.setBlock b x).nextKern = s.nextKern := rfl
@[simp] theorem State.setBlock_kepoch (b : Nat) (x : Block) : (s.setBlock b x).kepoch = s.kepoch := rfl
@[simp] theorem State.setBlock_colls (b : Nat) (x : Block) : (s.setBlock b x).colls = s.colls := rfl
@[simp] theorem State.setBlock_held (b : Nat) (x : Block) : (s.setBlock b x).held = s.held := rfl
@[simp] theorem State.setBlock_collSeq (b : Nat) (x : Block) : (s.setBlock b x).collSeq = s.collSeq := rfl
@[simp] theorem State.setBlock_msix (b : Nat) (x : Block) : (s.setBlock b x).msix = s.msix := rfl
@[simp] theorem State.setBlock_hif (b : Nat) (x : Block) : (s.setBlock b x).hif = s.hif := rfl
@[simp] theorem State.setBlock_links (b : Nat) (x : Block) : (s.setBlock b x).links = s.links := rfl
@[simp] theorem State.setBlock_remote (b : Nat) (x : Block) : (s.setBlock b x).remote = s.remote := rfl
@[simp] theorem State.setBlock_nextTid (b : Nat) (x : Block) : (s.setBlock b x).nextTid = s.nextTid := rfl
@[simp] theorem State.setBlock_gens (b : Nat) (x : Block) : (s.setBlock b x).gens = s.gens := rfl
@[simp] theorem State.setBlock_badLines (b : Nat) (x : Block) : (s.setBlock b x).badLines = s.badLines := rfl
@[simp] theorem State.setBlock_pairs (b : Nat) (x : Block) : (s.setBlock b x).pairs = s.pairs := rfl
@[simp] theorem State.setBlock_arrived (b : Nat) (x : Block) : (s.setBlock b x).arrived = s.arrived := rfl
@[simp] theorem State.setBlock_retrain (b : Nat) (x : Block) : (s.setBlock b x).retrain = s.retrain := rfl
@[simp] theorem State.setBlock_rtts (b : Nat) (x : Block) : (s.setBlock b x).rtts = s.rtts := rfl
@[simp] theorem State.setBlock_dumpDue (b : Nat) (x : Block) : (s.setBlock b x).dumpDue = s.dumpDue := rfl
@[simp] theorem State.setBlock_flashDev (b : Nat) (x : Block) : (s.setBlock b x).flashDev = s.flashDev := rfl
@[simp] theorem State.setBlock_later (b : Nat) (x : Block) : (s.setBlock b x).later = s.later := rfl
@[simp] theorem State.setBlock_normRgn (b : Nat) (x : Block) : (s.setBlock b x).normRgn = s.normRgn := rfl
@[simp] theorem State.setBlock_normScd (b : Nat) (x : Block) : (s.setBlock b x).normScd = s.normScd := rfl
@[simp] theorem State.setBlock_slowAt (b : Nat) (x : Block) : (s.setBlock b x).slowAt = s.slowAt := rfl
@[simp] theorem State.setBlock_tidHold (b : Nat) (x : Block) : (s.setBlock b x).tidHold = s.tidHold := rfl
@[simp] theorem State.setBlock_plainTx (b : Nat) (x : Block) : (s.setBlock b x).plainTx = s.plainTx := rfl
@[simp] theorem State.setBlock_hdrs (b : Nat) (x : Block) : (s.setBlock b x).hdrs = s.hdrs := rfl
@[simp] theorem State.setBlock_time (b : Nat) (x : Block) : (s.setBlock b x).time = s.time := rfl
@[simp] theorem State.setBlock_flash (b : Nat) (x : Block) : (s.setBlock b x).flash = s.flash := rfl
@[simp] theorem State.setBlock_fuses (b : Nat) (x : Block) : (s.setBlock b x).fuses = s.fuses := rfl
@[simp] theorem State.setBlock_usercal (b : Nat) (x : Block) : (s.setBlock b x).usercal = s.usercal := rfl
@[simp] theorem State.setBlock_ports (b : Nat) (x : Block) : (s.setBlock b x).ports = s.ports := rfl
@[simp] theorem State.setBlock_ftTimes (b : Nat) (x : Block) : (s.setBlock b x).ftTimes = s.ftTimes := rfl
@[simp] theorem State.setBlock_devLoad (b : Nat) (x : Block) : (s.setBlock b x).devLoad = s.devLoad := rfl
@[simp] theorem State.setBlock_sec (b : Nat) (x : Block) : (s.setBlock b x).sec = s.sec := rfl
@[simp] theorem State.setBlock_pwr (b : Nat) (x : Block) : (s.setBlock b x).pwr = s.pwr := rfl
@[simp] theorem State.setBlock_side (b : Nat) (x : Block) : (s.setBlock b x).side = s.side := rfl
@[simp] theorem State.setBlock_tap (b : Nat) (x : Block) : (s.setBlock b x).tap = s.tap := rfl
@[simp] theorem State.setBlock_dump (b : Nat) (x : Block) : (s.setBlock b x).dump = s.dump := rfl
@[simp] theorem State.setBlock_refresh (b : Nat) (x : Block) : (s.setBlock b x).refresh = s.refresh := rfl
@[simp] theorem State.setBlock_hotDies (b : Nat) (x : Block) : (s.setBlock b x).hotDies = s.hotDies := rfl
@[simp] theorem State.setBlock_dieTemp (b : Nat) (x : Block) : (s.setBlock b x).dieTemp = s.dieTemp := rfl
@[simp] theorem State.setBlock_patrolAt (b : Nat) (x : Block) : (s.setBlock b x).patrolAt = s.patrolAt := rfl
@[simp] theorem State.setBlock_scrubAt (b : Nat) (x : Block) : (s.setBlock b x).scrubAt = s.scrubAt := rfl
@[simp] theorem State.setBlock_patrolPer (b : Nat) (x : Block) : (s.setBlock b x).patrolPer = s.patrolPer := rfl
@[simp] theorem State.setBlock_scrubPer (b : Nat) (x : Block) : (s.setBlock b x).scrubPer = s.scrubPer := rfl
@[simp] theorem State.setBlock_drainAt (b : Nat) (x : Block) : (s.setBlock b x).drainAt = s.drainAt := rfl
@[simp] theorem State.setBlock_siliOff (b : Nat) (x : Block) : (s.setBlock b x).siliOff = s.siliOff := rfl
@[simp] theorem State.setBlock_trainAt (b : Nat) (x : Block) : (s.setBlock b x).trainAt = s.trainAt := rfl
@[simp] theorem State.setBlock_slices (b : Nat) (x : Block) : (s.setBlock b x).slices = s.slices := rfl
@[simp] theorem State.setBlock_energyRem (b : Nat) (x : Block) : (s.setBlock b x).energyRem = s.energyRem := rfl
@[simp] theorem State.setBlock_used (b : Nat) (x : Block) : (s.setBlock b x).used = s.used := rfl

/-! ### modBlock -/

@[simp] theorem State.modBlock_pending (b : Nat) (g : Block → Block) : (s.modBlock b g).pending = s.pending := rfl
@[simp] theorem State.modBlock_free (b : Nat) (g : Block → Block) : (s.modBlock b g).free = s.free := rfl
@[simp] theorem State.modBlock_regs (b : Nat) (g : Block → Block) : (s.modBlock b g).regs = s.regs := rfl
@[simp] theorem State.modBlock_cells (b : Nat) (g : Block → Block) : (s.modBlock b g).cells = s.cells := rfl
@[simp] theorem State.modBlock_mem (b : Nat) (g : Block → Block) : (s.modBlock b g).mem = s.mem := rfl
@[simp] theorem State.modBlock_check (b : Nat) (g : Block → Block) : (s.modBlock b g).check = s.check := rfl
@[simp] theorem State.modBlock_full (b : Nat) (g : Block → Block) : (s.modBlock b g).full = s.full := rfl
@[simp] theorem State.modBlock_hostMem (b : Nat) (g : Block → Block) : (s.modBlock b g).hostMem = s.hostMem := rfl
@[simp] theorem State.modBlock_loct (b : Nat) (g : Block → Block) : (s.modBlock b g).loct = s.loct := rfl
@[simp] theorem State.modBlock_lcache (b : Nat) (g : Block → Block) : (s.modBlock b g).lcache = s.lcache := rfl
@[simp] theorem State.modBlock_sampled (b : Nat) (g : Block → Block) : (s.modBlock b g).sampled = s.sampled := rfl
@[simp] theorem State.modBlock_migs (b : Nat) (g : Block → Block) : (s.modBlock b g).migs = s.migs := rfl
@[simp] theorem State.modBlock_unclean (b : Nat) (g : Block → Block) : (s.modBlock b g).unclean = s.unclean := rfl
@[simp] theorem State.modBlock_unslot (b : Nat) (g : Block → Block) : (s.modBlock b g).unslot = s.unslot := rfl
@[simp] theorem State.modBlock_promo (b : Nat) (g : Block → Block) : (s.modBlock b g).promo = s.promo := rfl
@[simp] theorem State.modBlock_roomOwed (b : Nat) (g : Block → Block) : (s.modBlock b g).roomOwed = s.roomOwed := rfl
@[simp] theorem State.modBlock_feLines (b : Nat) (g : Block → Block) : (s.modBlock b g).feLines = s.feLines := rfl
@[simp] theorem State.modBlock_ftBad (b : Nat) (g : Block → Block) : (s.modBlock b g).ftBad = s.ftBad := rfl
@[simp] theorem State.modBlock_farClear (b : Nat) (g : Block → Block) : (s.modBlock b g).farClear = s.farClear := rfl
@[simp] theorem State.modBlock_evac (b : Nat) (g : Block → Block) : (s.modBlock b g).evac = s.evac := rfl
@[simp] theorem State.modBlock_skip (b : Nat) (g : Block → Block) : (s.modBlock b g).skip = s.skip := rfl
@[simp] theorem State.modBlock_pinWait (b : Nat) (g : Block → Block) : (s.modBlock b g).pinWait = s.pinWait := rfl
@[simp] theorem State.modBlock_want (b : Nat) (g : Block → Block) : (s.modBlock b g).want = s.want := rfl
@[simp] theorem State.modBlock_demoting (b : Nat) (g : Block → Block) : (s.modBlock b g).demoting = s.demoting := rfl
@[simp] theorem State.modBlock_scds (b : Nat) (g : Block → Block) : (s.modBlock b g).scds = s.scds := rfl
@[simp] theorem State.modBlock_hostDirty (b : Nat) (g : Block → Block) : (s.modBlock b g).hostDirty = s.hostDirty := rfl
@[simp] theorem State.modBlock_resv (b : Nat) (g : Block → Block) : (s.modBlock b g).resv = s.resv := rfl
@[simp] theorem State.modBlock_waiters (b : Nat) (g : Block → Block) : (s.modBlock b g).waiters = s.waiters := rfl
@[simp] theorem State.modBlock_tiles (b : Nat) (g : Block → Block) : (s.modBlock b g).tiles = s.tiles := rfl
@[simp] theorem State.modBlock_tlbs (b : Nat) (g : Block → Block) : (s.modBlock b g).tlbs = s.tlbs := rfl
@[simp] theorem State.modBlock_walks (b : Nat) (g : Block → Block) : (s.modBlock b g).walks = s.walks := rfl
@[simp] theorem State.modBlock_queues (b : Nat) (g : Block → Block) : (s.modBlock b g).queues = s.queues := rfl
@[simp] theorem State.modBlock_pool (b : Nat) (g : Block → Block) : (s.modBlock b g).pool = s.pool := rfl
@[simp] theorem State.modBlock_done (b : Nat) (g : Block → Block) : (s.modBlock b g).done = s.done := rfl
@[simp] theorem State.modBlock_fails (b : Nat) (g : Block → Block) : (s.modBlock b g).fails = s.fails := rfl
@[simp] theorem State.modBlock_acks (b : Nat) (g : Block → Block) : (s.modBlock b g).acks = s.acks := rfl
@[simp] theorem State.modBlock_copyEng (b : Nat) (g : Block → Block) : (s.modBlock b g).copyEng = s.copyEng := rfl
@[simp] theorem State.modBlock_lastQ (b : Nat) (g : Block → Block) : (s.modBlock b g).lastQ = s.lastQ := rfl
@[simp] theorem State.modBlock_roomTurn (b : Nat) (g : Block → Block) : (s.modBlock b g).roomTurn = s.roomTurn := rfl
@[simp] theorem State.modBlock_kernels (b : Nat) (g : Block → Block) : (s.modBlock b g).kernels = s.kernels := rfl
@[simp] theorem State.modBlock_nextKern (b : Nat) (g : Block → Block) : (s.modBlock b g).nextKern = s.nextKern := rfl
@[simp] theorem State.modBlock_kepoch (b : Nat) (g : Block → Block) : (s.modBlock b g).kepoch = s.kepoch := rfl
@[simp] theorem State.modBlock_colls (b : Nat) (g : Block → Block) : (s.modBlock b g).colls = s.colls := rfl
@[simp] theorem State.modBlock_held (b : Nat) (g : Block → Block) : (s.modBlock b g).held = s.held := rfl
@[simp] theorem State.modBlock_collSeq (b : Nat) (g : Block → Block) : (s.modBlock b g).collSeq = s.collSeq := rfl
@[simp] theorem State.modBlock_msix (b : Nat) (g : Block → Block) : (s.modBlock b g).msix = s.msix := rfl
@[simp] theorem State.modBlock_hif (b : Nat) (g : Block → Block) : (s.modBlock b g).hif = s.hif := rfl
@[simp] theorem State.modBlock_links (b : Nat) (g : Block → Block) : (s.modBlock b g).links = s.links := rfl
@[simp] theorem State.modBlock_remote (b : Nat) (g : Block → Block) : (s.modBlock b g).remote = s.remote := rfl
@[simp] theorem State.modBlock_nextTid (b : Nat) (g : Block → Block) : (s.modBlock b g).nextTid = s.nextTid := rfl
@[simp] theorem State.modBlock_gens (b : Nat) (g : Block → Block) : (s.modBlock b g).gens = s.gens := rfl
@[simp] theorem State.modBlock_badLines (b : Nat) (g : Block → Block) : (s.modBlock b g).badLines = s.badLines := rfl
@[simp] theorem State.modBlock_pairs (b : Nat) (g : Block → Block) : (s.modBlock b g).pairs = s.pairs := rfl
@[simp] theorem State.modBlock_arrived (b : Nat) (g : Block → Block) : (s.modBlock b g).arrived = s.arrived := rfl
@[simp] theorem State.modBlock_retrain (b : Nat) (g : Block → Block) : (s.modBlock b g).retrain = s.retrain := rfl
@[simp] theorem State.modBlock_rtts (b : Nat) (g : Block → Block) : (s.modBlock b g).rtts = s.rtts := rfl
@[simp] theorem State.modBlock_dumpDue (b : Nat) (g : Block → Block) : (s.modBlock b g).dumpDue = s.dumpDue := rfl
@[simp] theorem State.modBlock_flashDev (b : Nat) (g : Block → Block) : (s.modBlock b g).flashDev = s.flashDev := rfl
@[simp] theorem State.modBlock_later (b : Nat) (g : Block → Block) : (s.modBlock b g).later = s.later := rfl
@[simp] theorem State.modBlock_normRgn (b : Nat) (g : Block → Block) : (s.modBlock b g).normRgn = s.normRgn := rfl
@[simp] theorem State.modBlock_normScd (b : Nat) (g : Block → Block) : (s.modBlock b g).normScd = s.normScd := rfl
@[simp] theorem State.modBlock_slowAt (b : Nat) (g : Block → Block) : (s.modBlock b g).slowAt = s.slowAt := rfl
@[simp] theorem State.modBlock_tidHold (b : Nat) (g : Block → Block) : (s.modBlock b g).tidHold = s.tidHold := rfl
@[simp] theorem State.modBlock_plainTx (b : Nat) (g : Block → Block) : (s.modBlock b g).plainTx = s.plainTx := rfl
@[simp] theorem State.modBlock_hdrs (b : Nat) (g : Block → Block) : (s.modBlock b g).hdrs = s.hdrs := rfl
@[simp] theorem State.modBlock_time (b : Nat) (g : Block → Block) : (s.modBlock b g).time = s.time := rfl
@[simp] theorem State.modBlock_flash (b : Nat) (g : Block → Block) : (s.modBlock b g).flash = s.flash := rfl
@[simp] theorem State.modBlock_fuses (b : Nat) (g : Block → Block) : (s.modBlock b g).fuses = s.fuses := rfl
@[simp] theorem State.modBlock_usercal (b : Nat) (g : Block → Block) : (s.modBlock b g).usercal = s.usercal := rfl
@[simp] theorem State.modBlock_ports (b : Nat) (g : Block → Block) : (s.modBlock b g).ports = s.ports := rfl
@[simp] theorem State.modBlock_ftTimes (b : Nat) (g : Block → Block) : (s.modBlock b g).ftTimes = s.ftTimes := rfl
@[simp] theorem State.modBlock_devLoad (b : Nat) (g : Block → Block) : (s.modBlock b g).devLoad = s.devLoad := rfl
@[simp] theorem State.modBlock_sec (b : Nat) (g : Block → Block) : (s.modBlock b g).sec = s.sec := rfl
@[simp] theorem State.modBlock_pwr (b : Nat) (g : Block → Block) : (s.modBlock b g).pwr = s.pwr := rfl
@[simp] theorem State.modBlock_side (b : Nat) (g : Block → Block) : (s.modBlock b g).side = s.side := rfl
@[simp] theorem State.modBlock_tap (b : Nat) (g : Block → Block) : (s.modBlock b g).tap = s.tap := rfl
@[simp] theorem State.modBlock_dump (b : Nat) (g : Block → Block) : (s.modBlock b g).dump = s.dump := rfl
@[simp] theorem State.modBlock_refresh (b : Nat) (g : Block → Block) : (s.modBlock b g).refresh = s.refresh := rfl
@[simp] theorem State.modBlock_hotDies (b : Nat) (g : Block → Block) : (s.modBlock b g).hotDies = s.hotDies := rfl
@[simp] theorem State.modBlock_dieTemp (b : Nat) (g : Block → Block) : (s.modBlock b g).dieTemp = s.dieTemp := rfl
@[simp] theorem State.modBlock_patrolAt (b : Nat) (g : Block → Block) : (s.modBlock b g).patrolAt = s.patrolAt := rfl
@[simp] theorem State.modBlock_scrubAt (b : Nat) (g : Block → Block) : (s.modBlock b g).scrubAt = s.scrubAt := rfl
@[simp] theorem State.modBlock_patrolPer (b : Nat) (g : Block → Block) : (s.modBlock b g).patrolPer = s.patrolPer := rfl
@[simp] theorem State.modBlock_scrubPer (b : Nat) (g : Block → Block) : (s.modBlock b g).scrubPer = s.scrubPer := rfl
@[simp] theorem State.modBlock_drainAt (b : Nat) (g : Block → Block) : (s.modBlock b g).drainAt = s.drainAt := rfl
@[simp] theorem State.modBlock_siliOff (b : Nat) (g : Block → Block) : (s.modBlock b g).siliOff = s.siliOff := rfl
@[simp] theorem State.modBlock_trainAt (b : Nat) (g : Block → Block) : (s.modBlock b g).trainAt = s.trainAt := rfl
@[simp] theorem State.modBlock_slices (b : Nat) (g : Block → Block) : (s.modBlock b g).slices = s.slices := rfl
@[simp] theorem State.modBlock_energyRem (b : Nat) (g : Block → Block) : (s.modBlock b g).energyRem = s.energyRem := rfl
@[simp] theorem State.modBlock_used (b : Nat) (g : Block → Block) : (s.modBlock b g).used = s.used := rfl

/-! ### drew -/

@[simp] theorem State.drew_pending (k : Nat) : (s.drew k).pending = s.pending := rfl
@[simp] theorem State.drew_regs (k : Nat) : (s.drew k).regs = s.regs := rfl
@[simp] theorem State.drew_cells (k : Nat) : (s.drew k).cells = s.cells := rfl
@[simp] theorem State.drew_blocks (k : Nat) : (s.drew k).blocks = s.blocks := rfl
@[simp] theorem State.drew_mem (k : Nat) : (s.drew k).mem = s.mem := rfl
@[simp] theorem State.drew_check (k : Nat) : (s.drew k).check = s.check := rfl
@[simp] theorem State.drew_full (k : Nat) : (s.drew k).full = s.full := rfl
@[simp] theorem State.drew_hostMem (k : Nat) : (s.drew k).hostMem = s.hostMem := rfl
@[simp] theorem State.drew_loct (k : Nat) : (s.drew k).loct = s.loct := rfl
@[simp] theorem State.drew_lcache (k : Nat) : (s.drew k).lcache = s.lcache := rfl
@[simp] theorem State.drew_sampled (k : Nat) : (s.drew k).sampled = s.sampled := rfl
@[simp] theorem State.drew_migs (k : Nat) : (s.drew k).migs = s.migs := rfl
@[simp] theorem State.drew_unclean (k : Nat) : (s.drew k).unclean = s.unclean := rfl
@[simp] theorem State.drew_unslot (k : Nat) : (s.drew k).unslot = s.unslot := rfl
@[simp] theorem State.drew_promo (k : Nat) : (s.drew k).promo = s.promo := rfl
@[simp] theorem State.drew_roomOwed (k : Nat) : (s.drew k).roomOwed = s.roomOwed := rfl
@[simp] theorem State.drew_feLines (k : Nat) : (s.drew k).feLines = s.feLines := rfl
@[simp] theorem State.drew_ftBad (k : Nat) : (s.drew k).ftBad = s.ftBad := rfl
@[simp] theorem State.drew_farClear (k : Nat) : (s.drew k).farClear = s.farClear := rfl
@[simp] theorem State.drew_evac (k : Nat) : (s.drew k).evac = s.evac := rfl
@[simp] theorem State.drew_skip (k : Nat) : (s.drew k).skip = s.skip := rfl
@[simp] theorem State.drew_pinWait (k : Nat) : (s.drew k).pinWait = s.pinWait := rfl
@[simp] theorem State.drew_want (k : Nat) : (s.drew k).want = s.want := rfl
@[simp] theorem State.drew_demoting (k : Nat) : (s.drew k).demoting = s.demoting := rfl
@[simp] theorem State.drew_scds (k : Nat) : (s.drew k).scds = s.scds := rfl
@[simp] theorem State.drew_hostDirty (k : Nat) : (s.drew k).hostDirty = s.hostDirty := rfl
@[simp] theorem State.drew_resv (k : Nat) : (s.drew k).resv = s.resv := rfl
@[simp] theorem State.drew_waiters (k : Nat) : (s.drew k).waiters = s.waiters := rfl
@[simp] theorem State.drew_tiles (k : Nat) : (s.drew k).tiles = s.tiles := rfl
@[simp] theorem State.drew_tlbs (k : Nat) : (s.drew k).tlbs = s.tlbs := rfl
@[simp] theorem State.drew_walks (k : Nat) : (s.drew k).walks = s.walks := rfl
@[simp] theorem State.drew_queues (k : Nat) : (s.drew k).queues = s.queues := rfl
@[simp] theorem State.drew_pool (k : Nat) : (s.drew k).pool = s.pool := rfl
@[simp] theorem State.drew_done (k : Nat) : (s.drew k).done = s.done := rfl
@[simp] theorem State.drew_fails (k : Nat) : (s.drew k).fails = s.fails := rfl
@[simp] theorem State.drew_acks (k : Nat) : (s.drew k).acks = s.acks := rfl
@[simp] theorem State.drew_copyEng (k : Nat) : (s.drew k).copyEng = s.copyEng := rfl
@[simp] theorem State.drew_lastQ (k : Nat) : (s.drew k).lastQ = s.lastQ := rfl
@[simp] theorem State.drew_roomTurn (k : Nat) : (s.drew k).roomTurn = s.roomTurn := rfl
@[simp] theorem State.drew_kernels (k : Nat) : (s.drew k).kernels = s.kernels := rfl
@[simp] theorem State.drew_nextKern (k : Nat) : (s.drew k).nextKern = s.nextKern := rfl
@[simp] theorem State.drew_kepoch (k : Nat) : (s.drew k).kepoch = s.kepoch := rfl
@[simp] theorem State.drew_colls (k : Nat) : (s.drew k).colls = s.colls := rfl
@[simp] theorem State.drew_held (k : Nat) : (s.drew k).held = s.held := rfl
@[simp] theorem State.drew_collSeq (k : Nat) : (s.drew k).collSeq = s.collSeq := rfl
@[simp] theorem State.drew_msix (k : Nat) : (s.drew k).msix = s.msix := rfl
@[simp] theorem State.drew_hif (k : Nat) : (s.drew k).hif = s.hif := rfl
@[simp] theorem State.drew_links (k : Nat) : (s.drew k).links = s.links := rfl
@[simp] theorem State.drew_remote (k : Nat) : (s.drew k).remote = s.remote := rfl
@[simp] theorem State.drew_nextTid (k : Nat) : (s.drew k).nextTid = s.nextTid := rfl
@[simp] theorem State.drew_gens (k : Nat) : (s.drew k).gens = s.gens := rfl
@[simp] theorem State.drew_badLines (k : Nat) : (s.drew k).badLines = s.badLines := rfl
@[simp] theorem State.drew_pairs (k : Nat) : (s.drew k).pairs = s.pairs := rfl
@[simp] theorem State.drew_arrived (k : Nat) : (s.drew k).arrived = s.arrived := rfl
@[simp] theorem State.drew_retrain (k : Nat) : (s.drew k).retrain = s.retrain := rfl
@[simp] theorem State.drew_rtts (k : Nat) : (s.drew k).rtts = s.rtts := rfl
@[simp] theorem State.drew_dumpDue (k : Nat) : (s.drew k).dumpDue = s.dumpDue := rfl
@[simp] theorem State.drew_flashDev (k : Nat) : (s.drew k).flashDev = s.flashDev := rfl
@[simp] theorem State.drew_later (k : Nat) : (s.drew k).later = s.later := rfl
@[simp] theorem State.drew_normRgn (k : Nat) : (s.drew k).normRgn = s.normRgn := rfl
@[simp] theorem State.drew_normScd (k : Nat) : (s.drew k).normScd = s.normScd := rfl
@[simp] theorem State.drew_slowAt (k : Nat) : (s.drew k).slowAt = s.slowAt := rfl
@[simp] theorem State.drew_tidHold (k : Nat) : (s.drew k).tidHold = s.tidHold := rfl
@[simp] theorem State.drew_plainTx (k : Nat) : (s.drew k).plainTx = s.plainTx := rfl
@[simp] theorem State.drew_hdrs (k : Nat) : (s.drew k).hdrs = s.hdrs := rfl
@[simp] theorem State.drew_time (k : Nat) : (s.drew k).time = s.time := rfl
@[simp] theorem State.drew_flash (k : Nat) : (s.drew k).flash = s.flash := rfl
@[simp] theorem State.drew_fuses (k : Nat) : (s.drew k).fuses = s.fuses := rfl
@[simp] theorem State.drew_usercal (k : Nat) : (s.drew k).usercal = s.usercal := rfl
@[simp] theorem State.drew_ports (k : Nat) : (s.drew k).ports = s.ports := rfl
@[simp] theorem State.drew_ftTimes (k : Nat) : (s.drew k).ftTimes = s.ftTimes := rfl
@[simp] theorem State.drew_devLoad (k : Nat) : (s.drew k).devLoad = s.devLoad := rfl
@[simp] theorem State.drew_sec (k : Nat) : (s.drew k).sec = s.sec := rfl
@[simp] theorem State.drew_pwr (k : Nat) : (s.drew k).pwr = s.pwr := rfl
@[simp] theorem State.drew_side (k : Nat) : (s.drew k).side = s.side := rfl
@[simp] theorem State.drew_tap (k : Nat) : (s.drew k).tap = s.tap := rfl
@[simp] theorem State.drew_dump (k : Nat) : (s.drew k).dump = s.dump := rfl
@[simp] theorem State.drew_refresh (k : Nat) : (s.drew k).refresh = s.refresh := rfl
@[simp] theorem State.drew_hotDies (k : Nat) : (s.drew k).hotDies = s.hotDies := rfl
@[simp] theorem State.drew_dieTemp (k : Nat) : (s.drew k).dieTemp = s.dieTemp := rfl
@[simp] theorem State.drew_patrolAt (k : Nat) : (s.drew k).patrolAt = s.patrolAt := rfl
@[simp] theorem State.drew_scrubAt (k : Nat) : (s.drew k).scrubAt = s.scrubAt := rfl
@[simp] theorem State.drew_patrolPer (k : Nat) : (s.drew k).patrolPer = s.patrolPer := rfl
@[simp] theorem State.drew_scrubPer (k : Nat) : (s.drew k).scrubPer = s.scrubPer := rfl
@[simp] theorem State.drew_drainAt (k : Nat) : (s.drew k).drainAt = s.drainAt := rfl
@[simp] theorem State.drew_siliOff (k : Nat) : (s.drew k).siliOff = s.siliOff := rfl
@[simp] theorem State.drew_trainAt (k : Nat) : (s.drew k).trainAt = s.trainAt := rfl
@[simp] theorem State.drew_slices (k : Nat) : (s.drew k).slices = s.slices := rfl
@[simp] theorem State.drew_energyRem (k : Nat) : (s.drew k).energyRem = s.energyRem := rfl
@[simp] theorem State.drew_used (k : Nat) : (s.drew k).used = s.used := rfl

/-! ### modKernel -/

@[simp] theorem State.modKernel_pending (k : Nat) (g : Kernel → Kernel) : (s.modKernel k g).pending = s.pending := rfl
@[simp] theorem State.modKernel_free (k : Nat) (g : Kernel → Kernel) : (s.modKernel k g).free = s.free := rfl
@[simp] theorem State.modKernel_regs (k : Nat) (g : Kernel → Kernel) : (s.modKernel k g).regs = s.regs := rfl
@[simp] theorem State.modKernel_cells (k : Nat) (g : Kernel → Kernel) : (s.modKernel k g).cells = s.cells := rfl
@[simp] theorem State.modKernel_blocks (k : Nat) (g : Kernel → Kernel) : (s.modKernel k g).blocks = s.blocks := rfl
@[simp] theorem State.modKernel_mem (k : Nat) (g : Kernel → Kernel) : (s.modKernel k g).mem = s.mem := rfl
@[simp] theorem State.modKernel_check (k : Nat) (g : Kernel → Kernel) : (s.modKernel k g).check = s.check := rfl
@[simp] theorem State.modKernel_full (k : Nat) (g : Kernel → Kernel) : (s.modKernel k g).full = s.full := rfl
@[simp] theorem State.modKernel_hostMem (k : Nat) (g : Kernel → Kernel) : (s.modKernel k g).hostMem = s.hostMem := rfl
@[simp] theorem State.modKernel_loct (k : Nat) (g : Kernel → Kernel) : (s.modKernel k g).loct = s.loct := rfl
@[simp] theorem State.modKernel_lcache (k : Nat) (g : Kernel → Kernel) : (s.modKernel k g).lcache = s.lcache := rfl
@[simp] theorem State.modKernel_sampled (k : Nat) (g : Kernel → Kernel) : (s.modKernel k g).sampled = s.sampled := rfl
@[simp] theorem State.modKernel_migs (k : Nat) (g : Kernel → Kernel) : (s.modKernel k g).migs = s.migs := rfl
@[simp] theorem State.modKernel_unclean (k : Nat) (g : Kernel → Kernel) : (s.modKernel k g).unclean = s.unclean := rfl
@[simp] theorem State.modKernel_unslot (k : Nat) (g : Kernel → Kernel) : (s.modKernel k g).unslot = s.unslot := rfl
@[simp] theorem State.modKernel_promo (k : Nat) (g : Kernel → Kernel) : (s.modKernel k g).promo = s.promo := rfl
@[simp] theorem State.modKernel_roomOwed (k : Nat) (g : Kernel → Kernel) : (s.modKernel k g).roomOwed = s.roomOwed := rfl
@[simp] theorem State.modKernel_feLines (k : Nat) (g : Kernel → Kernel) : (s.modKernel k g).feLines = s.feLines := rfl
@[simp] theorem State.modKernel_ftBad (k : Nat) (g : Kernel → Kernel) : (s.modKernel k g).ftBad = s.ftBad := rfl
@[simp] theorem State.modKernel_farClear (k : Nat) (g : Kernel → Kernel) : (s.modKernel k g).farClear = s.farClear := rfl
@[simp] theorem State.modKernel_evac (k : Nat) (g : Kernel → Kernel) : (s.modKernel k g).evac = s.evac := rfl
@[simp] theorem State.modKernel_skip (k : Nat) (g : Kernel → Kernel) : (s.modKernel k g).skip = s.skip := rfl
@[simp] theorem State.modKernel_pinWait (k : Nat) (g : Kernel → Kernel) : (s.modKernel k g).pinWait = s.pinWait := rfl
@[simp] theorem State.modKernel_want (k : Nat) (g : Kernel → Kernel) : (s.modKernel k g).want = s.want := rfl
@[simp] theorem State.modKernel_demoting (k : Nat) (g : Kernel → Kernel) : (s.modKernel k g).demoting = s.demoting := rfl
@[simp] theorem State.modKernel_scds (k : Nat) (g : Kernel → Kernel) : (s.modKernel k g).scds = s.scds := rfl
@[simp] theorem State.modKernel_hostDirty (k : Nat) (g : Kernel → Kernel) : (s.modKernel k g).hostDirty = s.hostDirty := rfl
@[simp] theorem State.modKernel_resv (k : Nat) (g : Kernel → Kernel) : (s.modKernel k g).resv = s.resv := rfl
@[simp] theorem State.modKernel_waiters (k : Nat) (g : Kernel → Kernel) : (s.modKernel k g).waiters = s.waiters := rfl
@[simp] theorem State.modKernel_tiles (k : Nat) (g : Kernel → Kernel) : (s.modKernel k g).tiles = s.tiles := rfl
@[simp] theorem State.modKernel_tlbs (k : Nat) (g : Kernel → Kernel) : (s.modKernel k g).tlbs = s.tlbs := rfl
@[simp] theorem State.modKernel_walks (k : Nat) (g : Kernel → Kernel) : (s.modKernel k g).walks = s.walks := rfl
@[simp] theorem State.modKernel_queues (k : Nat) (g : Kernel → Kernel) : (s.modKernel k g).queues = s.queues := rfl
@[simp] theorem State.modKernel_pool (k : Nat) (g : Kernel → Kernel) : (s.modKernel k g).pool = s.pool := rfl
@[simp] theorem State.modKernel_done (k : Nat) (g : Kernel → Kernel) : (s.modKernel k g).done = s.done := rfl
@[simp] theorem State.modKernel_fails (k : Nat) (g : Kernel → Kernel) : (s.modKernel k g).fails = s.fails := rfl
@[simp] theorem State.modKernel_acks (k : Nat) (g : Kernel → Kernel) : (s.modKernel k g).acks = s.acks := rfl
@[simp] theorem State.modKernel_copyEng (k : Nat) (g : Kernel → Kernel) : (s.modKernel k g).copyEng = s.copyEng := rfl
@[simp] theorem State.modKernel_lastQ (k : Nat) (g : Kernel → Kernel) : (s.modKernel k g).lastQ = s.lastQ := rfl
@[simp] theorem State.modKernel_roomTurn (k : Nat) (g : Kernel → Kernel) : (s.modKernel k g).roomTurn = s.roomTurn := rfl
@[simp] theorem State.modKernel_nextKern (k : Nat) (g : Kernel → Kernel) : (s.modKernel k g).nextKern = s.nextKern := rfl
@[simp] theorem State.modKernel_kepoch (k : Nat) (g : Kernel → Kernel) : (s.modKernel k g).kepoch = s.kepoch := rfl
@[simp] theorem State.modKernel_colls (k : Nat) (g : Kernel → Kernel) : (s.modKernel k g).colls = s.colls := rfl
@[simp] theorem State.modKernel_held (k : Nat) (g : Kernel → Kernel) : (s.modKernel k g).held = s.held := rfl
@[simp] theorem State.modKernel_collSeq (k : Nat) (g : Kernel → Kernel) : (s.modKernel k g).collSeq = s.collSeq := rfl
@[simp] theorem State.modKernel_msix (k : Nat) (g : Kernel → Kernel) : (s.modKernel k g).msix = s.msix := rfl
@[simp] theorem State.modKernel_hif (k : Nat) (g : Kernel → Kernel) : (s.modKernel k g).hif = s.hif := rfl
@[simp] theorem State.modKernel_links (k : Nat) (g : Kernel → Kernel) : (s.modKernel k g).links = s.links := rfl
@[simp] theorem State.modKernel_remote (k : Nat) (g : Kernel → Kernel) : (s.modKernel k g).remote = s.remote := rfl
@[simp] theorem State.modKernel_nextTid (k : Nat) (g : Kernel → Kernel) : (s.modKernel k g).nextTid = s.nextTid := rfl
@[simp] theorem State.modKernel_gens (k : Nat) (g : Kernel → Kernel) : (s.modKernel k g).gens = s.gens := rfl
@[simp] theorem State.modKernel_badLines (k : Nat) (g : Kernel → Kernel) : (s.modKernel k g).badLines = s.badLines := rfl
@[simp] theorem State.modKernel_pairs (k : Nat) (g : Kernel → Kernel) : (s.modKernel k g).pairs = s.pairs := rfl
@[simp] theorem State.modKernel_arrived (k : Nat) (g : Kernel → Kernel) : (s.modKernel k g).arrived = s.arrived := rfl
@[simp] theorem State.modKernel_retrain (k : Nat) (g : Kernel → Kernel) : (s.modKernel k g).retrain = s.retrain := rfl
@[simp] theorem State.modKernel_rtts (k : Nat) (g : Kernel → Kernel) : (s.modKernel k g).rtts = s.rtts := rfl
@[simp] theorem State.modKernel_dumpDue (k : Nat) (g : Kernel → Kernel) : (s.modKernel k g).dumpDue = s.dumpDue := rfl
@[simp] theorem State.modKernel_flashDev (k : Nat) (g : Kernel → Kernel) : (s.modKernel k g).flashDev = s.flashDev := rfl
@[simp] theorem State.modKernel_later (k : Nat) (g : Kernel → Kernel) : (s.modKernel k g).later = s.later := rfl
@[simp] theorem State.modKernel_normRgn (k : Nat) (g : Kernel → Kernel) : (s.modKernel k g).normRgn = s.normRgn := rfl
@[simp] theorem State.modKernel_normScd (k : Nat) (g : Kernel → Kernel) : (s.modKernel k g).normScd = s.normScd := rfl
@[simp] theorem State.modKernel_slowAt (k : Nat) (g : Kernel → Kernel) : (s.modKernel k g).slowAt = s.slowAt := rfl
@[simp] theorem State.modKernel_tidHold (k : Nat) (g : Kernel → Kernel) : (s.modKernel k g).tidHold = s.tidHold := rfl
@[simp] theorem State.modKernel_plainTx (k : Nat) (g : Kernel → Kernel) : (s.modKernel k g).plainTx = s.plainTx := rfl
@[simp] theorem State.modKernel_hdrs (k : Nat) (g : Kernel → Kernel) : (s.modKernel k g).hdrs = s.hdrs := rfl
@[simp] theorem State.modKernel_time (k : Nat) (g : Kernel → Kernel) : (s.modKernel k g).time = s.time := rfl
@[simp] theorem State.modKernel_flash (k : Nat) (g : Kernel → Kernel) : (s.modKernel k g).flash = s.flash := rfl
@[simp] theorem State.modKernel_fuses (k : Nat) (g : Kernel → Kernel) : (s.modKernel k g).fuses = s.fuses := rfl
@[simp] theorem State.modKernel_usercal (k : Nat) (g : Kernel → Kernel) : (s.modKernel k g).usercal = s.usercal := rfl
@[simp] theorem State.modKernel_ports (k : Nat) (g : Kernel → Kernel) : (s.modKernel k g).ports = s.ports := rfl
@[simp] theorem State.modKernel_ftTimes (k : Nat) (g : Kernel → Kernel) : (s.modKernel k g).ftTimes = s.ftTimes := rfl
@[simp] theorem State.modKernel_devLoad (k : Nat) (g : Kernel → Kernel) : (s.modKernel k g).devLoad = s.devLoad := rfl
@[simp] theorem State.modKernel_sec (k : Nat) (g : Kernel → Kernel) : (s.modKernel k g).sec = s.sec := rfl
@[simp] theorem State.modKernel_pwr (k : Nat) (g : Kernel → Kernel) : (s.modKernel k g).pwr = s.pwr := rfl
@[simp] theorem State.modKernel_side (k : Nat) (g : Kernel → Kernel) : (s.modKernel k g).side = s.side := rfl
@[simp] theorem State.modKernel_tap (k : Nat) (g : Kernel → Kernel) : (s.modKernel k g).tap = s.tap := rfl
@[simp] theorem State.modKernel_dump (k : Nat) (g : Kernel → Kernel) : (s.modKernel k g).dump = s.dump := rfl
@[simp] theorem State.modKernel_refresh (k : Nat) (g : Kernel → Kernel) : (s.modKernel k g).refresh = s.refresh := rfl
@[simp] theorem State.modKernel_hotDies (k : Nat) (g : Kernel → Kernel) : (s.modKernel k g).hotDies = s.hotDies := rfl
@[simp] theorem State.modKernel_dieTemp (k : Nat) (g : Kernel → Kernel) : (s.modKernel k g).dieTemp = s.dieTemp := rfl
@[simp] theorem State.modKernel_patrolAt (k : Nat) (g : Kernel → Kernel) : (s.modKernel k g).patrolAt = s.patrolAt := rfl
@[simp] theorem State.modKernel_scrubAt (k : Nat) (g : Kernel → Kernel) : (s.modKernel k g).scrubAt = s.scrubAt := rfl
@[simp] theorem State.modKernel_patrolPer (k : Nat) (g : Kernel → Kernel) : (s.modKernel k g).patrolPer = s.patrolPer := rfl
@[simp] theorem State.modKernel_scrubPer (k : Nat) (g : Kernel → Kernel) : (s.modKernel k g).scrubPer = s.scrubPer := rfl
@[simp] theorem State.modKernel_drainAt (k : Nat) (g : Kernel → Kernel) : (s.modKernel k g).drainAt = s.drainAt := rfl
@[simp] theorem State.modKernel_siliOff (k : Nat) (g : Kernel → Kernel) : (s.modKernel k g).siliOff = s.siliOff := rfl
@[simp] theorem State.modKernel_trainAt (k : Nat) (g : Kernel → Kernel) : (s.modKernel k g).trainAt = s.trainAt := rfl
@[simp] theorem State.modKernel_slices (k : Nat) (g : Kernel → Kernel) : (s.modKernel k g).slices = s.slices := rfl
@[simp] theorem State.modKernel_energyRem (k : Nat) (g : Kernel → Kernel) : (s.modKernel k g).energyRem = s.energyRem := rfl
@[simp] theorem State.modKernel_used (k : Nat) (g : Kernel → Kernel) : (s.modKernel k g).used = s.used := rfl

/-! ### raiseVec -/

@[simp] theorem State.raiseVec_pending (v : Nat) : (s.raiseVec v).pending = s.pending := rfl
@[simp] theorem State.raiseVec_free (v : Nat) : (s.raiseVec v).free = s.free := rfl
@[simp] theorem State.raiseVec_regs (v : Nat) : (s.raiseVec v).regs = s.regs := rfl
@[simp] theorem State.raiseVec_cells (v : Nat) : (s.raiseVec v).cells = s.cells := rfl
@[simp] theorem State.raiseVec_blocks (v : Nat) : (s.raiseVec v).blocks = s.blocks := rfl
@[simp] theorem State.raiseVec_mem (v : Nat) : (s.raiseVec v).mem = s.mem := rfl
@[simp] theorem State.raiseVec_check (v : Nat) : (s.raiseVec v).check = s.check := rfl
@[simp] theorem State.raiseVec_full (v : Nat) : (s.raiseVec v).full = s.full := rfl
@[simp] theorem State.raiseVec_hostMem (v : Nat) : (s.raiseVec v).hostMem = s.hostMem := rfl
@[simp] theorem State.raiseVec_loct (v : Nat) : (s.raiseVec v).loct = s.loct := rfl
@[simp] theorem State.raiseVec_lcache (v : Nat) : (s.raiseVec v).lcache = s.lcache := rfl
@[simp] theorem State.raiseVec_sampled (v : Nat) : (s.raiseVec v).sampled = s.sampled := rfl
@[simp] theorem State.raiseVec_migs (v : Nat) : (s.raiseVec v).migs = s.migs := rfl
@[simp] theorem State.raiseVec_unclean (v : Nat) : (s.raiseVec v).unclean = s.unclean := rfl
@[simp] theorem State.raiseVec_unslot (v : Nat) : (s.raiseVec v).unslot = s.unslot := rfl
@[simp] theorem State.raiseVec_promo (v : Nat) : (s.raiseVec v).promo = s.promo := rfl
@[simp] theorem State.raiseVec_roomOwed (v : Nat) : (s.raiseVec v).roomOwed = s.roomOwed := rfl
@[simp] theorem State.raiseVec_feLines (v : Nat) : (s.raiseVec v).feLines = s.feLines := rfl
@[simp] theorem State.raiseVec_ftBad (v : Nat) : (s.raiseVec v).ftBad = s.ftBad := rfl
@[simp] theorem State.raiseVec_farClear (v : Nat) : (s.raiseVec v).farClear = s.farClear := rfl
@[simp] theorem State.raiseVec_evac (v : Nat) : (s.raiseVec v).evac = s.evac := rfl
@[simp] theorem State.raiseVec_skip (v : Nat) : (s.raiseVec v).skip = s.skip := rfl
@[simp] theorem State.raiseVec_pinWait (v : Nat) : (s.raiseVec v).pinWait = s.pinWait := rfl
@[simp] theorem State.raiseVec_want (v : Nat) : (s.raiseVec v).want = s.want := rfl
@[simp] theorem State.raiseVec_demoting (v : Nat) : (s.raiseVec v).demoting = s.demoting := rfl
@[simp] theorem State.raiseVec_scds (v : Nat) : (s.raiseVec v).scds = s.scds := rfl
@[simp] theorem State.raiseVec_hostDirty (v : Nat) : (s.raiseVec v).hostDirty = s.hostDirty := rfl
@[simp] theorem State.raiseVec_resv (v : Nat) : (s.raiseVec v).resv = s.resv := rfl
@[simp] theorem State.raiseVec_waiters (v : Nat) : (s.raiseVec v).waiters = s.waiters := rfl
@[simp] theorem State.raiseVec_tiles (v : Nat) : (s.raiseVec v).tiles = s.tiles := rfl
@[simp] theorem State.raiseVec_tlbs (v : Nat) : (s.raiseVec v).tlbs = s.tlbs := rfl
@[simp] theorem State.raiseVec_walks (v : Nat) : (s.raiseVec v).walks = s.walks := rfl
@[simp] theorem State.raiseVec_queues (v : Nat) : (s.raiseVec v).queues = s.queues := rfl
@[simp] theorem State.raiseVec_pool (v : Nat) : (s.raiseVec v).pool = s.pool := rfl
@[simp] theorem State.raiseVec_done (v : Nat) : (s.raiseVec v).done = s.done := rfl
@[simp] theorem State.raiseVec_fails (v : Nat) : (s.raiseVec v).fails = s.fails := rfl
@[simp] theorem State.raiseVec_acks (v : Nat) : (s.raiseVec v).acks = s.acks := rfl
@[simp] theorem State.raiseVec_copyEng (v : Nat) : (s.raiseVec v).copyEng = s.copyEng := rfl
@[simp] theorem State.raiseVec_lastQ (v : Nat) : (s.raiseVec v).lastQ = s.lastQ := rfl
@[simp] theorem State.raiseVec_roomTurn (v : Nat) : (s.raiseVec v).roomTurn = s.roomTurn := rfl
@[simp] theorem State.raiseVec_kernels (v : Nat) : (s.raiseVec v).kernels = s.kernels := rfl
@[simp] theorem State.raiseVec_nextKern (v : Nat) : (s.raiseVec v).nextKern = s.nextKern := rfl
@[simp] theorem State.raiseVec_kepoch (v : Nat) : (s.raiseVec v).kepoch = s.kepoch := rfl
@[simp] theorem State.raiseVec_colls (v : Nat) : (s.raiseVec v).colls = s.colls := rfl
@[simp] theorem State.raiseVec_held (v : Nat) : (s.raiseVec v).held = s.held := rfl
@[simp] theorem State.raiseVec_collSeq (v : Nat) : (s.raiseVec v).collSeq = s.collSeq := rfl
@[simp] theorem State.raiseVec_hif (v : Nat) : (s.raiseVec v).hif = s.hif := rfl
@[simp] theorem State.raiseVec_links (v : Nat) : (s.raiseVec v).links = s.links := rfl
@[simp] theorem State.raiseVec_remote (v : Nat) : (s.raiseVec v).remote = s.remote := rfl
@[simp] theorem State.raiseVec_nextTid (v : Nat) : (s.raiseVec v).nextTid = s.nextTid := rfl
@[simp] theorem State.raiseVec_gens (v : Nat) : (s.raiseVec v).gens = s.gens := rfl
@[simp] theorem State.raiseVec_badLines (v : Nat) : (s.raiseVec v).badLines = s.badLines := rfl
@[simp] theorem State.raiseVec_pairs (v : Nat) : (s.raiseVec v).pairs = s.pairs := rfl
@[simp] theorem State.raiseVec_arrived (v : Nat) : (s.raiseVec v).arrived = s.arrived := rfl
@[simp] theorem State.raiseVec_retrain (v : Nat) : (s.raiseVec v).retrain = s.retrain := rfl
@[simp] theorem State.raiseVec_rtts (v : Nat) : (s.raiseVec v).rtts = s.rtts := rfl
@[simp] theorem State.raiseVec_dumpDue (v : Nat) : (s.raiseVec v).dumpDue = s.dumpDue := rfl
@[simp] theorem State.raiseVec_flashDev (v : Nat) : (s.raiseVec v).flashDev = s.flashDev := rfl
@[simp] theorem State.raiseVec_later (v : Nat) : (s.raiseVec v).later = s.later := rfl
@[simp] theorem State.raiseVec_normRgn (v : Nat) : (s.raiseVec v).normRgn = s.normRgn := rfl
@[simp] theorem State.raiseVec_normScd (v : Nat) : (s.raiseVec v).normScd = s.normScd := rfl
@[simp] theorem State.raiseVec_slowAt (v : Nat) : (s.raiseVec v).slowAt = s.slowAt := rfl
@[simp] theorem State.raiseVec_tidHold (v : Nat) : (s.raiseVec v).tidHold = s.tidHold := rfl
@[simp] theorem State.raiseVec_plainTx (v : Nat) : (s.raiseVec v).plainTx = s.plainTx := rfl
@[simp] theorem State.raiseVec_hdrs (v : Nat) : (s.raiseVec v).hdrs = s.hdrs := rfl
@[simp] theorem State.raiseVec_time (v : Nat) : (s.raiseVec v).time = s.time := rfl
@[simp] theorem State.raiseVec_flash (v : Nat) : (s.raiseVec v).flash = s.flash := rfl
@[simp] theorem State.raiseVec_fuses (v : Nat) : (s.raiseVec v).fuses = s.fuses := rfl
@[simp] theorem State.raiseVec_usercal (v : Nat) : (s.raiseVec v).usercal = s.usercal := rfl
@[simp] theorem State.raiseVec_ports (v : Nat) : (s.raiseVec v).ports = s.ports := rfl
@[simp] theorem State.raiseVec_ftTimes (v : Nat) : (s.raiseVec v).ftTimes = s.ftTimes := rfl
@[simp] theorem State.raiseVec_devLoad (v : Nat) : (s.raiseVec v).devLoad = s.devLoad := rfl
@[simp] theorem State.raiseVec_sec (v : Nat) : (s.raiseVec v).sec = s.sec := rfl
@[simp] theorem State.raiseVec_pwr (v : Nat) : (s.raiseVec v).pwr = s.pwr := rfl
@[simp] theorem State.raiseVec_side (v : Nat) : (s.raiseVec v).side = s.side := rfl
@[simp] theorem State.raiseVec_tap (v : Nat) : (s.raiseVec v).tap = s.tap := rfl
@[simp] theorem State.raiseVec_dump (v : Nat) : (s.raiseVec v).dump = s.dump := rfl
@[simp] theorem State.raiseVec_refresh (v : Nat) : (s.raiseVec v).refresh = s.refresh := rfl
@[simp] theorem State.raiseVec_hotDies (v : Nat) : (s.raiseVec v).hotDies = s.hotDies := rfl
@[simp] theorem State.raiseVec_dieTemp (v : Nat) : (s.raiseVec v).dieTemp = s.dieTemp := rfl
@[simp] theorem State.raiseVec_patrolAt (v : Nat) : (s.raiseVec v).patrolAt = s.patrolAt := rfl
@[simp] theorem State.raiseVec_scrubAt (v : Nat) : (s.raiseVec v).scrubAt = s.scrubAt := rfl
@[simp] theorem State.raiseVec_patrolPer (v : Nat) : (s.raiseVec v).patrolPer = s.patrolPer := rfl
@[simp] theorem State.raiseVec_scrubPer (v : Nat) : (s.raiseVec v).scrubPer = s.scrubPer := rfl
@[simp] theorem State.raiseVec_drainAt (v : Nat) : (s.raiseVec v).drainAt = s.drainAt := rfl
@[simp] theorem State.raiseVec_siliOff (v : Nat) : (s.raiseVec v).siliOff = s.siliOff := rfl
@[simp] theorem State.raiseVec_trainAt (v : Nat) : (s.raiseVec v).trainAt = s.trainAt := rfl
@[simp] theorem State.raiseVec_slices (v : Nat) : (s.raiseVec v).slices = s.slices := rfl
@[simp] theorem State.raiseVec_energyRem (v : Nat) : (s.raiseVec v).energyRem = s.energyRem := rfl
@[simp] theorem State.raiseVec_used (v : Nat) : (s.raiseVec v).used = s.used := rfl

end Sys2Proof.Machine
end

