-- ==== Sys2Proof/Laws/Issue.lean ====
section
/-!
SUPPORT. What the issue of an instruction does (R58, R60, R464): one lemma for the group that is ready, one for the
instruction that halts whatever its lanes, one for the group that is not ready; its frame.
-/

namespace Sys2Proof.Machine

variable {s s' : State} {t : GTgt} {a : IssueArg} {g g' : Group}

/-! ### Cells and groups -/

@[simp] theorem State.cell_setCell_self (s : State) (c : Nat) (x : Cell) : (s.setCell c x).cell c = x := by
  simp [State.cell, State.setCell]

theorem State.cell_setCell_other (s : State) {c d : Nat} (x : Cell) (h : d ≠ c) : (s.setCell c x).cell d = s.cell d := by
  simp [State.cell, State.setCell, mapGet_mapSet, h]

@[simp] theorem State.cell_modCell_self (s : State) (c : Nat) (f : Cell → Cell) : (s.modCell c f).cell c = f (s.cell c) := by
  simp [State.modCell]

theorem State.cell_modCell_other (s : State) {c d : Nat} (f : Cell → Cell) (h : d ≠ c) : (s.modCell c f).cell d = s.cell d :=
  s.cell_setCell_other _ h

@[simp] theorem State.group_setGroup_self (s : State) (c k : Nat) (g : Group) : (s.setGroup c k g).group c k = some g := by
  simp [State.group, State.setGroup, mapFind_mapIns]

theorem State.group_setGroup_slot (s : State) (c : Nat) {j k : Nat} (g : Group) (h : j ≠ k) :
    (s.setGroup c k g).group c j = s.group c j := by
  simp [State.group, State.setGroup, mapFind_mapIns, h]

theorem State.cell_of_regs (h : s'.cells = s.cells) (c : Nat) : s'.cell c = s.cell c := by simp [State.cell, h]

/-! ### Counters -/

theorem pmcLoop_only (r b ev n k : Nat) (s : State) : pmcLoop r b ev n k s = { s with regs := (pmcLoop r b ev n k s).regs } := by
  induction k generalizing s with
  | zero => rfl
  | succ k ih =>
    rw [pmcLoop, ih]
    split <;> rfl

theorem pmcLoop_fld (r b ev n k : Nat) (s : State) {f : Fld} (i : Nat) (h : f ≠ .REG_PMC_VAL_count) :
    (pmcLoop r b ev n k s).fld f i = s.fld f i := by
  induction k generalizing s with
  | zero => rfl
  | succ k ih =>
    rw [pmcLoop, ih]
    split
    · exact s.fld_addFld_ne _ _ _ h
    · rfl

theorem State.pmc_only (s : State) (r b ev n : Nat) : s.pmc r b ev n = { s with regs := (s.pmc r b ev n).regs } := by
  unfold State.pmc
  split
  · exact pmcLoop_only ..
  · rfl

theorem State.fld_pmc (s : State) (r b ev n : Nat) {f : Fld} (i : Nat) (h : f ≠ .REG_PMC_VAL_count) :
    (s.pmc r b ev n).fld f i = s.fld f i := by
  unfold State.pmc
  split
  · exact pmcLoop_fld _ _ _ _ _ _ _ h
  · rfl

theorem State.meter_only (s : State) (tag : Option Nat) (f : Fld) (n : Nat) :
    s.meter tag f n = { s with regs := (s.meter tag f n).regs } := by
  unfold State.meter
  split <;> rfl

theorem State.fld_meter (s : State) (tag : Option Nat) {f g : Fld} (n i : Nat) (h : g ≠ f) :
    (s.meter tag f n).fld g i = s.fld g i := by
  unfold State.meter
  split
  · exact s.fld_addFld_ne _ _ _ h
  · rfl

/-! ### Issue -/

/-- The state once an instruction's issue is recorded: the group as it is, the cell's record, counters. -/
theorem State.issued_only (s : State) (c k : Nat) (g : Group) (n : Nat) :
    s.issued c k g n = { s.modCell c (fun x => { x with
      groups := mapIns x.groups k g, last := k, progress := s.wdUntil, iter := s.iterUntil c n }) with
      regs := (s.issued c k g n).regs } := State.pmc_only ..

theorem State.fld_issued (s : State) (c k : Nat) (g : Group) (n : Nat) {f : Fld} (i : Nat) (h : f ≠ .REG_PMC_VAL_count) :
    (s.issued c k g n).fld f i = s.fld f i := State.fld_pmc _ _ _ _ _ _ h

theorem State.cells_issued (s : State) (c k : Nat) (g : Group) (n : Nat) : (s.issued c k g n).cells =
    (s.modCell c (fun x => { x with
      groups := mapIns x.groups k g, last := k, progress := s.wdUntil, iter := s.iterUntil c n })).cells := by
  rw [State.issued_only]

theorem State.cell_issued_self (s : State) (c k : Nat) (g : Group) (n : Nat) :
    (s.issued c k g n).cell c = { s.cell c with
      groups := mapIns (s.cell c).groups k g, last := k, progress := s.wdUntil, iter := s.iterUntil c n } := by
  rw [State.cell_of_regs (s.cells_issued c k g n), State.cell_modCell_self]

theorem State.cell_issued_other (s : State) {c d : Nat} (k : Nat) (g : Group) (n : Nat) (h : d ≠ c) :
    (s.issued c k g n).cell d = s.cell d := by
  rw [State.cell_of_regs (s.cells_issued c k g n), State.cell_modCell_other _ _ h]

theorem canIssue_iff {us : Uses} {mem : Bool} {n : Nat} (h : s.canIssue t us mem n = true) :
    s.alive = true ∧ (s.cell (cellNo t.cell)).state = .running ∧
    (∃ g0, s.group (cellNo t.cell) t.slot.val = some g0 ∧ g0.ended = false ∧ g0.wait = .none) ∧
    (s.cell (cellNo t.cell)).feOut t.slot.val = false ∧ (s.cell (cellNo t.cell)).awaits t.slot.val us = false ∧
    (mem && decide ((s.cell (cellNo t.cell)).memQueue ≥ 32)) = false ∧
    (n != 0 && decide (s.now < (s.cell (cellNo t.cell)).iter)) = false ∧
    (s.cell (cellNo t.cell)).chosen s.now t.slot.val = true := by
  simp only [State.canIssue, Bool.and_eq_true, beq_iff_eq, Bool.not_eq_true'] at h
  obtain ⟨⟨⟨⟨⟨⟨⟨h1, h2⟩, h3⟩, h4⟩, h5⟩, h6⟩, h7⟩, h8⟩ := h
  refine ⟨h1, h2, ?_, h4, h5, h6, h7, h8⟩
  split at h3
  · rename_i g0 hg
    exact ⟨g0, hg, by simpa using h3⟩
  · cases h3

/-- A group that can issue meets no stall at the issue stage, where no full append buffer holds it. -/
theorem stallOf_fetched (hc : s.canIssue t a.uses a.mem a.tokens = true)
    (h : (if a.bad.isNone then a.app g else none) = none) :
    (s.cell (cellNo t.cell)).stallOf s.now t.slot.val (a.fetched g) = 0 := by
  obtain ⟨-, -, -, -, h7, h8, h9, -⟩ := canIssue_iff hc
  simp only [Cell.stallOf, IssueArg.fetched, h, h8, h9]
  simp [h7]

/-- A ready group's instruction that no check stops: its effect after the record of the issue. -/
theorem issue_runs (act : State → Nat → Nat → Group → Mask → State) (hg : s.groupNow t = some g)
    (hc : s.canIssue t a.uses a.mem a.tokens = true) (hb : a.bad = none) (hh : a.app g = none)
    (hp : a.pre s (cellNo t.cell) t.slot.val g (g.acting a.guard) = none) :
    s.issue t a act =
      act (s.issued (cellNo t.cell) t.slot.val g a.tokens) (cellNo t.cell) t.slot.val g (g.acting a.guard) := by
  have hst := stallOf_fetched (g := g) hc (by simp [hh])
  obtain ⟨h1, h2, ⟨g0, h3, h4, h5⟩, h6, -, -, -, h8⟩ := canIssue_iff hc
  have hgg : g = { g0.reconv with next := none } := by simpa [State.groupNow, h3] using hg.symm
  subst hgg
  simp only [State.issue, h3, h1, h2, h4, h5, h6, hst, h8]
  simp [hb, hp]

/-- An instruction that is not legal or names registers it may not halts its cell, whatever its lanes (R464). -/
theorem issue_halts (act : State → Nat → Nat → Group → Mask → State) {r : Nat} (hg : s.groupNow t = some g)
    (hc : s.canIssue t a.uses a.mem = true) (hb : a.bad = some r) :
    s.issue t a act = (s.issued (cellNo t.cell) t.slot.val g).haltGroup (cellNo t.cell) t.slot.val r none := by
  have ht : a.tokens = 0 := by simp [IssueArg.tokens, hb]
  have hst := stallOf_fetched (g := g) (ht.symm ▸ hc) (by simp [hb])
  obtain ⟨h1, h2, ⟨g0, h3, h4, h5⟩, h6, -, -, -, h8⟩ := canIssue_iff hc
  have hgg : g = { g0.reconv with next := none } := by simpa [State.groupNow, h3] using hg.symm
  subst hgg
  simp only [State.issue, h3, h1, h2, h4, h5, h6, hst, h8]
  simp [hb, ht]

/-- A group that is not there, has ended or waits does not issue: nothing changes. -/
theorem issue_waits (act : State → Nat → Nat → Group → Mask → State)
    (h : s.alive = false ∨ (s.cell (cellNo t.cell)).state ≠ .running ∨ s.group (cellNo t.cell) t.slot.val = none ∨
      (s.cell (cellNo t.cell)).feOut t.slot.val = true ∨
      ∃ g0, s.group (cellNo t.cell) t.slot.val = some g0 ∧ (g0.ended = true ∨ g0.wait ≠ .none)) :
    s.issue t a act = s := by
  unfold State.issue
  simp only
  split
  · rfl
  · rename_i g0 hg
    rw [if_pos]
    rcases h with h | h | h | h | ⟨g1, h, h' | h'⟩
    · simp [h]
    · simp [h]
    · simp [h] at hg
    · simp [h]
    · have : g1 = g0 := by rw [hg] at h; exact (Option.some.inj h).symm
      subst this
      simp [h']
    · have : g1 = g0 := by rw [hg] at h; exact (Option.some.inj h).symm
      subst this
      simp [h']

/-! ### The frame -/

/-- An instruction that replaces its group alone. -/
theorem onlyGroup_setGroup (s : State) (t : GTgt) (g g' : Group) (n : Nat) :
    s.OnlyGroup ((s.issued (cellNo t.cell) t.slot.val g n).setGroup (cellNo t.cell) t.slot.val g') t g' 0 0 n where
  group := State.group_setGroup_self ..
  rest := by
    rw [State.issued_only]
    rfl
  cells := fun c hc => by
    rw [State.setGroup, State.cell_modCell_other _ _ hc, State.cell_issued_other _ _ _ _ hc]
  cell := by
    rw [State.setGroup, State.cell_modCell_self, State.cell_issued_self]
  slots := fun k hk => by
    rw [State.group_setGroup_slot _ _ _ hk]
    simp [State.group, State.cell_issued_self, mapFind_mapIns, hk]
  regs := fun f i h _ => by
    show (s.issued (cellNo t.cell) t.slot.val g n).fld f i = _
    exact s.fld_issued _ _ _ _ _ h
  meter := fun i => by
    rw [show ((s.issued (cellNo t.cell) t.slot.val g n).setGroup (cellNo t.cell) t.slot.val g').fld .CFE_ACCT_vector_ops i =
      s.fld .CFE_ACCT_vector_ops i from s.fld_issued _ _ _ _ _ (by decide)]
    simp

/-- Vector operations metered to the tag of the cell's kernel. -/
theorem State.OnlyGroup.metered {n j : Nat} (h : s.OnlyGroup s' t g' 0 n j) (k : Nat) :
    s.OnlyGroup (s'.meter (s.cellAcct (cellNo t.cell)) .CFE_ACCT_vector_ops k) t g' k n j := by
  have e := s'.meter_only (s.cellAcct (cellNo t.cell)) .CFE_ACCT_vector_ops k
  have hc : ∀ c, (s'.meter (s.cellAcct (cellNo t.cell)) .CFE_ACCT_vector_ops k).cell c = s'.cell c := fun c => by
    rw [e]; rfl
  exact
    { group := by rw [State.group, hc]; exact h.group
      rest := by
        rw [e]
        exact congrArg (fun x : State =>
          { x with regs := (s'.meter (s.cellAcct (cellNo t.cell)) .CFE_ACCT_vector_ops k).regs }) h.rest
      cells := fun c hh => by rw [hc, h.cells c hh]
      cell := by rw [hc]; exact h.cell
      slots := fun j hj => by rw [State.group, hc]; exact h.slots j hj
      regs := fun f i h1 h2 => by rw [s'.fld_meter _ k i h2]; exact h.regs f i h1 h2
      meter := fun i => by
        have hm := h.meter i
        simp only [ite_self, Nat.add_zero] at hm
        unfold State.meter
        cases hx : s.cellAcct (cellNo t.cell) with
        | none => simpa using hm
        | some j =>
          by_cases hj : j = i
          · subst hj
            show (s'.setFld .CFE_ACCT_vector_ops j (s'.fld .CFE_ACCT_vector_ops j + k)).fld .CFE_ACCT_vector_ops j % 2 ^ 64 = _
            rw [State.fld_setFld_self, if_pos rfl, show Fld.CFE_ACCT_vector_ops.desc.width = 64 from by decide, Nat.mod_mod,
              Nat.add_mod, hm, ← Nat.add_mod]
          · show (s'.setFld .CFE_ACCT_vector_ops j (s'.fld .CFE_ACCT_vector_ops j + k)).fld .CFE_ACCT_vector_ops i % 2 ^ 64 = _
            rw [State.fld_setFld_other _ _ _ _ _ _ (by tauto), if_neg (by simpa using hj), hm]
            simp }

/-- Free values used. -/
theorem State.OnlyGroup.drew {m n j : Nat} (h : s.OnlyGroup s' t g' m n j) (k : Nat) :
    s.OnlyGroup (s'.drew k) t g' m (n + k) j where
  group := h.group
  rest := by
    have hf : s'.free = s.free + n := congrArg State.free h.rest
    have h2 := congrArg (fun x : State => { x with free := s'.free + k }) h.rest
    rw [hf, Nat.add_assoc] at h2
    unfold State.drew
    rw [hf, Nat.add_assoc]
    exact h2
  cells := h.cells
  cell := h.cell
  slots := h.slots
  regs := h.regs
  meter := h.meter

end Sys2Proof.Machine
end

