-- ==== Sys2Proof/Laws/Groups.lean ====
section
/-!
SUPPORT. The registers of a group: a read after a write, every other register and lane; what an F0/F1 operation writes.
-/

namespace Sys2Proof.Machine

theorem Group.v1_lt (g : Group) (r l : Nat) : g.v1 r l < 2 ^ 32 := (mapGet 0 g.v (32 * r + l)).isLt

theorem Group.rd_lt (g : Group) (n r l : Nat) : g.rd n r l < 2 ^ (32 * n) := by
  induction n generalizing r with
  | zero => simp [Group.rd]
  | succ n ih =>
    have h1 := g.v1_lt r l
    have h2 := ih (r + 1)
    rw [Group.rd, show 2 ^ (32 * (n + 1)) = 2 ^ 32 * 2 ^ (32 * n) by rw [← Nat.pow_add]; ring_nf]
    have : 2 ^ 32 * (g.rd n (r + 1) l) + 2 ^ 32 ≤ 2 ^ 32 * 2 ^ (32 * n) := by
      rw [← Nat.mul_succ]; exact Nat.mul_le_mul_left _ h2
    omega

/-- A write changes thread registers alone. -/
theorem Group.wr_rest (g : Group) (n r l x : Nat) : g.wr n r l x = { g with v := (g.wr n r l x).v } := by
  induction n generalizing g r x with
  | zero => rfl
  | succ n ih => rw [Group.wr, ih]

theorem Group.v1_wr (g : Group) (n r l x k j : Nat) (hl : l < 32) (hj : j < 32) :
    (g.wr n r l x).v1 k j =
      if j = l ∧ r ≤ k ∧ k < r + n then x / 2 ^ (32 * (k - r)) % 2 ^ 32 else g.v1 k j := by
  induction n generalizing g r x with
  | zero =>
    rw [if_neg (by omega)]
    rfl
  | succ n ih =>
    rw [Group.wr, ih]
    by_cases h1 : j = l ∧ r + 1 ≤ k ∧ k < r + 1 + n
    · rw [if_pos h1, if_pos (by omega), Nat.div_div_eq_div_mul, ← Nat.pow_add,
        show 32 + 32 * (k - (r + 1)) = 32 * (k - r) by omega]
    · rw [if_neg h1, Group.v1]
      simp only [mapGet_mapSet]
      by_cases h2 : j = l ∧ k = r
      · obtain ⟨rfl, rfl⟩ := h2
        rw [if_pos rfl, if_pos (by omega)]
        simp
      · rw [if_neg (by omega), if_neg (by omega)]
        rfl

/-- The registers of an operand in terms of single registers. -/
theorem Group.rd_congr {g g' : Group} (n r l : Nat) (h : ∀ k, r ≤ k → k < r + n → g'.v1 k l = g.v1 k l) :
    g'.rd n r l = g.rd n r l := by
  induction n generalizing r with
  | zero => rfl
  | succ n ih =>
    rw [Group.rd, Group.rd, h r (by omega) (by omega), ih (r + 1) (fun k h1 h2 => h k (by omega) (by omega))]

theorem Group.rd_of_digits (g : Group) (n r l x : Nat)
    (h : ∀ k, r ≤ k → k < r + n → g.v1 k l = x / 2 ^ (32 * (k - r)) % 2 ^ 32) : g.rd n r l = x % 2 ^ (32 * n) := by
  induction n generalizing r x with
  | zero => simp [Group.rd, Nat.mod_one]
  | succ n ih =>
    rw [Group.rd, h r (by omega) (by omega), ih (r + 1) (x / 2 ^ 32) (fun k h1 h2 => by
      rw [h k (by omega) (by omega), Nat.div_div_eq_div_mul, ← Nat.pow_add,
        show 32 + 32 * (k - (r + 1)) = 32 * (k - r) by omega]),
      show 32 * (n + 1) = 32 + 32 * n by ring, Nat.pow_add, Nat.mod_mul]
    simp

theorem Group.wrs_rest (g : Group) (n r : Nat) (ls : List (Nat × Nat)) :
    g.wrs n r ls = { g with v := (g.wrs n r ls).v } := by
  induction ls generalizing g with
  | nil => rfl
  | cons e t ih =>
    rw [show g.wrs n r (e :: t) = (g.wr n r e.1 e.2).wrs n r t from rfl, ih, g.wr_rest]

/-- Values written in the lanes of a list: each lane its own, every other lane and register as before. -/
theorem Group.v1_wrs (g : Group) (n r : Nat) (f : Nat → Nat) (ls : List Nat) (h : ∀ l ∈ ls, l < 32) (k j : Nat) (hj : j < 32) :
    (g.wrs n r (ls.map (fun l => (l, f l)))).v1 k j =
      if j ∈ ls ∧ r ≤ k ∧ k < r + n then f j / 2 ^ (32 * (k - r)) % 2 ^ 32 else g.v1 k j := by
  induction ls generalizing g with
  | nil => simp [Group.wrs]
  | cons a t ih =>
    rw [List.map_cons, show ∀ e l, g.wrs n r (e :: l) = (g.wr n r e.1 e.2).wrs n r l from fun _ _ => rfl,
      ih _ (fun l hl => h l (List.mem_cons_of_mem _ hl)), g.v1_wr n r a (f a) k j (h a (by simp)) hj]
    by_cases h1 : j ∈ t ∧ r ≤ k ∧ k < r + n
    · rw [if_pos h1, if_pos ⟨List.mem_cons_of_mem _ h1.1, h1.2⟩]
    · rw [if_neg h1]
      by_cases h2 : j = a ∧ r ≤ k ∧ k < r + n
      · rw [if_pos h2, if_pos ⟨by simp [h2.1], h2.2⟩, h2.1]
      · rw [if_neg h2, if_neg]
        rintro ⟨h3, h4⟩
        rcases List.mem_cons.mp h3 with h5 | h5
        · exact h2 ⟨h5, h4⟩
        · exact h1 ⟨h5, h4⟩

theorem mem_lanesOf {m : Mask} {l : Nat} : l ∈ lanesOf m ↔ l < 32 ∧ m.getLsbD l = true := by
  simp [lanesOf]

theorem Group.v1_adv (g : Group) (k l : Nat) : g.adv.v1 k l = g.v1 k l := rfl

/-- What a result written in the acting lanes leaves. -/
theorem wrote_wrs (g : Group) (n r : Nat) (m : Mask) (f : Nat → Nat) :
    g.Wrote (g.wrs n r ((lanesOf m).map (fun l => (l, f l)))).adv n r m f := by
  have hv : ∀ k l, l < 32 → (g.wrs n r ((lanesOf m).map (fun l => (l, f l)))).adv.v1 k l =
      if l ∈ lanesOf m ∧ r ≤ k ∧ k < r + n then f l / 2 ^ (32 * (k - r)) % 2 ^ 32 else g.v1 k l := by
    intro k l hl
    rw [Group.v1_adv, g.v1_wrs n r f (lanesOf m) (fun l h => (mem_lanesOf.mp h).1) k l hl]
  constructor
  · rw [g.wrs_rest]
    rfl
  · intro l hl hm
    apply Group.rd_of_digits
    intro k h1 h2
    rw [hv k l hl, if_pos ⟨mem_lanesOf.mpr ⟨hl, hm⟩, h1, h2⟩]
  · intro k l hl h
    rw [hv k l hl, if_neg]
    rintro ⟨h1, h2⟩
    exact h ⟨(mem_lanesOf.mp h1).2, h2⟩

theorem Group.Wrote.congr {g g' : Group} {n r : Nat} {m : Mask} {f f' : Nat → Nat} (h : g.Wrote g' n r m f)
    (e : ∀ l, l < 32 → m.getLsbD l = true → f l = f' l) : g.Wrote g' n r m f' where
  rest := h.rest
  done := fun l hl hm => by rw [h.done l hl hm, e l hl hm]
  other := h.other

/-- The kernel of a cell rests on its thread blocks and the kernels alone. -/
theorem State.cellKernel_congr {s s' : State} {c : Nat} (h : (s'.cell c).tbs = (s.cell c).tbs) (hk : s'.kernels = s.kernels) :
    s'.cellKernel c = s.cellKernel c := by
  unfold State.cellKernel
  rw [h]
  split
  · rfl
  · unfold State.kernel?
    rw [hk]

/-- An instruction leaves the kernel of its cell. -/
theorem State.cellKernel_issued (s : State) (t : GTgt) (g g' : Group) (n : Nat) :
    ((s.issued (cellNo t.cell) t.slot.val g n).setGroup (cellNo t.cell) t.slot.val g').cellKernel (cellNo t.cell) =
      s.cellKernel (cellNo t.cell) := by
  apply State.cellKernel_congr
  · rw [State.setGroup, State.cell_modCell_self, State.cell_issued_self]
  · rw [State.issued_only]
    rfl

theorem State.cellKernel_issued' (s : State) (t : GTgt) (g : Group) (n : Nat) :
    (s.issued (cellNo t.cell) t.slot.val g n).cellKernel (cellNo t.cell) = s.cellKernel (cellNo t.cell) := by
  apply State.cellKernel_congr
  · rw [State.cell_issued_self]
  · rw [State.issued_only]
    rfl

theorem State.freeAt_issued (s : State) (c k l : Nat) (g : Group) (n : Nat) :
    (s.issued c k g n).freeAt l = s.freeAt l := by
  simp only [State.freeAt]
  rw [State.issued_only]
  rfl

/-- A result written by an instruction that R314 meters. -/
theorem onlyGroup_vecOps (s : State) (t : GTgt) (g g' : Group) (n : Nat) (m : Mask) (two : Bool) :
    s.OnlyGroup (((s.issued (cellNo t.cell) t.slot.val g n).setGroup (cellNo t.cell) t.slot.val g').vecOps
      (cellNo t.cell) m two) t g' ((lanesOf m).length * (if two then 2 else 1)) 0 n := by
  unfold State.vecOps
  rw [show ((s.issued (cellNo t.cell) t.slot.val g n).setGroup (cellNo t.cell) t.slot.val g').cellAcct (cellNo t.cell) =
    s.cellAcct (cellNo t.cell) by rw [State.cellAcct, State.cellKernel_issued, State.cellAcct]]
  exact (onlyGroup_setGroup s t g g' n).metered _

/-- The executed lanes of an F0/F1 operation, once the group is ready and the form is legal. -/
theorem alu_runs {s : State} {t : GTgt} {i : AluI} {p : AluSpec} {g : Group} (hg : s.groupNow t = some g)
    (hc : s.canIssue t (p.uses i.g i.f) false (p.iter (aluOps i.f).mod) = true) (hk : guardOk i.g = true)
    (hl : p.legal i.f = true) (hr : p.range i.f = false) :
    ∃ g', s.OnlyGroup (s.alu t i p) t g' ((lanesOf (g.acting i.g)).length * (if p.two then 2 else 1))
        (if p.free then 32 else 0) (p.iter (aluOps i.f).mod) ∧
      g.Wrote g' (p.wd (aluOps i.f).mod (aluOps i.f).sub) (aluOps i.f).vd (g.acting i.g)
        (fun l => p.lane (aluOps i.f) g (s.freeAt l) l) := by
  let a := aluArg i.g (p.legal i.f) (p.range i.f) (p.uses i.g i.f) (p.iter (aluOps i.f).mod)
  have hb : a.bad = none := by simp [a, aluArg, hk, hl, hr, badIf, firstBad]
  have ht : a.tokens = p.iter (aluOps i.f).mod := by simp only [IssueArg.tokens, hb]; rfl
  refine ⟨_, ?_, wrote_wrs g _ _ (g.acting i.g) _⟩
  rw [State.alu, issue_runs (a := a) _ hg (ht.symm ▸ hc) hb rfl rfl, ht]
  simp only [State.freeAt_issued]
  have h := onlyGroup_vecOps s t g ((g.wrs (p.wd (aluOps i.f).mod (aluOps i.f).sub) (aluOps i.f).vd
    ((lanesOf (g.acting i.g)).map (fun l => (l, p.lane (aluOps i.f) g (s.freeAt l) l)))).adv)
    (p.iter (aluOps i.f).mod) (g.acting i.g) p.two
  split
  · exact Nat.zero_add 32 ▸ h.drew 32
  · exact h

end Sys2Proof.Machine
end

