-- ==== Sys2Proof/Laws/Memory.lean ====
section
/-!
SUPPORT. The canonical form of the memories: reset has it, and every operation that writes a memory keeps it.
-/

namespace Sys2Proof.Machine

variable {s t : State}

theorem State.memWf_iff : s.memWf = true ↔
    mapWf 0 s.mem = true ∧ mapWf 0 s.check = true ∧ mapWf 0 s.full = true ∧ mapWf 0 s.hostMem = true := by
  simp [State.memWf, and_assoc]

/-- An operation that leaves the four memories as they are keeps their form. -/
theorem State.memWf_congr (h1 : t.mem = s.mem) (h2 : t.check = s.check) (h3 : t.full = s.full) (h4 : t.hostMem = s.hostMem)
    (h : s.memWf = true) : t.memWf = true := by simpa [State.memWf, h1, h2, h3, h4] using h

theorem State.memWf_reset : State.reset.memWf = true := by decide

@[simp] theorem State.memWf_setFld (f : Fld) (i v : Nat) : (s.setFld f i v).memWf = s.memWf := rfl

/-- An operation done for each of a list keeps the form when each does. -/
theorem State.memWf_each {α : Type} (f : State → α → State) (l : List α)
    (hf : ∀ (s : State) a, s.memWf = true → (f s a).memWf = true) (h : s.memWf = true) : (s.each l f).memWf = true := by
  induction l generalizing s with
  | nil => exact h
  | cons a l ih => exact ih (hf s a h)

/-- Whatever `f` leaves alone at each member of a list, the whole leaves alone. -/
theorem State.each_same {α β : Type} (f : State → α → State) (l : List α) (get : State → β)
    (hf : ∀ s a, get (f s a) = get s) : get (s.each l f) = get s := by
  induction l generalizing s with
  | nil => rfl
  | cons a l ih => exact (ih (s := f s a)).trans (hf s a)

/-! ### Maps -/

/-- What is in a part of a map is in the map. -/
theorem mem_mapRange {α : Type} {m : NMap α} {lo hi : Nat} {e : Nat × α} (h : e ∈ mapRange m lo hi) : e ∈ m := by
  unfold mapRange at h
  exact (List.mem_filter.mp h).1

theorem mapWf_foldIns {α β : Type} [DecidableEq α] (d : α) (f : β → Nat × α) (l : List β) (hl : ∀ e ∈ l, (f e).2 ≠ d)
    (m : NMap α) (h : mapWf d m = true) : mapWf d (l.foldl (fun a e => mapIns a (f e).1 (f e).2) m) = true := by
  induction l generalizing m with
  | nil => exact h
  | cons e l ih =>
    refine ih (fun x hx => hl x (.tail _ hx)) _ ?_
    rw [mapWf_iff] at h ⊢
    refine ⟨mapSorted_mapIns m _ _ h.1, fun x hx => ?_⟩
    rcases mem_mapIns hx with rfl | hx
    · exact hl e (.head _)
    · exact h.2 x hx

/-- R251: a range copied elsewhere. -/
theorem mapWf_mapMove {α : Type} [DecidableEq α] (d : α) (m : NMap α) (src dst n : Nat) (h : mapWf d m = true) :
    mapWf d (mapMove m src dst n) = true :=
  mapWf_foldIns d (fun e : Nat × α => (e.1 - src + dst, e.2)) _
    (fun e he => ((mapWf_iff d m).mp h).2 e (mem_mapRange he)) _ (mapWf_mapClear d m _ _ h)

theorem mapWf_foldIf {β : Type} (c : β → Bool) (f : β → Nat × Byte) (l : List β) (m : NMap Byte) (h : mapWf 0 m = true) :
    mapWf 0 (l.foldl (fun m e => if c e then m else mapSet 0 m (f e).1 (f e).2) m) = true := by
  induction l generalizing m with
  | nil => exact h
  | cons e l ih =>
    refine ih _ ?_
    dsimp only
    split
    · exact h
    · exact mapWf_mapSet 0 m _ _ h

/-! ### Device memory and its shadows -/

/-- R251: a page's lines made dirty in its migration touch no memory. -/
theorem State.migTouch_only (d n : Nat) : s.migTouch d n = { s with migs := (s.migTouch d n).migs } := by
  unfold State.migTouch
  generalize List.range _ = l
  induction l generalizing s with
  | nil => rfl
  | cons a l ih => exact (ih (s := s.migDirty (d / 65536) ((d / 128 + a) % 512))).trans rfl

theorem State.memWf_putDev (d : Nat) (bs : List Byte) (w : Who) (h : s.memWf = true) : (s.putDev d bs w).memWf = true := by
  unfold State.putDev
  split
  · exact h
  · split
    · rename_i k _
      have h1 (bad : List Nat) : ({ s with mem := putBytes s.mem k bs, badLines := bad } : State).memWf = true := by
        rw [State.memWf_iff] at h ⊢
        exact ⟨mapWf_putBytes s.mem k bs h.1, h.2⟩
      dsimp only
      rw [State.migTouch_only]
      exact h1 s.badLines
    · exact h

/-- R238: a look-up in the location cache touches its miss count and the cache alone. -/
theorem State.lookupLoc_only (dpn : Nat) :
    s.lookupLoc dpn = { s with regs := (s.lookupLoc dpn).regs, lcache := (s.lookupLoc dpn).lcache } := by
  unfold State.lookupLoc
  dsimp only
  split
  · rfl
  · rfl

theorem State.memWf_setChk (d e : Nat) (h : s.memWf = true) : (s.setChk d e).memWf = true := by
  unfold State.setChk
  dsimp only
  split
  · split
    · exact h
    · rw [State.lookupLoc_only]
      rw [State.memWf_iff] at h ⊢
      exact ⟨h.1, mapWf_mapSet 0 s.check _ _ h.2.1, h.2.2⟩
  · exact h

theorem State.memWf_setFull (d : Nat) (v : Bool) (h : s.memWf = true) : (s.setFull d v).memWf = true := by
  unfold State.setFull
  split
  · rw [State.memWf_iff] at h ⊢
    exact ⟨h.1, h.2.1, mapWf_mapSet 0 s.full _ _ h.2.2.1, h.2.2.2⟩
  · exact h

theorem State.memWf_copyLine (fs fd line : Nat) (h : s.memWf = true) : (s.copyLine fs fd line).memWf = true := by
  rw [State.memWf_iff] at h ⊢
  unfold State.copyLine
  split
  · exact ⟨mapWf_mapMove 0 s.mem _ _ _ h.1, h.2⟩
  · split
    · exact ⟨h.1, mapWf_mapMove 0 s.check _ _ _ h.2.1, h.2.2⟩
    · exact ⟨h.1, h.2.1, mapWf_mapMove 0 s.full _ _ _ h.2.2.1, h.2.2.2⟩

theorem State.memWf_copyPage (fs fd : Nat) (h : s.memWf = true) : (s.copyPage fs fd).memWf = true := by
  rw [State.memWf_iff] at h ⊢
  exact ⟨mapWf_mapMove 0 s.mem _ _ _ h.1, mapWf_mapMove 0 s.check _ _ _ h.2.1, mapWf_mapMove 0 s.full _ _ _ h.2.2.1, h.2.2.2⟩

theorem State.memWf_clearFrame (k : Nat) (h : s.memWf = true) : (s.clearFrame k).memWf = true := by
  rw [State.memWf_iff] at h ⊢
  exact ⟨mapWf_mapClear 0 s.mem _ _ h.1, mapWf_mapClear 0 s.check _ _ h.2.1, mapWf_mapClear 0 s.full _ _ h.2.2.1, h.2.2.2⟩

theorem State.memWf_clearLoc (l : Nat) (h : s.memWf = true) : (s.clearLoc l).memWf = true := by
  rw [State.memWf_iff] at h ⊢
  exact ⟨mapWf_mapClear 0 s.mem _ _ h.1, mapWf_mapClear 0 s.check _ _ h.2.1, mapWf_mapClear 0 s.full _ _ h.2.2.1, h.2.2.2⟩

/-! ### Host memory -/

theorem State.memWf_hostLineBack (a : Nat) (h : s.memWf = true) : (s.hostLineBack a).memWf = true := by
  rw [State.memWf_iff] at h ⊢
  exact ⟨h.1, h.2.1, h.2.2.1, mapWf_foldSet 0 (fun e : Nat × Byte => e) _ s.hostMem h.2.2.2⟩

theorem State.memWf_wrCur (a : Nat) (bs : List Byte) (h : s.memWf = true) : (s.wrCur a bs).memWf = true := by
  unfold State.wrCur
  split
  · exact h
  · rw [State.memWf_iff] at h ⊢
    exact ⟨h.1, h.2.1, h.2.2.1, mapWf_putBytes s.hostMem a bs h.2.2.2⟩

theorem State.memWf_hostFlush (h : s.memWf = true) : s.hostFlush.memWf = true := by
  unfold State.hostFlush
  refine State.memWf_each _ _ (fun _ _ h => h) ?_
  rw [State.memWf_iff] at h ⊢
  exact ⟨h.1, h.2.1, h.2.2.1, mapWf_foldSet 0 (fun e : Nat × Byte => e) _ s.hostMem h.2.2.2⟩

theorem State.memWf_hostBack (code die : Nat) (h : s.memWf = true) : (s.hostBack code die).memWf = true := by
  rw [State.memWf_iff] at h ⊢
  refine ⟨h.1, h.2.1, h.2.2.1, ?_⟩
  show mapWf 0 (if s.hostUp then _ else s.hostMem) = true
  split
  · exact mapWf_foldIf _ (fun e : Nat × Byte => e) _ s.hostMem h.2.2.2
  · exact h.2.2.2

/-! ### The dump (R431 to R435) -/

/-- What each element of a list does to a memory keeps its form. -/
theorem mapWf_foldKeep {α : Type} (f : NMap Byte → α → NMap Byte) (hf : ∀ m a, mapWf 0 m = true → mapWf 0 (f m a) = true)
    (l : List α) (m : NMap Byte) (h : mapWf 0 m = true) : mapWf 0 (l.foldl f m) = true := by
  induction l generalizing m with
  | nil => exact h
  | cons a l ih => exact ih _ (hf m a h)

theorem State.mapWf_sliceTo (k base : Nat) (m : NMap Byte) (h : mapWf 0 m = true) : mapWf 0 (s.sliceTo k base m) = true := by
  refine mapWf_foldKeep _ (fun m e h => ?_) _ _ (mapWf_mapClear 0 m base (base + 2 ^ 29) h)
  split
  · exact mapWf_putBytes m _ _ h
  · exact h

theorem State.mapWf_primaryTo (head : List Byte) (base room : Nat) (m : NMap Byte) (h : mapWf 0 m = true) :
    mapWf 0 (s.primaryTo head base room m) = true :=
  mapWf_foldKeep _ (fun m _ h => mapWf_putBytes m _ _ h) _ _ (mapWf_putBytes m _ _ h)

theorem State.mapWf_pieceTo (present : Nat) (primary : Bool) (k site : Nat) (m : NMap Byte) (h : mapWf 0 m = true) :
    mapWf 0 (s.pieceTo present primary k site m) = true := by
  have h0 := mapWf_mapClear 0 m (pieceBase site) (pieceBase site + 2 ^ 30) h
  unfold State.pieceTo
  dsimp only
  split <;> split
  · exact State.mapWf_sliceTo _ _ _ (State.mapWf_primaryTo _ _ _ _ h0)
  · exact State.mapWf_sliceTo _ _ _ (mapWf_putBytes _ _ _ h0)
  · exact State.mapWf_primaryTo _ _ _ _ h0
  · exact mapWf_putBytes _ _ _ h0

theorem State.memWf_hostCopy (sites : NMap Nat) (n : Nat) (h : s.memWf = true) : (s.hostCopy sites n).memWf = true := by
  unfold State.hostCopy
  split
  · exact h
  · dsimp only
    rw [State.setFlds_only]
    show State.memWf { s with hostMem := _ } = true
    rw [State.memWf_iff] at h ⊢
    refine ⟨h.1, h.2.1, h.2.2.1, mapWf_foldKeep _ (fun m k h => ?_) _ _ (State.mapWf_primaryTo _ _ _ _ h.2.2.2)⟩
    split
    · exact h
    · exact State.mapWf_sliceTo _ _ _ h

theorem State.memWf_december (h : s.memWf = true) : s.december.memWf = true := by
  have hm : mapWf 0 (s.pieceSites.foldl
      (fun m e => s.pieceTo ((s.pieceSites.map (·.1)).map (2 ^ ·)).sum (some e == s.pieceSites.head?) e.1 e.2 m) s.mem) = true :=
    mapWf_foldKeep _ (fun m e h => State.mapWf_pieceTo _ _ _ _ _ h) _ _ (State.memWf_iff.1 h).1
  have hc := State.memWf_iff.1 (State.memWf_hostCopy s.pieceSites ((s.pieceSites.map (·.1)).map (2 ^ ·)).sum h)
  unfold State.december
  dsimp only
  split
  · rw [State.memWf_iff]
    exact ⟨hm, hc.2⟩
  · unfold State.event
    split
    · rw [State.memWf_iff]
      exact ⟨hm, hc.2⟩
    · rw [State.memWf_iff]
      exact ⟨hm, hc.2⟩

/-! ### Lost stores (R429) -/

theorem State.memWf_chkNonTile (d : Nat) (h : s.memWf = true) : (s.chkNonTile d).memWf = true := by
  unfold State.chkNonTile
  dsimp only
  split
  · exact State.memWf_setChk _ _ h
  · split
    · exact State.memWf_setChk _ _ h
    · exact h

theorem State.memWf_chkNonTiles (d n : Nat) (h : s.memWf = true) : (s.chkNonTiles d n).memWf = true :=
  State.memWf_each _ _ (fun _ _ h => State.memWf_chkNonTile _ h) h

theorem State.memWf_landed (t : Target) (bs : List Byte) (h : s.memWf = true) : (s.landed t bs).memWf = true := by
  unfold State.landed
  split
  · split
    · exact State.memWf_chkNonTiles _ _ (State.memWf_putDev _ _ _ h)
    · exact h
  · exact State.memWf_wrCur _ _ h
  · exact h

/-- Whatever part of a lost store lands, the memories keep their form. -/
theorem State.memWf_mayLand (m : NMap Byte) (h : s.memWf = true) : (s.mayLand m).memWf = true :=
  State.memWf_each _ _ (fun t e h => by
    split
    · exact State.memWf_each _ _ (fun _ _ h => State.memWf_landed _ _ h) h
    · exact h) h

/-- Nothing is left open about a store with no bytes here. -/
@[simp] theorem State.mayLand_nil : s.mayLand [] = s := rfl

/-! ### Resets -/

theorem State.memWf_chipReset (h : s.memWf = true) : s.chipReset.memWf = true := by
  rw [State.memWf_iff] at h ⊢
  exact ⟨rfl, rfl, rfl, h.2.2.2⟩

theorem State.memWf_powerLoss (h : s.memWf = true) : s.powerLoss.memWf = true := by
  have h1 := State.memWf_chipReset h
  have h2 : (State.fuseMaps { s.chipReset with regs := [], later := (none, none) }).memWf = true :=
    State.memWf_each _ _ (fun t e h => by
      rw [State.setFlds_only]
      exact h) h1
  exact h2

end Sys2Proof.Machine
end

