-- ==== Sys2Proof/Laws/Packets.lean ====
section
/-!
SUPPORT. What the arbitration of R269 to R283 does with a packet's command, said once: its operation gets what
`State.taken` names; a packet that is not there, of another kind, with a failed dependence, or not startable has the
effect the rule gives it.
-/

namespace Sys2Proof.Machine

/-- R269, R270, R281: a packet that its engine takes, or that is carried on, is performed on what `taken` names. -/
theorem State.perform_taken {s s1 : State} {q seq : Nat} {kind : Pkt → Bool} {p : Pkt}
    (h : s.taken q seq kind = some (s1, p)) (go : State → Pkt → State) : s.perform q seq kind go = go s1 p := by
  unfold State.taken at h
  unfold State.perform
  cases hp : s.pkt q seq with
  | none => simp [hp] at h
  | some x =>
    simp only [hp] at h ⊢
    by_cases h1 : (!s.ready || !kind x) = true
    · simp [h1] at h
    · simp only [h1, Bool.false_eq_true, if_false] at h ⊢
      by_cases h2 : s.carriesOn x = true
      · simp only [h2, if_true, Option.some.injEq, Prod.mk.injEq] at h
        obtain ⟨rfl, rfl⟩ := h
        simp only [h2, if_true]
      · simp only [h2, Bool.false_eq_true, if_false] at h ⊢
        by_cases h3 : x.st = .fetched
        case neg => simp [h3] at h
        by_cases h4 : s.qState q = qActive
        case neg => simp [h4] at h
        cases h5 : s.depFailed x with
        | some f => simp [h5] at h
        | none =>
          simp only [h3, h4, h5, bne_self_eq_false, Option.isSome_none, Bool.false_eq_true, if_false,
            Bool.or_self] at h ⊢
          revert h
          cases (x.cls.bind fun c => (s.markStartable.engineOf c).map fun e => (c, e)) with
          | none => simp
          | some ce =>
            simp only
            by_cases h6 : ((s.markStartable.choose ce.1 ce.2).map (fun x => (x.q, x.seq)) != some (q, seq)) = true
            · simp [h6]
            · simp only [h6, Bool.false_eq_true, if_false]
              cases ((s.markStartable.takePkt x ce.2).pkt q seq) with
              | none => simp
              | some y =>
                simp only [Option.map_some, Option.some.injEq, Prod.mk.injEq, and_imp]
                rintro rfl rfl; rfl

theorem State.perform_none {s : State} {q seq : Nat} (h : s.pkt q seq = none) (kind : Pkt → Bool)
    (go : State → Pkt → State) : s.perform q seq kind go = s := by
  simp [State.perform, h]

theorem State.perform_other {s : State} {q seq : Nat} {kind : Pkt → Bool} {p : Pkt} (h : s.pkt q seq = some p)
    (hk : s.ready = false ∨ kind p = false) (go : State → Pkt → State) : s.perform q seq kind go = s := by
  rcases hk with hk | hk <;> simp [State.perform, h, hk]

/-- R269: a packet that waits on a step known to have failed completes with DEP_FAILED. -/
theorem State.perform_depFailed {s : State} {q seq : Nat} {kind : Pkt → Bool} {p : Pkt} {f : StepFail}
    (h : s.pkt q seq = some p) (hr : s.ready = true) (hk : kind p = true) (hc : s.carriesOn p = false)
    (hs : p.st = .fetched) (hq : s.qState q = qActive) (hf : s.depFailed p = some f) (go : State → Pkt → State) :
    s.perform q seq kind go = s.finishPkt p fcDepFailed f.fstep false false := by
  simp [State.perform, h, hr, hk, hc, hs, hq, hf]

end Sys2Proof.Machine
end

