-- ==== Sys2Proof/WellFormed.lean ====
section
/-!
DEFINITION. Well-formed commands: operands within what the spec gives them. The meanings are total, and ill-formed
operands have no effect of their own; a command that the device's environment sends is well-formed.
-/

namespace Sys2Proof

/-- A host line of 128 bytes of the 52-bit host address space (R332). -/
def lineOk (line : Nat) : Bool := decide (line < 2 ^ 45)

/-- A host physical address (R333). -/
def hpaOk (hpa : Nat) : Bool := decide (hpa < 2 ^ 52)

/-- Bytes of a host write, within one 64-byte line (R333). -/
def dataOk (hpa : Nat) (data : List Byte) : Bool := !data.isEmpty && decide (hpa % 64 + data.length ≤ 64)

/-- A device page number, 28 bits of the 44-bit device address (R218). -/
def dpnOk (dpn : Nat) : Bool := decide (dpn < 2 ^ 28)

/-- The size and alignment of a register access (R11). -/
def sizeOk (off size : Nat) : Bool := (size == 4 || size == 8) && off % size == 0

/-- A link sequence number (R346). -/
def seqOk (lseq : Nat) : Bool := decide (lseq < 2 ^ 32)

/-- The sequence number of a packet, from 1 on (R267). -/
def seqNoOk (seq : Nat) : Bool := decide (0 < seq) && decide (seq < 2 ^ 64)

/-- A width of the host link (R319). -/
def lanesOk (lanes : Nat) : Bool := ([1, 2, 4, 8, 16] : List Nat).contains lanes

/-- A die, numbered as RAS_FATAL numbers it (R430). -/
def dieOk (die : Nat) : Bool := decide (die < 40)

/-- A frame's payload (R346). -/
def Frame.wf (f : Frame) : Bool := decide (f.data.length ≤ 4096)

/-- Well-formed commands. -/
def Instr.wf : Instr → Bool
  | .iadd _ _ | .isub _ _ | .imul _ _ | .imulhi _ _ | .imad _ _ | .imin _ _ | .imax _ _ | .iabs _ _
  | .land _ _ | .lor _ _ | .xor _ _ | .lnot _ _ | .shl _ _ | .shr _ _ | .sar _ _ | .popc _ _ | .clz _ _
  | .brev _ _ | .mov _ _ | .bfe _ _ | .bfi _ _ | .fadd _ _ | .fmul _ _ | .ffma _ _ | .fmin _ _ | .fmax _ _
  | .fabs _ _ | .fneg _ _ | .frcp _ _ | .frsq _ _ | .fsqrt _ _ | .fexp2 _ _ | .flog2 _ _ | .fsin _ _
  | .fcos _ _ | .ffma2 _ _ | .hadd2 _ _ | .hmul2 _ _ | .hfma2 _ _ | .hmin2 _ _ | .hmax2 _ _ | .dadd _ _
  | .dmul _ _ | .dfma _ _ | .dmin _ _ | .dmax _ _ | .drcp _ _ | .drsq _ _ | .dsqrt _ _ | .cvt _ _ | .shfl _ _
  | .sel _ _ | .s2v _ _ | .u2v _ _ | .v2u _ _ | .ld _ _ | .st _ _ | .stnt _ _ | .lds _ _ | .sts _ _
  | .ldres _ _ | .stcond _ _ | .atomAdd _ _ | .atomMin _ _ | .atomMax _ _ | .atomAnd _ _ | .atomOr _ _
  | .atomXor _ _ | .atomExch _ _ | .atomCas _ _ | .atomFadd _ _ | .feTake _ _ | .fePeek _ _ | .fePut _ _
  | .feUpdate _ _ | .feClear _ _ | .icmp _ _ | .fcmp _ _ | .dcmp _ _ | .plogic _ _ | .pany _ _ | .pall _ _
  | .pmask _ _ | .br _ _ | .call _ _ | .ret _ _ | .exit _ _ | .barSync _ _ | .bkpt _ _ | .nopInstruction _ _
  | .umov _ _ | .uadd _ _ | .uaddi _ _ | .uld _ _ | .s2u _ _ | .tappendA _ _ | .tappendX _ _ | .twaitA _ _
  | .twaitX _ _ | .membarCell _ _ | .membarDevice _ _ | .membarSystem _ _ | .membarFabric _ _ | .icinv _ _
  | .l1inv _ _ | .memoryReply _ _ | .feResend _ _ | .feWaitTimeout _ _ | .watchdog _ => true
  | .combiningEntryIdleFlush _ line => decide (line < 2 ^ 50)
  | .deadTargetTimeout _ _ | .haltReport _ | .threadBlockPlacement | .threadBlockRetire _ _ | .kernelEnd _
  | .kernelRetire _ | .sync _ _ _ | .mend _ _ _ | .jump _ _ _ | .mloop _ _ _ | .setc _ _ _ | .setd _ _ _
  | .dadv _ _ _ | .seta _ _ _ | .aadv _ _ _ | .append _ _ _ | .tload _ _ _ | .tstore _ _ _ | .tgather _ _ _
  | .tverify _ _ _ | .mma _ _ _ | .accst _ _ _ | .accld _ _ _ | .elem _ _ _ | .reduce _ _ _ | .lut _ _ _
  | .tblld _ _ _ | .macroOpCompletion _ _ _ | .macroOpRetirement _ _ _ _ => true
  | .snpdata line | .snpinv line | .snpcur line | .birsp line _ => lineOk line
  | .memrd hpa _ _ => hpaOk hpa
  | .memwr hpa data => hpaOk hpa && dataOk hpa data
  | .cacheWritebackAndInvalidate => true
  | .hdmDecoderCommit base _ _ => hpaOk base
  | .heatScan dpn => dpnOk dpn
  | .migrationStart _ => true
  | .migrationPassEnd dpn _ => dpnOk dpn
  | .frameZeroed loc frame => decide (loc < 16) && decide (frame < 2 ^ 26)
  | .farTierClear _ | .evacuationComplete _ => true
  | .refresh _ _ die bank => decide (die < 4) && decide (bank < 16)
  | .retrain _ _ _ _ => true
  | .patrol _ addr _ => decide (addr < 2 ^ 36)
  | .scrub _ line _ => decide (line < 2 ^ 46)
  | .farPortFailure _ _ => true
  | .cxlMemTimeout _ exp => decide (exp < 8)
  | .memdata _ _ | .expanderInsertion _ _ | .pmcSelWrite _ _ _ | .pmcClear _ | .pmcSnapshot _ | .offlineReq _
  | .onlineReq _ _ | .bootqEnable | .bootqResume _ | .bootqReset | .fenceForce _ _ | .siteEvacuate _
  | .siteReset _ _ | .sitePowerDown _ | .sitePowerUp _ _ | .farPortEvacuate _ | .farPortPowerDown _
  | .farPortReset _ _ | .farPortPowerUp _ _ | .silitPortReset _ _ | .silitPortPowerDown _
  | .silitPortPowerUp _ _ | .mbxBegin _ _ _ | .chunk _ _ | .finish _ | .mbxAbort | .disarm | .januaryNext _
  | .restart _ => true
  | .msixUnmask v => decide (v < 2048)
  | .registerWrite _ off size _ _ => sizeOk off size
  | .rejectedAccess _ _ size _ => decide (size ≤ 64)
  | .doorbell _ _ | .fetchRun _ => true
  | .launch _ seq | .copyPkt _ seq | .fill _ seq => seqNoOk seq
  | .copyPieceDone _ _ => true
  | .fenceSignal _ seq | .fenceWait _ seq | .feWait _ seq | .placeHint _ seq | .timestamp _ seq
  | .markPkt _ seq | .membar _ seq | .allReduce _ seq | .reduceScatter _ seq | .allGather _ seq
  | .broadcast _ seq | .barrier _ seq | .invalidate _ seq | .nopPkt _ seq | .chain _ seq
  | .mapUpdateInvalidate _ seq | .dpnAlloc _ seq | .dpnFree _ seq | .setRoot _ seq | .ascCreate _ seq
  | .ascDestroy _ seq | .queueCreate _ seq | .queueDestroy _ seq | .queueStop _ seq | .queueStart _ seq
  | .queueResume _ seq | .queueReset _ seq | .assign _ seq | .clear _ seq | .prioSet _ seq | .placePin _ seq
  | .isolate _ seq | .regionReset _ seq _ | .selftest _ seq _ | .quarantine _ seq | .regionPowerDown _ seq
  | .regionPowerUp _ seq _ | .dumpSync _ seq | .powerCap _ seq | .fwStage _ seq _ | .fwActivate _ seq _
  | .regWrite _ seq => seqNoOk seq
  | .completionRecordWrite _ | .recordWriteAck _ | .budgetExpiry _ => true
  | .fenceWaitTimeout _ seq | .feWaitExpired _ seq | .collTimeout _ seq => seqNoOk seq
  | .rdReq _ f | .rdRsp _ f | .wrReq _ f | .wrAck _ f | .atomReq _ f | .atomRsp _ f | .feReq _ f | .feRsp _ f
  | .feWithdraw _ f | .fenceSig _ f | .fenceAck _ f | .collData _ f | .collCredit _ f | .collAbort _ f
  | .fwRelayStart _ f | .fwRelayData _ f | .fwRelayEnd _ f _ | .fwRelayActivate _ f _ | .probe _ f => f.wf
  | .nak _ _ lseq => seqOk lseq
  | .retransmissionTimer _ _ | .lackStall _ | .silitRetrainTimeout _ | .portTrainingRetry _ _ | .ptpSync _ _
  | .announce _ _ | .delayResp _ _ | .syncLoss | .perstAssert | .chipResetRelease _ | .januaryFlashPoll
  | .pwrgoodFall | .hotReset | .secondaryBusReset | .linkDisable | .surpriseLinkDown | .flr | .cxlReset _
  | .d3hotEntry | .d3hotToD0 => true
  | .hostLinkTrained _ lanes _ => lanesOk lanes
  | .doeDiscovery _ _ | .tableAccess _ | .doeAbort _ | .getVersion _ | .getCapabilities _
  | .negotiateAlgorithms _ | .getDigests _ | .getCertificate _ _ _ _ => true
  | .challenge _ _ nonce => nonce.length == 32
  | .getMeasurements _ _ nonce => nonce.isEmpty || nonce.length == 32
  | .armedInstant | .diesStarted | .dieStartTimeout => true
  | .d2dLinkFailure die => dieOk die
  | .regionNetworkError _ | .regionManagerSilent _ | .regionSlow _ => true
  | .fwFault die => dieOk die
  | .ctlWatchdog => true
  | .tokenRateMeasure _ m => m.length == 4
  | .powerManagerTick _ => true
  | .energySplit _ => true
  | .powerSample | .beat => true
  | .sensorSample m => m.all (fun x => decide (x.1 < 128))
  | .pwrBrakeAssert | .pwrBrakeRelease | .pwroffReq | .setEndpointId _ | .setEventReceiver _ => true
  | .pldmSensorRead id | .pldmEffecterSet id _ => decide (id < 65536)
  | .eventAcknowledge | .extest | .idcode | .samplePreload _ _ | .clamp | .highz | .extestPulse | .extestTrain => true
  | .bypass c => !([0x00, 0x01, 0x02, 0x03, 0x04, 0x09, 0x0A] : List (BitVec 8)).contains c
  | .dieInternalError die => dieOk die
  | .ndrCmp _ _ => true
  | .expanderEventRecord _ exp => decide (exp < 8)
  | .controlUnit _ lack _ cr0 cr1 => seqOk lack && decide (cr0 < 65536) && decide (cr1 < 65536)
  | .silitPortUp _ _ | .farTierLinkUp _ _ | .followUp _ _ | .delayReq _ | .lldp _ => true
  | .pfc _ prio _ => decide (prio < 8)
  | .temperatureReading _ _ _ _ | .testLogicReset | .pwroffReqNRelease => true

end Sys2Proof
end

