-- ==== Sys2Proof/Tests/Slice0.lean ====
section
/-!
SUPPORT. Tests: ill-formed commands are refused by every check of `Instr.wf`; words written out from R49 to R52, R79 and
R80 decode to their instruction; single commands on small states, with results worked out from the rules by hand; and
states that meet the hypotheses of the statements.
-/

namespace Sys2Proof.Tests

open Sys2Proof Sys2Proof.Machine

set_option Elab.async false

/-! ### Well-formed commands -/

theorem test_wf_line : Instr.wf (.snpinv (2 ^ 45 - 1)) = true ∧ Instr.wf (.snpinv (2 ^ 45)) = false ∧
    Instr.wf (.snpdata (2 ^ 45)) = false ∧ Instr.wf (.snpcur (2 ^ 45)) = false ∧ Instr.wf (.birsp (2 ^ 45) none) = false := by
  decide
theorem test_wf_hpa : Instr.wf (.memrd (2 ^ 52 - 64) false .clean) = true ∧ Instr.wf (.memrd (2 ^ 52) false .clean) = false ∧
    Instr.wf (.hdmDecoderCommit (2 ^ 52) 0 0) = false := by decide
theorem test_wf_memwr : Instr.wf (.memwr 60 [1, 2, 3, 4]) = true ∧ Instr.wf (.memwr 61 [1, 2, 3, 4]) = false ∧
    Instr.wf (.memwr 60 []) = false ∧ Instr.wf (.memwr (2 ^ 52) [1]) = false := by decide
theorem test_wf_dpn : Instr.wf (.heatScan (2 ^ 28 - 1)) = true ∧ Instr.wf (.heatScan (2 ^ 28)) = false ∧
    Instr.wf (.migrationPassEnd (2 ^ 28) .clean) = false := by decide
theorem test_wf_frame_zeroed : Instr.wf (.frameZeroed 15 5) = true ∧ Instr.wf (.frameZeroed 16 5) = false ∧
    Instr.wf (.frameZeroed 0 (2 ^ 26)) = false := by decide
theorem test_wf_refresh : Instr.wf (.refresh 0 0 3 15) = true ∧ Instr.wf (.refresh 0 0 4 0) = false ∧
    Instr.wf (.refresh 0 0 0 16) = false := by decide
theorem test_wf_addresses : Instr.wf (.patrol 0 (2 ^ 36) .clean) = false ∧ Instr.wf (.scrub 0 (2 ^ 46) .clean) = false ∧
    Instr.wf (.combiningEntryIdleFlush ⟨0, 0, 0⟩ (2 ^ 50)) = false := by decide
theorem test_wf_expander : Instr.wf (.cxlMemTimeout 0 7) = true ∧ Instr.wf (.cxlMemTimeout 0 8) = false ∧
    Instr.wf (.expanderEventRecord 0 8) = false := by decide
theorem test_wf_register : Instr.wf (.registerWrite .bar0 8 4 0 false) = true ∧
    Instr.wf (.registerWrite .bar0 8 2 0 false) = false ∧ Instr.wf (.registerWrite .bar0 4 8 0 false) = false ∧
    Instr.wf (.rejectedAccess .bar0 0 65 true) = false ∧ Instr.wf (.msixUnmask 2048) = false := by decide
theorem test_wf_seq : Instr.wf (.launch 0 1) = true ∧ Instr.wf (.launch 0 0) = false ∧
    Instr.wf (.regWrite 0 (2 ^ 64)) = false ∧ Instr.wf (.collTimeout 0 0) = false := by decide
theorem test_wf_lseq : Instr.wf (.nak 0 0 (2 ^ 32)) = false ∧ Instr.wf (.controlUnit 0 (2 ^ 32) none 0 0) = false ∧
    Instr.wf (.controlUnit 0 0 none 65536 0) = false ∧ Instr.wf (.controlUnit 0 0 none 0 65536) = false ∧
    Instr.wf (.pfc 0 8 true) = false := by decide
theorem test_wf_frame : Instr.wf (.rdReq 0 { Frame.blank with data := List.replicate 8 0 }) = true ∧
    Frame.wf { Frame.blank with data := List.replicate 4097 0 } = false := by decide +kernel
theorem test_wf_lanes : Instr.wf (.hostLinkTrained 0 16 64) = true ∧ Instr.wf (.hostLinkTrained 0 3 64) = false := by decide
theorem test_wf_die : Instr.wf (.d2dLinkFailure 39) = true ∧ Instr.wf (.d2dLinkFailure 40) = false ∧
    Instr.wf (.fwFault 40) = false ∧ Instr.wf (.dieInternalError 40) = false := by decide
theorem test_wf_nonce : Instr.wf (.challenge .doe 0 [1]) = false ∧ Instr.wf (.getMeasurements .doe 1 [1]) = false ∧
    Instr.wf (.getMeasurements .doe 1 []) = true := by decide
theorem test_wf_samples : Instr.wf (.tokenRateMeasure 0 [1, 2, 3]) = false ∧
    Instr.wf (.sensorSample [(128, 0)]) = false ∧ Instr.wf (.pldmSensorRead 65536) = false ∧
    Instr.wf (.pldmEffecterSet 65536 0) = false := by decide

/-! ### Words -/

def c0 : CellId := ⟨0, 0, 0⟩
def t0 : GTgt := ⟨c0, 0⟩
def g0 : Guard := ⟨false, 0, false⟩

/-- IADD v1, v2, v3 in F0: `fmt` 0, `op` 0, vd 1 at bit 16, va 2 at bit 23, vb 3 at bit 30. -/
theorem word_iadd : decodeThread t0 0x00000000C1010000 = some (.iadd t0 ⟨g0, .f0 1 2 3 0 0 0 0⟩) := by decide
/-- FADD v5, v6, 1.0 in F1: `fmt` 1, `op` 0x20 at bit 3, vd 5, va 6, the immediate in bits 63 to 32. -/
theorem word_fadd : decodeThread t0 0x3F80000003050101 = some (.fadd t0 ⟨g0, .f1 5 6 0 0x3F800000⟩) := by decide
/-- DFMA @!p3 v2, v4, v6, v8: `op` 0x42; `gn` bit 11, `gp` 3 at bit 12, `ge` bit 15; vc 8 at bit 37; `mod` 4 at bit 44.
-/
theorem word_dfma : decodeThread t0 0x000041018202BA10 = some (.dfma t0 ⟨⟨true, 3, true⟩, .f0 2 4 6 8 4 0 0⟩) := by decide
/-- CVT to type 3 from type 8: `op` 0x50, `sub` 0x83 at bit 48. -/
theorem word_cvt : decodeThread t0 0x0083000001010280 = some (.cvt t0 ⟨g0, .f0 1 2 0 0 0 0x83 0⟩) := by decide
/-- LD of 64 bits at v4 − 8 with `hint` 1: `fmt` 2, `size` 3 at bit 30, `hint` at bit 33, `off24` at bit 40. -/
theorem word_ld : decodeThread t0 0xFFFFF802C2020002 = some (.ld t0 ⟨g0, 2, 4, 3, 1, false, false, 0, 0xFFFFF8⟩) := by decide
/-- STCOND of 32 bits to p5: `op` 6, `size` 2, `ubase` bit 35, `pd` 5 at bit 37. -/
theorem word_stcond : decodeThread t0 0x000000A882020032 = some (.stcond t0 ⟨g0, 2, 4, 2, 0, true, false, 5, 0⟩) := by decide
/-- FE_PUT of v2 at v4: `op` 0x22 at bit 3, `size` 3. -/
theorem word_fe_put : decodeThread t0 0x00000000C2020112 = some (.fePut t0 ⟨g0, 2, 4, 3, 0, false, false, 0, 0⟩) := by decide
/-- ICMP s32 p1, p2 of v3 and v4, `cond` 2, with p4 by `comb` 1: `fmt` 3. -/
theorem word_icmp : decodeThread t0 0x00004C2080D10003
    = some (.icmp t0 ⟨g0, 1, 2, 3, 4, 2, 4, 1, false, 1, 0⟩) := by decide
/-- BR by +2 words, meeting at +5: `fmt` 4, `toff` at bit 16, `roff` at bit 40. -/
theorem word_br : decodeThread t0 0x0000050000020004 = some (.br t0 ⟨g0, 2, 5⟩) := by decide
/-- UADDI u1 = u2 − 1: `fmt` 5, `op` 2, ud 1, ua 2 at bit 21, `imm24` at bit 40. -/
theorem word_uaddi : decodeThread t0 0xFFFFFF0000410015 = some (.uaddi t0 ⟨g0, 1, 2, 0, 0, false, 0xFFFFFF⟩) := by decide
/-- S2U u1 = special register 3: `sr` at bit 31. -/
theorem word_s2u : decodeThread t0 0x0000000180010025 = some (.s2u t0 ⟨g0, 1, 0, 0, 3, false, 0⟩) := by decide
/-- R51, R52: a `fmt` of 6 or 7, an `op` that is not listed, SHFL (F0 only) in F1 and S2V (F1 only) in F0 are no
instructions. -/
theorem word_none : decodeThread t0 6 = none ∧ decodeThread t0 7 = none ∧ decodeThread t0 (0x15 <<< 3) = none ∧
    decodeThread t0 (0x58 <<< 3 ||| 1) = none ∧ decodeThread t0 (0x60 <<< 3) = none := by decide
/-- SETC of counter 2 to 5: `op` 4, `c` at bit 32, `value` at bit 40. -/
theorem word_setc : decodeMacro c0 .access 0x50200000004
    = some (.setc c0 .access ⟨false, 0, false, 0, false, false, 0, 0x502⟩) := by decide
/-- TLOAD with a wait on queue 1 and a signal to queue 2 with tag 7: `we` bit 8, `wq` bit 9, `se` bit 11, `sq` bit 12. -/
theorem word_tload : decodeMacro c0 .access 0x00000000000000000000081000072B10
    = some (.tload c0 .access ⟨true, 1, true, 2, false, false, 7, 0x810⟩) := by decide
theorem word_mma : decodeMacro c0 .execute 0x1321000000020
    = some (.mma c0 .execute ⟨false, 0, false, 0, false, false, 0, 0x13210⟩) := by decide
theorem word_macro_none : decodeMacro c0 .access 0x0A = none ∧ decodeMacro c0 .execute 0x27 = none := by decide
/-- The opcode table gives no row any bits. -/
theorem test_table_word : decodeTableWord 64 0 = none := rfl

/-! ### Small states -/

/-- The state after a command. -/
def after (o : Out) : State :=
  match o with
  | .next t => t
  | .fault _ => State.reset
  | .refused _ => State.reset
/-- A device that is READY, its host link up. -/
def up : State := { State.reset with
  pwr := { State.reset.pwr with perst := false }
  hif := { State.reset.hif with linkUp := true, crs := false }
  regs := [(fldKey .HIF_PROMPT_STATE_boot_state 0, 8)] }
/-- Four active lanes. v2 is 7, −1, 0x80000000, 3; v3 is 5, 1, 1, 40; v4 is 0x10000 in each; p1 is set in lanes 0 and 2.
-/
def grp : Group :=
  ⟨0x1000, 0xF, 0, [], [(64, 7), (65, 0xFFFFFFFF), (66, 0x80000000), (67, 3), (96, 5), (97, 1), (98, 1), (99, 40),
    (128, 0x10000), (129, 0x10000), (130, 0x10000), (131, 0x10000)], [(1, 5)], [(2, 0x10000)], .none, 0, 0, 0, none⟩
/-- A tile kernel of ASC 2 under tag 9. -/
def krn : Kernel :=
  ⟨1, 3, 1, 2, 9, 5, false, 3, 0, 0x1000, 0x2000, 1, 1, 1, 1, 0, true, 0, 0, 0, none, 0, 0, 0, none, none, 0, false, false,
    false, [0]⟩
/-- Cell 0 runs that group, changed by `f`; page 1 of ASC 2 is page 5 of the device, resident in frame 9 of location 0.
-/
def run (f : Group → Group) : State := { up with
  kernels := [krn]
  tlbs := [(0, [⟨2, 0, 1, ⟨true, false, 0, 5, 0⟩⟩])]
  loct := [(5, { LocEnt.init with state := .resident, loc := 0, frame := 9, sync := true })]
  regs := [(fldKey .MEM_SITE_STATUS_state 0, siteOnline), (fldKey .HIF_PROMPT_STATE_boot_state 0, 8)]
  cells := [(0, { Cell.init with state := .running, groups := [(0, f grp)], tbs := [⟨0, 1, 0, 0, 0, [0], 0, 1024⟩] })] }
def grpOf (s : State) : Group := (s.group 0 0).getD { grp with pc := 0 }
def reg (o : Out) (r : Nat) : List Nat := (List.range 4).map (fun l => (grpOf (after o)).v1 r l)
def pred (o : Out) (k : Nat) : Mask := (grpOf (after o)).pr k
def halted (o : Out) : CellState × Nat := (((after o).cell 0).state, ((after o).cell 0).halt.reason)
def f0 (vd va vb vc : BitVec 7) (mod : BitVec 4) (sub : BitVec 8) : AluI := ⟨g0, .f0 vd va vb vc mod sub 0⟩
def f1 (vd va : BitVec 7) (mod : BitVec 2) (imm : BitVec 32) : AluI := ⟨g0, .f1 vd va mod imm⟩
def s0 : State := run id

/-! ### Thread instructions -/

theorem test_iadd : reg (exec (.iadd t0 (f0 1 2 3 0 0 0)) s0) 1 = [12, 0, 0x80000001, 43] := by decide
theorem test_isub : reg (exec (.isub t0 (f1 1 2 0 8)) s0) 1 = [0xFFFFFFFF, 0xFFFFFFF7, 0x7FFFFFF8, 0xFFFFFFFB] := by decide
theorem test_imulhi_signed : reg (exec (.imulhi t0 (f0 1 2 2 0 1 0)) s0) 1 = [0, 0, 0x40000000, 0] := by decide
theorem test_imad : reg (exec (.imad t0 (f0 1 2 3 2 0 0)) s0) 1 = [42, 0xFFFFFFFE, 0, 123] := by decide
theorem test_imin_signed : reg (exec (.imin t0 (f0 1 2 3 0 1 0)) s0) 1 = [5, 0xFFFFFFFF, 0x80000000, 3] := by decide
theorem test_imax_unsigned : reg (exec (.imax t0 (f0 1 2 3 0 0 0)) s0) 1 = [7, 0xFFFFFFFF, 0x80000000, 40] := by decide
theorem test_shl_by_width : reg (exec (.shl t0 (f0 1 2 3 0 0 0)) s0) 1 = [224, 0xFFFFFFFE, 0, 0] := by decide
theorem test_sar_by_width : reg (exec (.sar t0 (f1 1 2 1 40)) s0) 1 = [0, 0xFFFFFFFF, 0xFFFFFFFF, 0] := by decide
theorem test_popc_clz : reg (exec (.popc t0 (f0 1 2 0 0 0 0)) s0) 1 = [3, 32, 1, 2] ∧
    reg (exec (.clz t0 (f0 1 2 0 0 0 0)) s0) 1 = [29, 0, 0, 30] := by decide
theorem test_bfe : reg (exec (.bfe t0 (f1 1 2 1 0x0201)) s0) 1 = [0xFFFFFFFF, 0xFFFFFFFF, 0, 1] := by decide
theorem test_bfi : reg (exec (.bfi t0 (f1 3 2 0 0x0304)) s0) 3 = [0x75, 0x71, 0x01, 0x38] := by decide
theorem test_iadd_guarded : reg (exec (.iadd t0 ⟨⟨true, 1, false⟩, .f0 1 2 3 0 0 0 0⟩) s0) 1 = [12, 0, 0x80000001, 0] := by
  decide
/-- 1.5 + 2.25 and a NaN. -/
theorem test_fadd : fAdd .fp32 .ne 0x3FC00000 0x40100000 = 0x40700000 ∧ fAdd .fp32 .ne 0x7F800000 0xFF800000 = 0x7FC00000 := by
  decide +kernel
theorem test_dmul : fMul .fp64 .ne 0x4008000000000000 0x4010000000000000 = 0x4028000000000000 := by decide +kernel
theorem test_cvt : cvt .ne (.int true 32) (.fp .fp32) 0x40200000 = 2 := by decide +kernel
theorem test_icmp : pred (exec (.icmp t0 ⟨g0, 2, 0, 2, 3, 2, 0, 0, false, 1, 0⟩) s0) 2 = 0xE := by decide
theorem test_pany_pall : pred (exec (.pany t0 ⟨g0, 2, 0, 0, 0, 0, 1, 0, false, 0, 0⟩) s0) 2 = 0xF ∧
    pred (exec (.pall t0 ⟨g0, 2, 0, 0, 0, 0, 1, 0, false, 0, 0⟩) s0) 2 = 0 := by decide
theorem test_shfl_down : reg (exec (.shfl t0 (f0 1 2 5 0 0 2)) s0) 1 = [7, 0xFFFFFFFF, 0x80000000, 3] := by decide
theorem test_v2u : (grpOf (after (exec (.v2u t0 (f1 0 2 0 3)) s0))).ur 3 = 7 := by decide
theorem test_branch : (grpOf (after (exec (.br t0 ⟨⟨true, 1, false⟩, 4, 8⟩) s0))).pc = 0x1020 ∧
    (grpOf (after (exec (.br t0 ⟨⟨true, 1, false⟩, 4, 8⟩) s0))).active = 5 ∧
    (grpOf (after (exec (.br t0 ⟨⟨true, 1, false⟩, 4, 8⟩) s0))).stack = [⟨0x1040, 0x1008, 10, 15⟩] := by decide
theorem test_call_ret : (grpOf (after (exec (.call t0 ⟨g0, 0xFFFFFF, 0⟩) s0))).pc = 0xFF8 ∧
    (grpOf (after (exec (.call t0 ⟨g0, 0xFFFFFF, 0⟩) s0))).ur 31 = 0x1008 ∧
    (grpOf (after (exec (.ret t0 ⟨g0, 0, 0⟩) (run (fun g => { g with u := [(31, 0x2000)] }))))).pc = 0x2000 := by decide
theorem test_bkpt : halted (exec (.bkpt t0 ⟨g0, 0, 0⟩) s0) = (.halted, hrBreakpoint) := by decide
theorem test_illegal : halted (exec (.iadd t0 ⟨g0, .f0 1 2 3 0 0 0 1⟩) s0) = (.halted, hrIllegal) := by decide
theorem test_uaddi : (grpOf (after (exec (.uaddi t0 ⟨g0, 1, 2, 0, 0, false, 0xFFFFFF⟩) s0))).ur 1 = 0xFFFF := by decide
theorem test_icinv_user : halted (exec (.icinv t0 ⟨g0, 0, 0, 0, 0, false, 0⟩) s0) = (.halted, hrPrivileged) := by decide
theorem test_ld_misaligned : halted (exec (.ld t0 ⟨g0, 6, 4, 2, 0, false, false, 0, 1⟩) s0) = (.halted, hrMisaligned) := by
  decide
theorem test_ld_request : ((after (exec (.ld t0 ⟨g0, 6, 4, 2, 0, false, false, 0, 4⟩) s0)).cell 0).reqs.map (fun q =>
    (q.kind, q.lanes.map (fun l => (l.lane, l.va, l.tgt)))) = [(.load 6 2 false true,
      [(0, 0x10004, .dev 0x50004), (1, 0x10004, .dev 0x50004), (2, 0x10004, .dev 0x50004), (3, 0x10004, .dev 0x50004)])] := by
  decide

/-! ### States that meet the statements' hypotheses: thread instructions -/

def tgt : Target := .dev 0x50000
def g1 : Group := grp
def mi (size : BitVec 3) (off : BitVec 24) : MemI := ⟨g0, 6, 4, size, 0, false, false, 0, off⟩
def ui (ud ua ub : BitVec 5) (imm : BitVec 24) : UniI := ⟨g0, ud, ua, ub, 0, false, imm⟩
/-- The group with all lanes active. -/
def full : Group → Group := fun g => { g with active := 0xFFFFFFFF }

theorem witness_IntegerResults : s0.canAlu t0 (f0 1 2 3 4 0 0) specImad g1 ∧ s0.canAlu t0 (f1 1 2 0 0xFFFFFFFF) specIadd g1 ∧
    s0.canAlu t0 (f0 8 2 4 0 3 0) specIsub g1 :=
  ⟨⟨by decide, by decide, by decide, by decide, by decide⟩, ⟨by decide, by decide, by decide, by decide, by decide⟩,
    ⟨by decide, by decide, by decide, by decide, by decide⟩⟩
theorem witness_FloatResults : s0.canAlu t0 (f0 1 2 3 4 7 0) specFfma g1 ∧ s0.canAlu t0 (f0 126 2 4 6 0 0) specDfma g1 ∧
    s0.canAlu t0 (f0 1 2 3 4 12 0) specHfma2 g1 :=
  ⟨⟨by decide, by decide, by decide, by decide, by decide⟩, ⟨by decide, by decide, by decide, by decide, by decide⟩,
    ⟨by decide, by decide, by decide, by decide, by decide⟩⟩
theorem witness_FreeResults : s0.canAlu t0 (f0 1 2 0 0 1 0) specIabs g1 ∧ s0.canAlu t0 (f0 1 2 0 0 0 0) specFsin g1 ∧
    s0.canAlu t0 (f0 2 4 0 0 0 0) specDrcp g1 :=
  ⟨⟨by decide, by decide, by decide, by decide, by decide⟩, ⟨by decide, by decide, by decide, by decide, by decide⟩,
    ⟨by decide, by decide, by decide, by decide, by decide⟩⟩
theorem witness_ConversionsAndMoves : s0.canAlu t0 (f0 2 4 0 0 0 0x67) specCvt g1 ∧
    (CvtType.of (0x67 % 16)).isSome = true ∧ (CvtType.of (0x67 / 16)).isSome = true ∧
    s0.canRun t0 g0 ⟨[1, 2, 3], guardPreds g0, []⟩ g1 ∧ shflLegal (f0 1 2 3 0 0 3).f = true ∧
    s0.canRun t0 g0 ⟨[1, 2, 3], 1 :: guardPreds g0, []⟩ g1 ∧ selLegal (f0 1 2 3 1 0 0).f = true ∧
    s0.canRun t0 g0 ⟨regRun 2 2, guardPreds g0, []⟩ g1 ∧ s0.canRun t0 g0 ⟨regRun 2 2, guardPreds g0, [31]⟩ g1 ∧
    s0.canRun t0 g0 ⟨[2], guardPreds g0, [31]⟩ g1 :=
  ⟨⟨by decide, by decide, by decide, by decide, by decide⟩, by decide, by decide, ⟨by decide, by decide, by decide⟩, by decide,
    ⟨by decide, by decide, by decide⟩, by decide, ⟨by decide, by decide, by decide⟩, ⟨by decide, by decide, by decide⟩,
    ⟨by decide, by decide, by decide⟩⟩
def pi (pd pq : BitVec 3) (va vb : BitVec 7) (cond : BitVec 4) (ps : BitVec 3) (comb : BitVec 2) : PredI :=
  ⟨g0, pd, pq, va, vb, cond, ps, comb, false, 0, 0⟩
theorem witness_Predicates : s0.canRun t0 g0 ⟨regRun 2 1 ++ regRun 3 1, cmpPreds (pi 1 2 2 3 5 4 1), []⟩ g1 ∧
    cmpLegal (pi 1 2 2 3 5 4 1) 6 4 = true ∧ cmpLegal (pi 1 0 2 4 7 0 0) 8 1 = true ∧
    s0.canRun t0 g0 ⟨[], [1, 7, 2], []⟩ g1 ∧ predRsv (pi 1 0 7 2 3 0 0) = true ∧
    s0.canRun t0 g0 ⟨[], [1, 4], []⟩ g1 ∧ voteRsv (pi 1 0 0 0 0 4 0) = true ∧
    s0.canRun t0 g0 ⟨[5], [4], []⟩ g1 ∧ voteRsv (pi 0 0 5 0 0 4 0) = true :=
  ⟨⟨by decide, by decide, by decide⟩, by decide, by decide, ⟨by decide, by decide, by decide⟩, by decide,
    ⟨by decide, by decide, by decide⟩, by decide, ⟨by decide, by decide, by decide⟩, by decide⟩
def gd (k : Fin 8) : Guard := ⟨true, k, false⟩
/-- All lanes take it; none does; both paths, with a new entry, in an entry's empty place, and on a full stack. -/
theorem witness_Branches : s0.canRun t0 (gd 1) ⟨[], guardPreds (gd 1), []⟩ g1 ∧
    g1.active &&& ~~~(g1.guardMask g0) = 0 ∧ g1.active &&& g1.guardMask (gd 2) = 0 ∧
    g1.active &&& g1.guardMask (gd 1) = 5 ∧ g1.active &&& ~~~(g1.guardMask (gd 1)) = 10 ∧
    brGo { g1 with stack := List.replicate 16 ⟨0, 0, 0, 0⟩ } 0x1020 0x1040 5 = .overflow :=
  ⟨⟨by decide, by decide, by decide⟩, by decide, by decide, by decide, by decide, by decide⟩
theorem witness_ControlAndBarriers : s0.canRun t0 g0 ⟨[], [], [31]⟩ g1 ∧ s0.canRun t0 g0 ⟨[], guardPreds g0, []⟩ g1 ∧
    g1.acting g0 ≠ 0 ∧ g1.ur 31 % 8 = 0 ∧ g1.acting (gd 2) = 0 ∧ (full g1).stack = [] ∧ (full g1).active = ~~~(full g1).exited ∧
    g1.active ≠ ~~~g1.exited ∧ s0.canUni t0 [] (uniLegal (ui 0 0 0 0) false false false false false) g1 ∧
    s0.cellKernel 0 = some krn ∧ krn.priv = false :=
  ⟨⟨by decide, by decide, by decide⟩, ⟨by decide, by decide, by decide⟩, by decide, by decide, by decide, by decide, by decide,
    by decide, ⟨by decide, by decide, by decide⟩, by decide, by decide⟩
theorem witness_ControlAndBarriers_privileged :
    { s0 with kernels := [{ krn with priv := true }] }.cellKernel 0 = some { krn with priv := true } := by decide
theorem witness_UniformsAndAppends : s0.canUni t0 [1, 2] (uniLegal (ui 1 2 0 0xFFFFFF) true true false false true) g1 ∧
    s0.canUni t0 [1] (uniLegal { ui 1 0 0 0 with sr := 0x13 } true false false true false) g1 ∧
    (run full).canUni t0 [2, 3] (uniLegal (ui 0 2 3 0) false true true false false) (full g1) ∧
    ((run full).stream 0 .access).buf.length < 8 ∧ (run full).cellKernel 0 = some krn ∧ krn.tile = true ∧
    s0.canUni t0 [] (uniLegal (ui 0 0 0 7) false false false false true) g1 :=
  ⟨⟨by decide, by decide, by decide⟩, ⟨by decide, by decide, by decide⟩, ⟨by decide, by decide, by decide⟩, by decide,
    by decide, by decide, ⟨by decide, by decide, by decide⟩⟩
theorem witness_StepRuns : { up with pending := [.beat] }.pending = .beat :: [] ∧ up.pending = [] ∧
    State.reset.fld .HIF_PROMPT_STATE_boot_state 0 = 0 := by decide
theorem witness_StorageHomes : ¬ (Fld.CFE_Q_CFG_prio = .CFE_Q_CFG_asc ∧ 4095 = 4095) ∧ mapWf (0 : Byte) [] = true := by decide
theorem witness_CanonicalMemory : State.reset.memWf = true ∧ step { up with pending := [.syncLoss] } = .next up :=
  ⟨by decide, by rfl⟩
theorem witness_ThreadWords : Instr.thread (.dfma t0 (f0 2 4 6 8 0 0)) = some (t0, 0x42, .alu (f0 2 4 6 8 0 0)) ∧
    (encodeThread (.dfma t0 (f0 2 4 6 8 0 0))).isSome = true := by decide
theorem witness_MacroWords : (Instr.macroOp (.setc c0 .access ⟨false, 0, false, 0, false, false, 0, 0x502⟩)).isSome = true ∧
    (encodeMacro (.setc c0 .access ⟨false, 0, false, 0, false, false, 0, 0x502⟩)).isSome = true := by decide
theorem witness_IllegalWords : s0.groupNow t0 = some g1 ∧ s0.canIssue t0 (specIadd.uses g0 (.f0 1 2 3 0 0 0 1)) false = true ∧
    (guardOk g0 && specIadd.legal (.f0 1 2 3 0 0 0 1)) = false ∧ specDadd.legal (.f0 126 126 126 0 0 0 0) = true ∧
    specIadd.range (.f0 1 127 3 0 3 0 0) = true ∧ s0.canIssue t0 (specLd.uses (mi 4 0)) true = true ∧
    specLd.legal (mi 5 0) = false ∧ specLd.range { mi 4 0 with vd := 125 } = true := by decide
/-- Slot 0 has a full/empty operation outstanding. -/
def feState : State := s0.modCell 0 (fun x => { x with
  reqs := [⟨4, 0, .fe feTakeOp 6, [⟨0, 0x10000, tgt, 0, 0, .waiting 0 1⟩], 0, 0x1000, false, 3, 100, false⟩], nextReq := 5 })
theorem witness_HaltsAndWaits : (Instr.thread (.nopInstruction t0 ⟨g0, 0, 0⟩)).isSome = true ∧
    (feState.cell (cellNo t0.cell)).feOut t0.slot.val = true ∧ (s0.cell 0).state = .running ∧ (up.cell 0).state ≠ .running := by
  decide
theorem witness_MemoryRequests : s0.canMem t0 (mi 2 4) specLd g1 ∧
    s0.memNow 0 2 .read false (g1.addrs (mi 2 4)) = true ∧
    ((s0.issued 0 0 g1).memOk 0 2 .read false (g1.addrs (mi 2 4))).isSome = true ∧
    (match (s0.issued 0 0 g1).memChk 0 2 .write false [(3, 0x20000)] with | .bad _ why _ => why | _ => 0) = hrTranslation ∧
    s0.canIssue t0 ⟨[], [], [1, 2]⟩ true = true ∧ s0.memNow 0 3 .read false [(0, 0x10000)] = true ∧
    ((s0.issued 0 0 g1).memOk 0 3 .read false [(0, 0x10000)]).isSome = true :=
  ⟨⟨by decide, by decide, by decide, by decide, by decide⟩, by decide, by decide, by decide, by decide, by decide, by decide⟩
theorem witness_RequestChecks : (0x10002 % 2 ^ 2 ≠ 0 ∧ 0x10000 % 2 ^ 2 = 0) ∧ s0.canMem t0 (mi 2 0) { sizes := [0, 1, 2, 3, 4], sign := true, dst := sizeRegs } g1 ∧
    scrBad ((s0.cell 0).shareOf g1) 2 [(0, 4), (1, 1020)] = none ∧
    scrBad ((s0.cell 0).shareOf g1) 2 [(0, 4), (1, 1024)] = some (hrScratchRange, 1024) ∧
    scrBad ((s0.cell 0).shareOf g1) 2 [(0, 4), (1, 1022)] = some (hrMisaligned, 1022) :=
  ⟨by decide, ⟨by decide, by decide, by decide, by decide, by decide⟩, by decide, by decide, by decide⟩

/-! ### Macro-ops -/

/-- A descriptor (R81). -/
def ds (addr rows cols stride fmt : Nat) : Nat := addr + 2 ^ 18 * rows + 2 ^ 30 * cols + 2 ^ 42 * stride + 2 ^ 56 * fmt
/-- Cell 0 with both streams started, a token, descriptors, addresses and a table. -/
def tile : State := s0.modCell 0 (fun x => { x with
  sa := { StreamSt.init with
    started := true, mpc := 0x8000, ta := [(1, 0x10000)], tc := [(2, 2)]
    td := [(3, ds 0 64 64 4 0), (4, ds 0x2000 1 64 16 0xB)] }
  sx := { StreamSt.init with
    started := true, mpc := 0x9000, tc := [(2, 1)]
    td := [(0, ds 0x4000 2 16 1 0), (1, ds 0x5000 16 2 1 0), (2, ds 0x6000 2 2 1 0xB), (3, ds 0x7000 2 2 1 0xA),
      (4, ds 0x7100 2 2 1 0xA), (5, ds 0x7200 2 1 1 0xA), (6, ds 0x8000 1 264 66 0xA)] }
  xq := [(1, [7])]
  arr := { x.arr with acc := { x.arr.acc with type := 1 } }
  luts := [(0, ⟨0, 0, 0, 0, 0, 0, []⟩)] })
def mw (p : BitVec 96) : MacroWord := ⟨false, 0, false, 0, false, false, 0, p⟩
def began (st : Stream) (op : Nat) (w : MacroWord) : Bool := (tile.begins c0 st op w).isSome

theorem witness_MacroControl : began .access 0x00 (mw 0) = true ∧ began .access 0x01 (mw 0) = true ∧
    began .access 0x03 (mw 2) = true ∧ began .access 0x04 (mw 0x502) = true ∧
    began .access 0x05 (mw 3) = true ∧ began .access 0x06 (mw 0x1003) = true ∧ began .access 0x07 (mw 1) = true ∧
    began .access 0x08 (mw 1) = true ∧ began .access 0x09 (mw 8) = true ∧ began .execute 0x02 (mw 1) = true := by decide
theorem test_loop_counts : ((after (exec (.mloop c0 .access (mw 2)) tile)).stream 0 .access).tc = [(2, 1)] ∧
    ((after (exec (.mloop c0 .access (mw 0xFFFFFF02)) tile)).stream 0 .access).mpc = 0x7FF0 ∧
    ((after (exec (.mloop c0 .execute (mw 0xFFFFFF02)) tile)).stream 0 .execute).mpc = 0x9010 := by decide
theorem test_pop_tag : (tile.begins c0 .access 0x00 ⟨true, 1, false, 0, true, false, 7, 0⟩).isSome = true ∧
    (tile.begins c0 .access 0x00 ⟨true, 1, false, 0, true, false, 8, 0⟩).isSome = false ∧
    halted (exec (.sync c0 .access ⟨true, 1, false, 0, true, false, 8, 0⟩) tile) = (.halted, hrQueueProtocol) := by decide
theorem witness_MacroMoves : began .access 0x10 (mw 0x813) = true ∧ began .access 0x13 (mw 0x810) = true ∧
    began .access 0x11 (mw 0x813) = true := by decide +kernel
theorem witness_MacroMoves_gather : began .access 0x12 (mw 0x413) = true := by decide +kernel
theorem witness_MacroResults : began .execute 0x20 (mw 0x10010) = true ∧ began .execute 0x21 (mw 2) = true ∧
    began .execute 0x22 (mw 2) = true ∧ began .execute 0x23 (mw 0x443) = true ∧ began .execute 0x24 (mw 0x45) = true ∧
    began .execute 0x25 (mw 0x43) = true ∧ began .execute 0x26 (mw 6) = true := by decide +kernel
theorem witness_MacroChecks : (tile.offer 0 .access 0x10 (mw 0x813)).isSome = true ∧
    wordOk .access 0x10 (mw 0x813) false = true ∧ wordOk .access 0x09 (mw 9) false = false ∧
    wordOk .access 0x20 (mw 0) false = false ∧ (tile.stream 0 .access).room 0x10 = true ∧
    (match planOf tile 0 .access ⟨0x10, mw 0x803, 0, false⟩ with | .ok _ => true | .error _ => false) = true ∧
    (match planOf tile 0 .access ⟨0x10, mw 0x814, 0, false⟩ with | .ok _ => 0 | .error e => e.1) = hrTileBad ∧
    (tile.popFor 0 .access ⟨true, 1, false, 0, false, false, 0, 0⟩).isSome = true ∧
    (tile.popFor 0 .access ⟨true, 2, false, 0, false, false, 0, 0⟩).isSome = false := by decide +kernel
/-- A TLOAD in progress, and one that has reached its completion point. -/
def loading (done : Bool) : State := tile.modStream 0 .access (fun x => { x with
  prog := [⟨0, ⟨0x10, mw 0x813, 0x8000, false⟩, done, false, [], [(0, 4095)], [(0, tgt)], [], [ds 0 64 64 4 0], [], false, 0, 0⟩], nextN := 1 })
theorem witness_MacroOutcomes : (loading false).alive = true ∧ ((loading false).cell 0).state = .running ∧
    (((loading false).stream 0 .access).prog.find? (fun q => q.n == 0 && !q.done)).isSome = true ∧
    ((loading false).stream 0 .access).prog.map (loading false).readHeld = [none] ∧
    (((loading true).stream 0 .access).prog.find? (fun q => q.n == 0 && q.done && !q.owes)).isSome = true := by decide +kernel

/-! ### Cells, memory, the host -/

/-- A load of lane 0 that waits to be performed, one that waits for peers, and an entry of the combining buffer. -/
def busy : State :=
  { s0.modCell 0 (fun x => { x with
      reqs := [⟨4, 0, .load 6 2 false true, [⟨0, 0x10000, tgt, 0, 0, .todo⟩], 0, 0x1000, false, 3, 100, false⟩,
        ⟨5, 0, .load 6 2 false true, [⟨0, 0x10000, .peer 7 0, 0, 0, .sent 9⟩], 0, 0x1000, false, 3, 100, false⟩,
        ⟨6, 0, .store 2, [⟨0, 0x10000, .peer 7 0, 0, 0, .sent 9⟩], 0, 0x1000, false, 3, 100, false⟩,
        ⟨7, 0, .fe feTakeOp 6, [⟨0, 0x10000, tgt, 0, 0, .returned 0 1⟩], 0, 0x1000, false, 3, 100, false⟩]
      nextReq := 8, comb := [⟨0x10000, tgt, [(0, 1)], [(0, 1)], 0, 0⟩] }) with
    time := { s0.time with ns := 3000 } }
theorem witness_CellAnswers : (busy.req 0 4).isSome = true ∧ (busy.cell 0).reqBlocked ⟨4, 0, .load 6 2 false true,
      [⟨0, 0x10000, tgt, 0, 0, .todo⟩], 0, 0x1000, false, 3, 100, false⟩ = false ∧
    ((busy.req 0 4).map (fun q => q.todoHere.length)) = some 1 ∧
    opListed 0 0x14 = true ∧ opListed 0 0x15 = false ∧ (macroFields 0x27).isNone = true ∧
    ((busy.req 0 7).map (fun q => (q.lanes.find? busy.feLate).isSome)) = some true ∧
    ((feState.req 0 4).map (fun q => (q.lanes.find? feState.feLate).isSome)) = some false ∧
    ((busy.cell 0).comb.map (fun e => (decide (e.last + 2000 ≤ busy.now), (busy.combFlush 0 e).isSome))) = [(true, true)] ∧
    ((busy.req 0 5).map (fun q => q.kind.cls)) = some 0 ∧ ((busy.req 0 6).map (fun q => q.kind.cls)) = some 1 ∧
    (busy.req 0 6).map (fun q => (State.storeDue ({ busy with blocks := [(0, { Block.init with owes := true, endAt := 5 })] } : State)
      0 q.sentFor, busy.storeDue 0 q.sentFor)) = some (true, false) := by
  decide +kernel
theorem test_load_answer : let s := after (exec (.memoryReply c0 (.data 4 (.ok .clean))) { busy with
      mem := [(9 * 65536, 0x2A)] })
    reg (.next s) 6 = [42, 0, 0, 0] ∧ s.req 0 4 = none := by decide +kernel
theorem witness_FullEmptyOperations : (busy.req 0 7).isSome = true ∧ (busy.feKey 0x50000).isSome = true ∧
    (busy.feArrive 0x50000 feTakeOp 0 (.cell 0 0 7 0) 0 (busy.cellAsc 0)).2 = .waits ∧
    (({ busy with full := [(9 * 8192, 1)] } : State).feArrive 0x50000 feTakeOp 0 (.cell 0 0 7 0) 0 (busy.cellAsc 0)).2 = .served := by
  decide +kernel
theorem test_fe_put_full : let s := after (exec (.fePut t0 ⟨g0, 2, 4, 3, 0, false, false, 0, 0⟩) (run (fun g => { g with active := 1 })))
    ((s.cell 0).reqs.map (fun q => q.lanes.length)) = [1] ∧ feCan fePutOp false = true ∧ feCan fePutOp true = false ∧
      feCan feTakeOp false = false := by decide +kernel

/-- Region 0 is ONLINE with its cells enabled, a kernel of one thread block waits. -/
def place : State := { up with
  kernels := [{ krn with next := 0, share := none, cells := [] }]
  regs := [(fldKey .HIF_PROMPT_STATE_boot_state 0, 8), (fldKey .REG_STATUS_state 0, rgnOnline)] }
theorem witness_Kernels : (State.choosePlace place.offered [] place).2.isSome = true ∧ (State.choosePlace up.offered [] up).2.isNone = true ∧
    (({ up with blocks := [(0, { Block.init with owes := true, kern := 1 })] } : State).block 0).owes = true ∧
    krn.total = 1 := by decide +kernel
theorem test_placement : let s := after (exec .threadBlockPlacement place)
    (s.cells.map (fun e => ((s.cell e.1).state, (s.cell e.1).tbs.length)), s.kernels.map (·.next)) = ([(.running, 1)], [1]) := by
  decide +kernel
theorem witness_ThreadBlockRetires : (run (fun g => { g with active := 0, exited := 0xFFFFFFFF })).alive = true ∧
    ((run id).cell 0).tbs.map (·.kern) = [1] := by decide

/-- A committed HDM window of 1 GiB at 2^32, page 5 of it resident. -/
def hdm : State := { s0 with
  hif := { s0.hif with decoder := some (2 ^ 32, 2 ^ 30), snoops := [⟨0xA00, true⟩], filter := [⟨0xA00, true⟩] }
  hostDirty := [(0x2000, 7)], scds := [(0, { Cache.init with lines := [] })] }
theorem witness_HostAccesses : hdm.hostUp = true ∧ hdm.hdmAddr (2 ^ 32 + 0x50040) = some 0x50040 ∧ hdm.hdmAddr 0 = none ∧
    hdm.serves = true ∧ hdm.pageAns 5 = .ok ∧ hdm.pageAns 6 = .unalloc ∧ hdm.scdHas (.dev 0x50040) = false ∧
    (hdm.readAt 0x50040 .clean).2 = false ∧
    ({ hdm with pwr := { hdm.pwr with offRdy := true } } : State).serves = false ∧ hdm.hostHeld 0x2000 = false := by decide +kernel
theorem test_memwr_memrd : let s := after (exec (.memwr (2 ^ 32 + 0x50041) [1, 2, 3]) { hdm with hif := { hdm.hif with filter := [] } })
    s.mem = [(9 * 65536 + 0x41, 1), (9 * 65536 + 0x42, 2), (9 * 65536 + 0x43, 3)] ∧
    ((after (exec (.memrd (2 ^ 32 + 0x50040) false .clean) s)).hif.resp.map (fun r => r.data.take 5)) = some [0, 1, 2, 3, 0] := by
  decide +kernel
theorem witness_HostLink : up.hif.decoder = none ∧ up.hif.linkUp = true ∧ up.hif.crs = false ∧
    0 < 2 ^ 30 ∧ 2 ^ 30 ≤ up.fld .CFG_HOST_hdm_size_gib 0 * 2 ^ 30 ∧
    (hdm.hif.snoops.filter (fun f => f.line == 0xA00)) ≠ [] ∧ (hdm.hif.snoops.filter (fun f => f.line == 1)) = [] := by
  decide +kernel

/-- Page 5 is hot, and site 1 has room for it; a migration of page 4 is in its last pass. -/
def moving : State := { s0 with
  loct := [(4, { LocEnt.init with state := .migrating, frame := 3 }), (5, { LocEnt.init with state := .resident, frame := 9, heat := 200 })]
  migs := [⟨4, 1, 6, [2], 4, .promotion, none, 0, false⟩] }
theorem witness_HeatAndMigrations : moving.ready = true ∧ (moving.loc 5).state = .resident ∧
    (moving.loc 6).state = .unallocated ∧ (moving.migs.filter (fun m => m.dpn % 4 == 0)).length < 16 ∧
    (moving.migs.find? (fun m => m.dpn == 4)).isSome = true ∧ (moving.readAt (4 * 65536) .clean).2 = false ∧
    (moving.readAt (4 * 65536) .uncorrectable).2 = true ∧ moving.locPaced 1 = false ∧ moving.locPaced 0 = false := by
  decide +kernel
theorem test_heat_decay : ((after (exec (.heatScan 5) moving)).loc 5).heat = 100 := by decide +kernel
theorem witness_MemoryUnits : s0.locUp 0 = true ∧ s0.fld .CFG_MEMORY_patrol_period_h 0 ≠ 0 ∧
    s0.fld .MEM_SITE_STATUS_chan_ok 0 = 0 ∧ ({ s0 with unclean := [7] } : State).unclean = [0 * 2 ^ 26 + 7] ∧
    ({ s0 with evac := [.port 2] } : State).evac.contains (.port 2) = true ∧ s0.pagesAt 14 = 0 ∧ s0.pagesAt 0 = 1 := by
  decide +kernel
theorem test_frame_zeroed : let s := after (exec (.frameZeroed 0 7) { s0 with
      unclean := [7, 8], mem := [(7 * 65536, 1), (8 * 65536, 2)] })
    s.unclean = [8] ∧ s.mem = [(8 * 65536, 2)] := by decide +kernel
theorem test_patrol : (after (exec (.patrol 0 64 .corrected) s0)).fld .MEM_SITE_ERR_ecc_corrected 0 = 1 := by decide +kernel
def port (st : Nat) : State := { up with regs := [(fldKey .HIF_PROMPT_STATE_boot_state 0, 8), (fldKey .FTP_STATUS_state 2, st)] }
theorem witness_FarTierPorts : (port ftpOnline).alive = true ∧ (port ftpOnline).fld .FTP_STATUS_state 2 = ftpOnline ∧
    (port ftpOffline).canEnumerate 2 = true ∧ (port ftpOnline).ftpBusy 2 true = false ∧ (port 1).linksHeld = false := by decide
theorem test_third_timeout : let s := after (exec (.cxlMemTimeout 2 0) (after (exec (.cxlMemTimeout 2 0)
      (after (exec (.cxlMemTimeout 2 0) (port ftpOnline))))))
    s.fld .FTP_STATUS_state 2 = ftpFailed ∧ s.fld .FTP_ERR_timeouts 2 = 3 := by decide +kernel
theorem witness_UnitActions : s0.ready = true ∧ s0.presetLegal 0 0 actReset = true ∧ s0.presetLegal 0 0 actUp = false ∧
    s0.presetLegal 0 1 actDown = false ∧ (s0.presetBegin 0 0 actReset).isSome = true := by decide +kernel
theorem witness_CountersAndRegisters : up.bars = true ∧ rejects .bar0 4 8 true = true ∧ rejects .bar0 8 4 true = false ∧
    rejects .bar2 8 8 true = true ∧ rejects .bar2 4096 8 true = false ∧ badAccess 8 4 = false ∧ 8 + 4 ≤ Bar.size .bar0 := by decide
theorem test_pmc_clear : let s := after (exec (.pmcClear 1) (up.setFld .REG_PMC_VAL_count 8 5 |>.setFld .REG_PMC_VAL_count 7 6))
    s.fld .REG_PMC_VAL_count 8 = 0 ∧ s.fld .REG_PMC_VAL_count 7 = 6 := by decide +kernel
theorem witness_QueueZeroAndSignals : up.bootCtl = true ∧ up.qState 0 = qDisabled ∧ up.fld .CFE_ASC_STATE_state 0 = 0 ∧
    (up.setFld .CFE_BOOTQ_CFG_size_log2 0 6).fld .CFE_BOOTQ_CFG_size_log2 0 = 6 ∧ up.barUp = true ∧
    sgn 64 (3 + (2 ^ 64 - 2)) = 1 ∧ sgn 64 (2 + (2 ^ 64 - 2)) = 0 ∧ sgn 64 (1 + (2 ^ 64 - 2)) < 0 := by decide +kernel
theorem test_boot_queue : let s := after (exec .bootqEnable (up.setFld .CFE_BOOTQ_CFG_size_log2 0 6))
    s.qState 0 = qActive ∧ s.fld .CFE_Q_CFG_prio 0 = 7 ∧ s.fld .CFE_Q_CFG_kernel 0 = 1 ∧ s.fld .CFE_ASC_STATE_state 0 = 1 := by
  decide +kernel
theorem witness_FenceForced : up.alive = true := by decide

/-! ### Packets -/

/-- A packet of queue 3 with its opcode, its words 1 and 2, and the steps it waits on. -/
def pkt (op w1 w2 : DWord) (deps : List Nat) : Pkt :=
  ⟨3, 9, 0x1000, false, [op, w1, w2, 0, 0, 0, 0, 0], deps, .fetched, none, 0, 0, 0, 0, 0, 0, 0, 0, 0, []⟩
/-- Queue 3 is ACTIVE under ASC 2, which is ACTIVE, with that packet in the pool. -/
def queued (p : Pkt) : State := { s0 with pool := [p], tlbs := [(feMmu, [⟨2, 0, 1, ⟨true, false, 0, 5, 0⟩⟩])] }.setFlds 3 [(.CFE_Q_STATUS_state, qActive), (.CFE_Q_CFG_asc, 2)]
  |>.setFlds 2 [(.CFE_ASC_STATE_state, 1)]
def takes (p : Pkt) (kind : Pkt → Bool) : Bool := ((queued p).taken 3 9 kind).isSome
theorem witness_PacketStarts : let s := queued (pkt 0x0D 0 0 [4])
    s.ready = true ∧ s.pkt 3 9 = some (pkt 0x0D 0 0 [4]) ∧ s.pkt 3 8 = none ∧ isOp 0x0D (pkt 0x0D 0 0 [4]) = true ∧
    isOp 0x0D (pkt 0x0A 0 0 []) = false ∧ s.carriesOn (pkt 0x0D 0 0 [4]) = false ∧ s.qState 3 = qActive ∧
    s.depFailed (pkt 0x0D 0 0 [4]) = none ∧
    ({ s with fails := [⟨3, 4, 2⟩] } : State).depFailed (pkt 0x0D 0 0 [4]) = some ⟨3, 4, 2⟩ ∧
    ({ s with pool := [pkt 0x0D 0 0 [9]] } : State).startable (pkt 0x0D 0 0 [9]) = false := by decide +kernel
theorem test_nop_packet : let s := after (exec (.nopPkt 3 9) (queued (pkt 0x0D 0 0 [])))
    s.pool = [] ∧ s.done.map (fun d => (d.q, d.seq, d.code)) = [] ∧ s.pkt 3 9 = none := by decide +kernel
theorem test_dep_failed : let s := after (exec (.nopPkt 3 9) { queued (pkt 0x010D 0 0 [4]) with fails := [⟨3, 4, 2⟩] })
    s.pool = [] ∧ s.fails.map (fun f => (f.seq, f.fstep)) = [(9, 2), (4, 2)] ∧ s.done.map (fun d => (d.code, d.fstep)) = [(fcDepFailed, 2)] := by decide +kernel
def coping : State := { queued { pkt 0x03 0x10000 64 [] with st := .running } with copyEng := [(0, [(3, 9)])] }
theorem witness_KernelsAndCopies : takes (pkt 0x01 0x1000 0x2000 []) (isOp 0x01) = true ∧ (queued (pkt 0x01 0 0 [])).kernels.any
      (fun k => k.q == 3 && k.seq == 9) = false ∧ takes (pkt 0x02 0 0 []) (isOp 0x02) = true ∧
    takes (pkt 0x03 0x10000 64 []) (isOp 0x03) = true ∧ coping.owed 3 9 = false ∧
    (match coping.copyTo 64 { pkt 0x03 0x10000 64 [] with st := .running } 64 0 .clean with
      | .ok _ => true | .wait _ => false | .fail _ _ => false) = true := by
  decide +kernel
theorem test_launch : ((after (exec (.launch 3 9) (queued (pkt 0x01 0x1000 0x2000 [])))).kernels.drop 1).map
    (fun k => (k.q, k.seq, k.entry, k.args, k.asc)) = [(3, 9, 0x1000, 0x2000, 2)] := by decide +kernel
theorem witness_SynchronisingPackets : takes (pkt 0x04 0 0 []) (isOp 0x04) = true ∧ takes (pkt 0x04 0x70000 0 []) (isOp 0x04) = true ∧
    takes (pkt 0x05 0 0 []) (isOp 0x05) = true ∧ takes (pkt 0x06 0x10000 1 []) (isOp 0x06) = true ∧
    takes (pkt 0x07 0 0 []) (isOp 0x07) = true ∧ takes (pkt 0x08 0x10000 0 []) (isOp 0x08) = true ∧
    takes (pkt 0x09 7 0 []) (isOp 0x09) = true ∧ takes (pkt 0x0A 0 0 []) (isOp 0x0A) = true ∧
    takes (pkt 0x0C 0 0 []) (isOp 0x0C) = true ∧ takes (pkt 0x0D 0 0 []) (isOp 0x0D) = true ∧
    (queued (pkt 0x06 0x10000 1 [])).feWaits (pkt 0x06 0x10000 1 []) = false := by decide +kernel
theorem test_fence_signal : let s := after (exec (.fenceSignal 3 9) (queued (pkt 0x04 0xFFFF0005 3 [])))
    s.fld .CFE_FENCE_VALUE_value 5 = 3 ∧ s.pool = [] := by decide +kernel
theorem test_mark : (after (exec (.markPkt 3 9) (queued (pkt 0x09 7 0 [])))).fld .CFE_Q_MARK_mark 3 = 7 := by decide +kernel
theorem test_fence_wait : let s := after (exec (.fenceWait 3 9) (queued (pkt 0x05 5 3 [])))
    s.pool.map (·.st) = [.running] ∧ (s.fenceSignal 5 3).1.pool = [] := by
  decide +kernel
/-- A record write acknowledged, with one more to go, to host memory. -/
def recw : RecWrite := ⟨3, true, true, 0x3000, [(0, [1])], true⟩
/-- A FENCE_WAIT past its limit of 5 ns, and a collective step. -/
def stale : State := { queued { pkt 0x05 0x100000005 3 [] with st := .running, lim := 5 } with time := { s0.time with ns := 10 ^ 9 }, colls := [⟨3, 9, 1, 1, 0, [], false, 0, 0, []⟩] }
theorem witness_StepsEnd : stale.ready = true ∧ (stale.pkt 3 9).map (fun p => (p.waitsFence 5, p.b 12 4)) = some (true, 1) ∧
    (stale.collOf 3 9).isSome = true ∧ stale.remote = [] ∧
    ({ stale with pool := [{ pkt 0x06 0 0 [] with st := .running }] } : State).pkt 3 9 ≠ none ∧
    stale.nextRecord 3 = none ∧ stale.alive = true ∧
    ({ stale with done := [⟨3, 0, 0, 0, 0, 0, 5, true, false, false, false, false, false, false⟩] } : State).nextRecord 3 ≠ none ∧
    ({ stale with acks := [recw] } : State).acks.find? (fun a => a.q == 3) = some recw ∧ recw.sent = true ∧
    (match (stale.setAck recw (some { recw with sent := false })).areaOut true 0x3000 [1] with | .sent _ => true | _ => false) = true := by
  decide +kernel
theorem test_fence_wait_timeout : let s := after (exec (.fenceWaitTimeout 3 9) stale)
    s.qState 3 = qFaulted ∧ s.pool.map (·.fault) = [fcWaitTimeout] := by decide +kernel
theorem witness_CollectivePackets : (List.range 5).all (fun a => takes (pkt 0x0B (BitVec.ofNat 64 a) 0 []) (isAct 0x0B a)) = true ∧
    stale.collAhead 1 1 = true ∧ stale.route 5 = none ∧
    ({ stale with collSeq := [(1, 4)] } : State).collAhead 1 4 = false := by decide +kernel
theorem witness_ContextPackets : (List.range 4).all (fun a => takes (pkt 0x80 (BitVec.ofNat 64 (a + 512)) 0 []) (isAct 0x80 a)) = true ∧
    takes (pkt 0x81 0x300 0 []) (isOp 0x81) = true ∧ takes (pkt 0x82 0x300 0 []) (isOp 0x82) = true ∧
    (queued (pkt 0x82 0 0 [])).fld .CFE_ASC_STATE_state 2 = 1 ∧ (queued (pkt 0x82 0 0 [])).fld .CFE_ASC_STATE_state 3 = 0 ∧
    (queued (pkt 0x80 0 0 [])).pagesHeld 0 1 = [] := by decide +kernel
theorem test_asc_create : let s := after (exec (.ascCreate 3 9) (queued (pkt 0x81 0x300 0x4000 [])))
    s.fld .CFE_ASC_STATE_state 3 = 1 ∧ s.fld .CFE_ASC_ROOT_root 3 = 0x4000 ∧ s.pool = [] := by decide +kernel
theorem witness_QueuePackets : (List.range 6).all (fun a => takes (pkt 0x83 (BitVec.ofNat 64 (a + 0x50000)) 0 []) (isAct 0x83 a)) = true ∧
    (queued (pkt 0x83 0 0 [])).qState 5 = qDisabled ∧
    ((queued (pkt 0x83 0 0 [])).setFld .CFE_Q_STATUS_state 5 qFaulted).qState 5 = qFaulted := by decide +kernel
theorem test_queue_stop : let s := after (exec (.queueStop 3 9) ((queued (pkt 0x83 0x50002 0 [])).setFld .CFE_Q_STATUS_state 5 qActive))
    s.qState 5 = qStopped ∧ s.qState 3 = qActive := by decide +kernel
theorem witness_SettingPackets : takes (pkt 0x84 0x50000 0 []) (isAct 0x84 0) = true ∧ takes (pkt 0x84 0x50001 0 []) (isAct 0x84 1) = true ∧
    takes (pkt 0x85 0x50000 0 []) (isOp 0x85) = true ∧ takes (pkt 0x86 0x100000000 0 []) (isOp 0x86) = true ∧
    takes (pkt 0x88 0x10000 0 []) (isOp 0x88) = true ∧ takes (pkt 0x89 2500 0 []) (isOp 0x89) = true ∧
    takes (pkt 0x8C 0x800000000 0 []) (isOp 0x8C) = true := by decide +kernel
theorem test_power_cap : let s := after (exec (.powerCap 3 9) (queued (pkt 0x89 9000 0 [])))
    s.fld .PWR_CAP_cap_w 0 = 2800 ∧ s.fld .PWR_CAP_source 0 = 2 := by decide +kernel
theorem witness_RegionPackets : (List.range 6).all (fun a => takes (pkt 0x87 (BitVec.ofNat 64 (a + 512)) 0 []) (isAct 0x87 a)) = true ∧
    ((queued (pkt 0x87 512 0 [])).pool.any (fun x => x.onRegion 2 && !(x.q == 3 && x.seq == 9))) = false ∧
    (pkt 0x87 512 0 []).midAction = false ∧
    ((queued (pkt 0x87 512 0 [])).setFld .REG_STATUS_state 2 rgnOnline).rgnUp 2 = true := by decide +kernel
theorem test_quarantine : let s := after (exec (.quarantine 3 9) ((queued (pkt 0x87 0x203 0 [])).setFld .REG_STATUS_state 2 rgnOnline))
    s.fld .REG_STATUS_state 2 = rgnQuarantined ∧ s.fld .RAS_RGN_CAUSE_cause 2 = 1 := by decide +kernel

/-! ### Fetch and firmware -/

/-- Queue 3 with one packet in its ring in host memory: a NOP of step 0 that begins a buffer. -/
def ring : State := { up with queues := [(3, { Queue.init with w := 1 })], hostMem := [(0x2000, 0x0D), (0x2001, 1)] }.setFlds 3
  [(.CFE_Q_STATUS_state, qActive), (.CFE_Q_CFG_size_log2, 6), (.CFE_Q_CFG_ring_host, 1), (.CFE_Q_BASE_base, 0x2000), (.CFE_Q_WPTR_wptr, 1)]
theorem witness_Fetches : ring.ready = true ∧ ring.mayFetch 3 = true ∧ (ring.queue 3).refetch = none ∧ ring.runLength 3 = 1 ∧
    ring.nextAddr 3 = (0x2000, false) ∧
    (match ring.readPkt 3 0x2000 false with | .ok _ bs => bs.take 3 == [0x0D, 1, 0] | _ => false) = true ∧
    ring.mayFetch 4 = false ∧
    ({ ring with queues := [] }.setFld .CFE_Q_RPTR_rptr 3 1).mayFetch 3 = true ∧
    isOp 0x0E (pkt 0x0E 0 0 []) = true := by decide +kernel
theorem test_fetch_run : let s := after (exec (.fetchRun 3) ring)
    s.pool.map (fun p => (p.q, p.seq, p.opcode, p.step)) = [(3, 1, 0x0D, 0)] ∧ s.fld .CFE_Q_RPTR_rptr 3 = 1 ∧
      s.fld .CFE_Q_SEQ_fetched_seq 3 = 1 := by decide +kernel
def env : FlashEnv := ⟨true, true⟩
theorem witness_FirmwarePackets : takes (pkt 0x8A 0x10000 64 []) (isOp 0x8A) = true ∧ takes (pkt 0x8B 0 0 []) (isOp 0x8B) = true ∧
    (queued (pkt 0x8A 0 0 [])).sec.ends.any (fun x => x.2 == (3, 9)) = false ∧ (queued (pkt 0x8A 0 0 [])).stageBusy = false ∧
    ((queued (pkt 0x8B 0 0 [])).setFld .SEC_FW_STATE_stage_state 0 stStaged).stage = stStaged ∧
    ((queued (pkt 0x8B 0 0 [])).accept 0).isSome = true := by decide +kernel
theorem test_fw_activate_unstaged : let s := after (exec (.fwActivate 3 9 env) (queued (pkt 0x8B 0 0 [])))
    s.qState 3 = qFaulted ∧ s.pool.map (·.fault) = [fcFwState] := by decide +kernel
def xfer : State := { up with sec := { up.sec with xfer := some ⟨0, 0, 100000, 0, 0, 0, 12, 0⟩ } }
theorem witness_Mailbox : up.mbxUp = true ∧ xfer.mbxUp = true ∧ (xfer.relayOpen 12).isSome = true ∧ up.relayOpen 12 = none ∧
    up.january = false ∧ (up.setFld .HIF_PROMPT_STATE_boot_state 0 9).january = true ∧ up.stage ≠ stArmed ∧
    (up.setFld .SEC_FW_STATE_stage_state 0 stArmed).stage = stArmed := by decide +kernel
theorem test_chunk : let s := after (exec (.chunk 65536 true) xfer)
    (s.sec.xfer.map (·.got), s.fld .SEC_MBX_STATUS_state 0, s.fld .SEC_MBX_STATUS_bytes 0) = (some 65536, 2, 65536) ∧
      (after (exec (.chunk 65537 true) xfer)).fld .SEC_MBX_STATUS_state 0 = 3 := by decide +kernel
def swap : State := { up with hif := { up.hif with rst := .swap } }.setFld .SEC_FW_STATE_stage_state 0 stActivating
theorem witness_FirmwareSwap : (up.setFld .SEC_FW_STATE_stage_state 0 stArmed).ready = true ∧
    (up.setFld .SEC_FW_STATE_stage_state 0 stArmed).fld .SEC_FW_ARM_at_ns 0 ≤ up.now ∧ swap.swapping = true ∧
    swap.now < swap.sec.swapAt + 2000000000 := by decide +kernel

/-! ### The fabric -/

/-- Port 1 is NATIVE and UP; this device is 2; device 1 may write and update page 5. -/
def fab (mode : Nat) : State := (s0.setFlds 1 [(.FAB_PORT_CFG_mode, mode), (.FAB_PORT_STATUS_state, portUp), (.FAB_PORT_CFG_ptp_en, 1)]).setFlds 0
  [(.FAB_ID_dev_id, 2), (.FAB_EXPORT_valid, 1), (.FAB_EXPORT_dpn_base, 5), (.FAB_EXPORT_count, 1), (.FAB_EXPORT_src_id, 1),
    (.FAB_EXPORT_w, 1), (.FAB_EXPORT_amo, 1)] |>.setFlds 1 [(.FAB_ROUTE_valid, 1), (.FAB_ROUTE_port, 1)]
def fr : Frame := { Frame.blank with dst := 2, src := 1, hops := 3, tid := 8, tepoch := 1, addr := 0x50000, data := [1, 2, 3, 4, 5, 6, 7, 8] }
theorem witness_FramesReceived : (fab 1).portLive 1 = true ∧ (fab 1).portLive 2 = false ∧ fr.good = true ∧
    fr.lseq.toNat = ((fab 1).link ((fab 1).linkKey 1 ((fab 1).rxNbr fr))).nextRx ∧ (fab 1).january = false ∧
    (match (fab 1).rx 1 ftWrReq fr with | .mine _ => true | .gone _ => false) = true ∧
    (match (fab 1).rx 1 ftWrReq { fr with lseq := 1 } with | .mine _ => false | .gone _ => true) = true ∧
    (match (fab 1).rx 1 ftWrReq { fr with dst := 9 } with | .mine _ => false | .gone _ => true) = true ∧
    (fab 1).route 1 = some (1, 0) ∧
    (({ fab 1 with remote := [⟨8, 1, 1, ftRdReq, 0, 100, 0x1000, 8, .probe 1, false, []⟩] } : State).replyFor ftRdRsp fr).isSome = true := by
  decide +kernel
theorem test_hop_drop : let s := after (exec (.wrReq 1 { fr with dst := 9, hops := 0 }) (fab 1))
    s.fld .FAB_COUNT_hop_drops 0 = 1 ∧ s.mem = [] := by decide +kernel
theorem witness_PeerRequests : let s := fab 1
    s.refused fr 8 true false = none ∧ s.refused fr 8 false true = none ∧ s.refused { fr with src := 4 } 8 true false = some 1 ∧
    s.heldLine (.dev 0x50000) 8 true = none ∧ s.fld .CFE_FENCE_CTL_remote_ok 0 = 0 ∧
    (s.spanPut none (.dev 0x50000) [1] none).isSome = true ∧ (s.homeWrite none (.dev 0x50000) [1] none).isSome = true := by
  decide +kernel
theorem test_wr_req : let s := after (exec (.wrReq 1 fr) (fab 1))
    s.mem = [(0x90000, 1), (0x90001, 2), (0x90002, 3), (0x90003, 4), (0x90004, 5), (0x90005, 6), (0x90006, 7), (0x90007, 8)] ∧
      (s.link (s.linkKey 1 0)).replay.map (fun x => (x.type, x.frame.tid)) = [(ftWrAck, 8)] := by decide +kernel
def relaying : State := { fab 1 with sec := { s0.sec with xfer := some ⟨0, 0, 64, 0, 7, 0, 1, 1⟩ } }.setFld .SEC_RELAY_relay_accept 0 1
theorem witness_FirmwareRelay : (match relaying.rx 1 ftFwRelay { fr with arg := 1 } with | .mine s => (s.relayOpen 1 1).isSome && !s.relaySkips 1 1 | .gone _ => false) = true ∧
    (match ((fab 1).setFld .SEC_RELAY_relay_accept 0 0).rx 1 ftFwRelay fr with | .mine s => decide (s.fld .SEC_RELAY_relay_accept 0 = 0) | .gone _ => false) = true ∧
    (match ((fab 1).setFld .SEC_FW_STATE_stage_state 0 stStaged).rx 1 ftFwRelay { fr with arg := 3 } with
      | .mine s => decide (s.stage = stStaged) && !s.january | .gone _ => false) = true := by decide +kernel
theorem witness_LinkLayer : (fab 1).portLive 1 = true ∧ (fab 2).fld .FAB_PORT_CFG_mode 1 = modeEncap ∧
    (fab 3).fld .FAB_PORT_CFG_mode 1 = modePlain ∧ (fab 1).alive = true ∧ (fab 1).linksHeld = false ∧
    ((fab 1).setFld .FAB_PORT_STATUS_state 1 portTraining).fld .FAB_PORT_STATUS_state 1 = portTraining ∧
    ((fab 1).setFld .FAB_PORT_STATUS_state 1 portDown).portLive 1 = false ∧ (1 : Nat) ∉ (fab 1).siliOff := by decide +kernel
theorem test_port_up : ((after (exec (.silitPortUp 1 ⟨0xF0⟩) ((fab 1).setFld .FAB_PORT_STATUS_state 1 portTraining))).fld
    .FAB_PORT_STATUS_state 1) = portDegraded := by decide +kernel
def ann : PtpMsg := ⟨5, 0, false, 1, false, 1000, 0, 0, 3⟩
theorem witness_NetworkTime : ((fab 2).setFld .TIM_CFG_transport 0 2).ptpHears 1 ann = true ∧ (fab 2).ptpChosen 1 ann = false ∧
    (fab 2).betterGm 1 ann = true ∧ (fab 2).stamped 0 = true ∧ (fab 2).ptpPort 1 = true ∧ (fab 2).alive = true ∧
    ({ fab 2 with time := { s0.time with chosen := some (1, 5, 3) } } : State).ptpChosen 1 ann = true ∧
    ({ fab 2 with time := { s0.time with chosen := some (1, 4, 3) } } : State).betterGm 1 ann = false ∧
    ((fab 2).setFld .TIM_STATUS_state 0 timLocked).timState = timLocked := by decide +kernel
theorem test_announce : let s := after (exec (.announce 1 ann) ((fab 2).setFld .TIM_CFG_transport 0 2))
    s.timState = timAcquiring ∧ s.time.chosen = some (1, 5, 3) := by decide +kernel

/-! ### Resets, attestation, faults, power, sideband, test access -/

theorem witness_DeviceResets : up.hostThere = true ∧ up.hif.pcie = false ∧ up.pwr.pwrgood = true ∧ up.pwr.perst = false ∧
    up.pwr.regsOff = false ∧ up.linksHeld = false ∧ ({ up with hif := { up.hif with d3hot := true } } : State).hif.d3hot = true ∧
    (up.setFld .HIF_PROMPT_STATE_boot_state 0 3).alive = true ∧ up.pwr.offReq = false ∧ State.reset.pwr.perst = true := by decide
theorem test_pwrgood_fall : let s := after (exec .pwrgoodFall { s0 with mem := [(5, 1)], flash := [(3, 0)] })
    s.mem = [] ∧ s.flash = [(3, 0)] ∧ s.kernels = [] ∧ s.pwr.pwrgood = false := by decide +kernel
theorem test_link_trained : let s := after (exec (.hostLinkTrained 1 8 64) up)
    s.fld .HIF_LINK_STATUS_lanes 0 = 8 ∧ s.fld .HIF_LINK_STATUS_degraded 0 = 1 := by decide +kernel
theorem witness_Attestation : up.cfgUp = true ∧ up.doeBusy false = false ∧
    ({ up with hif := { up.hif with busy0 := 5 } } : State).doeBusy false = true ∧ up.hif.spdmSt = 0 ∧
    (0 : Nat) < 16384 ∧ up.chain.length = 16384 := by
  exact ⟨by decide, by decide, by decide, by decide, by decide, bytesAt_length _ _ _⟩
theorem witness_FaultStops : up.alive = true ∧ up.fld .HIF_PROMPT_STATE_boot_state 0 ≠ 0 ∧ up.regionHot 2 = false ∧
    up.fld .REG_SPEED_token_rate_mtps 2 < 1060 ∧ (up.setFld .REG_SPEED_vcore_mv 2 700).fld .REG_SPEED_vcore_mv 2 = 700 ∧
    place.fld .REG_STATUS_state 0 = rgnOnline ∧ place.fld .REG_STATUS_state 3 ≠ rgnQuarantined := by decide +kernel
theorem test_watchdog : let s := after (exec .ctlWatchdog s0)
    s.fld .HIF_PROMPT_STATE_boot_state 0 = 0xA ∧ s.fld .RAS_FATAL_fatal_code 0 = 0x209 ∧ s.fld .RAS_FATAL_die 0 = 39 := by
  decide +kernel
theorem witness_PowerManager : up.pmRuns = true ∧ up.fld .PWR_STATUS_state 0 ≠ 1 ∧ up.migs = [] ∧
    mapRange ({ up with used := [(65536 * 24 + 9, 1)] } : State).used (65536 * 24) (65536 * 25) = [(65536 * 24 + 9, 1)] := by
  decide +kernel
theorem test_energy_split : let s := after (exec (.energySplit ()) { up with used := [(65536 * 24 + 9, 1)], pwr := { up.pwr with unitPj := [(24, 250000007)] } })
    s.fld .CFE_ACCT_energy_mj 9 = 2 ∧ s.energyRem = [(9, 500)] ∧ s.used = [] ∧ s.pwr.unitPj = [(24, 7)] := by decide +kernel
theorem test_thermtrip : (after (exec (.sensorSample [(3, 1000)]) up)).pwr.thermtrip = true := by decide +kernel
theorem witness_SidebandAndTest : up.sideUp = true ∧ up.pmRuns = true ∧ up.linksHeld = false ∧
    ({ up with tap := { up.tap with ir := 0x03 } } : State).linksHeld = true := by decide
theorem test_idcode : (after (exec .idcode { up with tap := { up.tap with ir := 0xFF, dr := 0 } })).tap.dr = 0x1481256F := by decide

/-! ### States that meet the hypotheses of the commands' completion -/

/-- Kernel 1 of queue 3 has its thread block placed and retired, its budget of 1 ms run out; its LAUNCH is in the pool.
-/
def spent : State := { queued { pkt 0x01 0 0 [] with seq := 1, st := .running } with
  kernels := [{ krn with id := 7, seq := 1, next := 1, retired := 1, first := some 0, budget := 1 }]
  time := { s0.time with ns := 1000000 } }
/-- One kernel with one thread block to place, its shares fixed. -/
def ripe : State := { place with kernels := [{ krn with share := some [0, 0, 0, 0], cells := [] }] }
theorem witness_EngineCommandsComplete_kernels :
    (busy.req 0 7).map (fun q => q.lanes.map (fun l => (l.st, l.tgt))) = some [(.returned 0 1, .dev 0x50000)] ∧
    (ripe.placeOn { krn with share := some [0, 0, 0, 0], cells := [] } [0, 0, 0, 0]).isSome = true ∧ krn.next < krn.total ∧
    krn.prio ≤ 7 ∧ krn.aborted = false ∧
    (let s : State := { up with blocks := [(0, { Block.init with owes := true, kern := 1 })] }
     (s.block 0).owes = true ∧ (s.block 0).l2.lines = [] ∧ s.remote = [] ∧
        (cellsOfBlock 0).all (fun c => (s.cell c).comb.isEmpty && !(s.cell c).storesLeft) = true) ∧
    (spent.kernel? 7).map (fun x => (x.total - x.next, x.total - x.retired, x.code, x.lost)) = some (0, 0, 0, false) ∧
    spent.blocks.any (fun e => e.2.kern == 7) = false ∧ (spent.pkt 3 1).isSome = true ∧ spent.qState 3 ≠ qDraining ∧
    0 + 1 * 1000000 ≤ spent.now := by
  refine ⟨?_, ?_, ?_, ?_, ?_, ?_, ?_, ?_, ?_, ?_, ?_⟩ <;> decide +kernel
theorem test_kernel_retire : let s := after (exec (.kernelRetire 7) spent)
    s.kernels = [] ∧ s.pool = [] := by decide +kernel
/-- Site 1 is ONLINE, too, and site 0 is being evacuated; page 5 is resident there. -/
def leaving : State := ({ s0 with evac := [.site 0] }).setFld .MEM_SITE_STATUS_state 1 siteOnline
theorem witness_EngineCommandsComplete_memory :
    (moving.migs.find? (fun m => m.dpn == 4)).map (fun m => (m.dirty.length, m.loc)) = some (1, 1) ∧ moving.ftBad = [] ∧
    (let s := leaving.waterMark;
      (firstMove [s.nextEvac 1, s.nextPin 1]).map (fun m => (m.1, m.2.1, (s.lowestFrame m.2.1 true).isSome,
        s.locPaced m.2.1, s.locPaced 0)) = some (5, 1, true, false, false)) ∧
    ({ s0 with unclean := [7] } : State).unclean.contains (0 * 2 ^ 26 + 7) = true ∧
    (port ftpOnline).ready = true ∧ (port ftpOnline).farClear = [] ∧ s0.locUp 0 = true ∧
    passPeriod s0.patrolPer s0.patrolAt 0 64 (s0.fld .CFG_MEMORY_patrol_period_h 0) ≠ 0 ∧
    passPeriod s0.scrubPer s0.scrubAt 0 9 (s0.fld .RAS_SCD_STATUS_scrub_period_h 0) ≠ 0 ∧
    passPeriod [] [] 0 64 0 = 0 := by decide +kernel
theorem test_migration_start : let s := after (exec (.migrationStart 1) leaving)
    s.migs.map (fun m => (m.dpn, m.loc, m.kind)) = [(5, 1, .evac)] ∧ (s.loc 5).state = .migrating := by decide +kernel
theorem test_migration_pass_end : let s := after (exec (.migrationPassEnd 4 .clean) moving)
    s.migs = [] ∧ ((s.loc 4).state, (s.loc 4).loc, (s.loc 4).frame) = (.resident, 1, 6) := by decide +kernel
theorem witness_UnitActions_units : s0.fld .MEM_SITE_STATUS_state 0 = siteOnline ∧ leaving.locUp 1 = true ∧
    ({ leaving with loct := [] } : State).pagesAt 0 = 0 ∧
    ((s0.setFld .MEM_SITE_STATUS_state 0 siteFailed).fld .MEM_SITE_STATUS_state 0 = siteFailed) ∧
    (s0.setFld .MEM_SITE_STATUS_state 0 siteOff).fld .MEM_SITE_STATUS_state 0 = siteOff ∧
    s0.fld .RAS_PRESET_STATUS_busy 0 = 0 ∧ (port ftpFailed).fld .FTP_STATUS_state 2 = ftpFailed ∧
    (port ftpOffline).fld .FTP_STATUS_state 2 = ftpOffline ∧ (fab 1).fld .FAB_PORT_CFG_mode 1 ≠ modeOff ∧
    ({ fab 1 with siliOff := [1] } : State).siliOff = [1] := by decide +kernel
theorem test_site_power_down : let s := after (exec (.sitePowerDown 0) { leaving with loct := [] })
    s.fld .MEM_SITE_STATUS_state 0 = siteOff ∧ s.fld .RAS_PRESET_STATUS_busy 0 = 0 := by decide +kernel
theorem witness_RegionPackets_stages : let x := { pkt 0x87 0x201 0 [] with st := PktSt.running, pos := 1 }
    x.midAction = true ∧ isAct 0x87 1 x = true ∧ isAct 0x87 5 { x with words := [0x87, 0x205] } = true ∧
    (let u := (queued x).rebuildRegion 2 ⟨[], []⟩ false;
      u.alive = true ∧ u.qState 3 = (queued x).qState 3 ∧ (queued x).qState 3 ≠ qDraining ∧
        u.fld .REG_STATUS_enabled_blocks 2 ≠ 0) := by decide +kernel
theorem witness_DeviceResets_ready : up.alive = true ∧ up.fld .HIF_PROMPT_STATE_boot_state 0 = 8 ∧
    mapWf Msix.init up.msix = true := by decide
theorem witness_MasksAndPorts : ({ up with hif := { up.hif with msixEn := true } } : State).hif.msixMask = false ∧
    (port ftpOnline).waitsAt 2 0 = [] ∧ (port ftpOnline).farBusy 2 = false ∧ sgn 64 (2 ^ 63) < 0 ∧
    ((up.setFld .CFE_Q_STATUS_state 3 qDraining).qState 3 = qDraining ∧ (up.queue 3).drain = .none) := by decide +kernel

/-! ### States that meet the hypotheses of single clauses -/

theorem witness_FreeResults_bounds : FFmt.fp32.dec 0x7FC00000 = .nan ∧ (FFmt.fp32.dec 0x40400000).isFin = true ∧
    (FVal.fin false 0 0).rat = 0 ∧ FFmt.fp64.dec 0x4000000000000000 = .fin false (2 ^ 52) (-51) :=
  ⟨by decide +kernel, by decide +kernel, by norm_num [FVal.rat], by decide +kernel⟩
theorem witness_IllegalWords_forms : ((formRows t0 (f0 1 2 3 0 0 3) ⟨g0, 2, 0, 2, 3, 2, 0, 0, false, 1, 0⟩ ⟨g0, 4, 8⟩
      (ui 1 2 0 0) (mi 2 0)).map (fun r => s0.canIssue t0 r.uses r.mem)).contains false = false ∧
    ((formRows t0 (f0 1 2 3 0 0 3) ⟨g0, 2, 0, 2, 3, 2, 0, 0, false, 1, 0⟩ ⟨g0, 4, 8⟩ (ui 1 2 0 0) (mi 5 0)).filter
      (fun r => !r.legal)).length ≠ 0 ∧
    ((formRows t0 (f0 1 2 3 0 0 3) ⟨g0, 2, 0, 3, 3, 2, 0, 0, false, 2, 0⟩ ⟨g0, 4, 8⟩ (ui 1 2 0 0) (mi 5 0)).filter
      (fun r => r.legal && r.range)).length ≠ 0 := by decide +kernel
theorem witness_FullEmptyOperations_home : (match busy.homePrep 0 0x10000 tgt with | .ok _ => true | _ => false) = true ∧
    (match ({ busy with hif := hdm.hif } : State).homePrep 0 0x10000 (.dev 0x50040) with | .wait _ => true | _ => false) = true := by
  decide +kernel
/-- Block 0 owes its kernel end; its L2 has a dirty line of page 5. -/
def dirtyBlock : State := { s0 with blocks := [(0, { Block.init with
  owes := true, kern := 1, l2 := { Block.init.l2 with lines := [(0, ⟨tgt.line, [(0, 7)], [(0, 1)], 0, 0⟩)] } })] }
theorem witness_Kernels_end : (dirtyBlock.block 0).owes = true ∧ (dirtyBlock.l2Clean 0 511 (dirtyBlock.block 0).l2.lines).2 = true ∧
    (let s : State := { dirtyBlock with hif := { dirtyBlock.hif with filter := [⟨0xA00, true⟩] } }
     (s.l2Clean 0 511 (s.block 0).l2.lines).2 = false) ∧
    (busy.cell 0).storesLeft = true := by decide +kernel
theorem witness_HeatAndMigrations_bad : moving.badLines = [] ∧
    ({ moving with badLines := [3 * 512] } : State).badLines.any (fun x => x / 512 == (moving.loc 4).loc * 2 ^ 26 + (moving.loc 4).frame) = true := by
  decide +kernel
theorem witness_MemoryUnits_pairs : s0.pairs = [] ∧ ({ s0 with pairs := [(7, 5)] } : State).pairs.find? (fun x => x.1 == 7) = some (7, 5) ∧
    s0.migs.any (fun m => m.loc == 12 + 2) = false := by decide
theorem witness_FarTierPorts_timeouts : let s : State := { port ftpOnline with
      loct := [(5, { LocEnt.init with state := .resident, loc := 14, frame := 9 })]
      cells := [(0, { Cell.init with reqs := [⟨4, 0, .load 6 2 false true, [⟨0, 0x10000, tgt, 0, 0, .todo⟩], 0, 0x1000, false, 3, 100, false⟩] })] }
    let s := (s.setFld .FTP_EXP_present 16 1).setFld .FTP_EXP_size_256m 16 1
    s.waitsAt 2 0 ≠ [] ∧ (s.waitsAt 2 0).filter (fun w => decide (w.2.2.2.1 ≤ s.now)) = [] ∧ s.farBusy 2 = false ∧
    (let t : State := { s with time := { s.time with ns := 10 ^ 9 } };
      (t.waitsAt 2 0).filter (fun w => decide (w.2.2.2.1 ≤ t.now)) ≠ []) := by decide +kernel
theorem witness_CountersAndRegisters_config : up.hostThere = true ∧ up.hif.crs = false ∧ up.hif.d3hot = false := by decide
theorem witness_SynchronisingPackets_invalidate : let p := pkt 0x0C 0x10000 256 []
    let s := queued p
    (State.linesOut (s.fld .CFE_Q_CFG_asc 3) p.tag (spans (p.b 16 8 / 4096 + 2) (p.b 8 8) (p.b 16 8)) s).isSome = true ∧
    s.owed 3 9 = false ∧
    (match (s.access feMmu 2 0x90000 .read).1 with | .error (.wait _) => false | .error _ => true | .ok _ => false) = true := by
  decide +kernel
theorem witness_SettingPackets_dumps : let p := pkt 0x88 0x10000 0 []
    (queued p).otherDumps p = [] ∧
    (({ queued p with pool := [p, { p with seq := 8, st := .running, pos := 1 }] } : State).otherDumps p).map (·.pos) = [1] := by
  decide +kernel
theorem witness_Mailbox_poll : let s := up.setFld .HIF_PROMPT_STATE_boot_state 0 9
    s.january = true ∧ s.mbxUp = true ∧ s.fld .SEC_JAN_set_ready 0 = 0 ∧
    (s.setFld .SEC_JAN_set_ready 0 1).fld .SEC_JAN_set_ready 0 ≠ 0 := by decide +kernel
theorem witness_FirmwareSwap_ends : swap.drained = true ∧ swap.hif.rst = .swap ∧
    (swap.setFld .CFE_ASC_STATE_state 2 1).swapping = true ∧ (swap.setFld .CFE_ASC_STATE_state 2 1).drained = false ∧
    (let s : State := { swap with time := { swap.time with ns := 2000000000 } };
      s.swapping = true ∧ s.sec.swapAt + 2000000000 ≤ s.now) := by decide +kernel
theorem witness_FramesReceived_types : ackProbe ftProbe { fr with arg := 1 } = true ∧ ackProbe ftWrReq fr = false ∧
    (0x99 : Nat) ∉ listedTypes ∧ ftWrReq ∈ listedTypes ∧
    (⟨8, 1, 1, ftRdReq, 0, 100, 0x1000, 8, .probe 1, false, []⟩ : RemReq).replyPart ftRdRsp 0 [1] = none ∧
    (⟨8, 1, 1, ftRdReq, 0, 100, 0x1000, 8, .probe 1, false, []⟩ : RemReq).replyPart ftRdRsp 4 [] = some [] := by decide
theorem witness_PeerRequests_clauses : let s := fab 1
    ({ s with hif := hdm.hif } : State).heldLine (.dev 0x50000) 8 true = some (.dev 0x50000) ∧
    (s.takeBad (.dev 0x50000) 8).2 = false ∧ (({ s with badLines := [9 * 512] } : State).takeBad (.dev 0x50000) 8).2 = true ∧
    endsTile fr = false ∧ s.fillBad (.dev 0x50000) 8 = false ∧
    endsTile { fr with addr := 0x50C00, data := List.replicate 1024 0 } = true ∧
    (spans 3 0x50C00 1024).all (fun c => !s.fillBad (.dev c.1) c.2) = true ∧
    (s.peerPut { fr with addr := 0x50C00, data := List.replicate 1024 0 }).isSome = true ∧ s.noRoom 1 1 fr = false := by
  refine ⟨?_, ?_, ?_, ?_, ?_, ?_, ?_, ?_, ?_⟩ <;> decide +kernel
theorem witness_FirmwareRelay_skips : (relaying.relaySkip 1 1 0).relaySkips 1 1 = true ∧ relaying.relaySkips 1 1 = false ∧
    (relaying.setFld .HIF_PROMPT_STATE_boot_state 0 9).january = true ∧
    (match (relaying.setFld .HIF_PROMPT_STATE_boot_state 0 9).rx 1 ftFwRelay { fr with arg := 3, dst := 0xFFFE } with
      | .mine s => s.january | .gone _ => false) = true := by decide +kernel
theorem witness_LinkLayer_trains : ({ fab 1 with retrain := [1] } : State).retrain = [1] ∧ (fab 1).retrain = [] ∧
    ((fab 2).setFld .FAB_PORT_CFG_pfc_en 1 1).fld .FAB_PORT_CFG_pfc_en 1 ≠ 0 := by decide +kernel
theorem witness_NetworkTime_silence : let s : State := { fab 2 with
      time := { s0.time with chosen := some (1, 4, 3), ns := 6000000000, twoStep := some (7, 5, 0) } }
    s.gmSilent = true ∧ s.ptpChosen 1 ann = false ∧ s.betterGm 1 ann = true ∧
    (let t := s.setFld .TIM_STATUS_state 0 timLocked; t.timState = timLocked ∧ t.time.syncAt + 3 * t.time.syncIv ≤ t.now) ∧
    ({ fab 2 with time := { s0.time with syncIv := 5 } } : State).now < 0 + 3 * 5 := by decide +kernel
theorem witness_DeviceResets_fatal : (up.setFld .HIF_PROMPT_STATE_boot_state 0 0xA).fld .HIF_PROMPT_STATE_boot_state 0 = 0xA ∧
    Resetting.flr ≠ .host := by decide +kernel
theorem witness_FaultStops_slow : let s : State := { up with slowAt := [(2, 1)], time := { up.time with ns := 10000000 } }
    mapGet 0 s.slowAt 2 ≠ 0 ∧ mapGet 0 s.slowAt 2 + 10000000 ≤ s.now + 1 ∧ up.slowAt = [] := by decide
theorem witness_PowerManager_rails : railLost ⟨[(41, 1163, 0)], false, false⟩ = true ∧ railLost ⟨[(41, 1200, 0)], false, false⟩ = false ∧
    ({ up with pwr := { up.pwr with unitPj := [(24, 5)] } } : State).pwr.unitPj = [(24, 5)] ∧ up.pwr.regsOff = false ∧
    (1000 : Int) ≤ 1000 + up.calOf 3 3 := by decide +kernel
theorem witness_SidebandAndTest_bypass : (0xFF : BitVec 8) ∉ ([0x00, 0x01, 0x02, 0x03, 0x04, 0x09, 0x0A] : List (BitVec 8)) ∧
    up.pwr.pwrgood = true := by decide

/-! ### Frames as bytes (R346, R349, R350) -/

/-- A frame with a mark in every field. -/
def wireFrame : Frame :=
  { dst := 0x0102, src := 0x0304, hops := 5, vc := true, status := 3, lseq := 0x06070809, lack := 0x0A0B0C0D, tid := 0x0E0F
    tepoch := 0x10, size := 2, sign := true, aop := 9, addr := 0x11, arg := 0x12131415, data := [7], good := true }

/-- R346: the bytes of a header, from its table. -/
theorem test_wire_header : frameHeader 0x03 wireFrame =
    [2, 1, 4, 3, 0x03, 0x15, 1, 0x60, 9, 8, 7, 6, 0x0D, 0x0C, 0x0B, 0x0A, 0x0F, 0x0E, 0x10, 0x9A, 0x11, 0, 0, 0, 0, 0, 0, 0,
      0x15, 0x14, 0x13, 0x12] := by decide +kernel

theorem test_wire_back : frameOf (frameBytes 0x03 wireFrame) = (0x03, wireFrame) := by decide +kernel

/-- R349: a 4 KiB write takes 65 units and, after every 20, a control unit. -/
theorem test_wire_units : (frameUnits 0x03 { wireFrame with data := List.replicate 4096 0 }).length = 65 * 64 ∧
    controlUnits 65 = 3 := by decide +kernel

end Sys2Proof.Tests
end

/-!
PROOFS. The family of the package and of timing: one step of the machine, the fatal stop (R17, R430, R431) and the faults
of regions (R34, R420, R421).
-/

namespace Sys2Proof.Machine

variable {s : State}

/-! ### The step and the idle step -/

theorem step_cons {c : Instr} {rest : List Instr} (h : s.pending = c :: rest) :
    step s = exec c { s with pending := rest } := by simp only [step, h]

theorem step_nil (h : s.pending = []) : step s = .next s.tick := by simp only [step, h]

/-- A device without power, or not yet in its start-up, sees no time pass. -/
theorem State.tick_of_off (h : s.pwr.pwrgood = false ∨ s.pwr.regsOff = true ∨ s.fld .HIF_PROMPT_STATE_boot_state 0 = 0) :
    s.tick = s := by
  have hoff : (!s.pwr.pwrgood || s.pwr.regsOff || s.fld .HIF_PROMPT_STATE_boot_state 0 == 0) = true := by
    rcases h with h | h | h <;> simp [h]
  exact if_pos hoff

/-- Settles O9, by the two equations of `step` and the guard of `tick`. -/
theorem stepRuns : Obligations.StepRuns :=
  ⟨fun _ _ _ h => step_cons h, fun _ h => ⟨step_nil h, State.tick_of_off⟩⟩

/-! ### Register fields set together -/

/-- Several different fields set: each reads its own value. -/
theorem State.fld_setFlds_of_mem {i : Nat} {l : List (Fld × Nat)} {f : Fld} {v : Nat} (hn : (l.map Prod.fst).Nodup)
    (h : (f, v) ∈ l) : (s.setFlds i l).fld f i = v % 2 ^ f.desc.width := by
  induction l generalizing s with
  | nil => cases h
  | cons e t ih =>
    obtain ⟨hnot, hn⟩ := List.nodup_cons.mp hn
    rcases List.mem_cons.mp h with rfl | h
    · have hne : ∀ e ∈ t, e.1 ≠ f := fun e he hf => hnot (List.mem_map.mpr ⟨e, he, hf⟩)
      rw [State.setFlds, State.fld_setFlds_ne _ _ _ _ hne, State.fld_setFld_self]
    · exact ih hn h

@[simp] theorem State.setFlds_mem (i : Nat) (l : List (Fld × Nat)) : (s.setFlds i l).mem = s.mem := by
  rw [State.setFlds_only]

/-! ### Events and the boot state -/

@[simp] theorem State.event_regs : s.event.regs = s.regs := by unfold State.event; split <;> rfl
@[simp] theorem State.event_mem : s.event.mem = s.mem := by unfold State.event; split <;> rfl

@[simp] theorem State.pldmEvent_regs (e : Nat) : (s.pldmEvent e).regs = s.regs := by unfold State.pldmEvent; split <;> rfl
@[simp] theorem State.pldmEvent_mem (e : Nat) : (s.pldmEvent e).mem = s.mem := by unfold State.pldmEvent; split <;> rfl

/-- A field reads the register map alone. -/
theorem State.fld_congr {t : State} (h : t.regs = s.regs) (f : Fld) (i : Nat) : t.fld f i = s.fld f i := by
  unfold State.fld; rw [h]

/-- `boot_state` set is that register alone set: the events touch no register. -/
theorem State.setBoot_regs {v : Nat} (h : s.fld .HIF_PROMPT_STATE_boot_state 0 ≠ v) :
    (s.setBoot v).regs = (s.setFld .HIF_PROMPT_STATE_boot_state 0 v).regs := by
  simp [State.setBoot, h]

theorem State.fld_setBoot_ne {g : Fld} (v j : Nat) (hg : g ≠ .HIF_PROMPT_STATE_boot_state) :
    (s.setBoot v).fld g j = s.fld g j := by
  by_cases h : s.fld .HIF_PROMPT_STATE_boot_state 0 = v
  · rw [State.setBoot, if_pos h]
  · rw [State.fld_congr (State.setBoot_regs h), State.fld_setFld_ne _ _ _ _ hg]

theorem State.fld_setBoot_self {v : Nat} (hv : v < 16) : (s.setBoot v).fld .HIF_PROMPT_STATE_boot_state 0 = v := by
  by_cases h : s.fld .HIF_PROMPT_STATE_boot_state 0 = v
  · rwa [State.setBoot, if_pos h]
  · rw [State.fld_congr (State.setBoot_regs h), State.fld_setFld_self]
    exact Nat.mod_eq_of_lt hv

@[simp] theorem State.setBoot_mem (v : Nat) : (s.setBoot v).mem = s.mem := by
  unfold State.setBoot
  split
  · rfl
  · simp

/-- R253: a migration abandoned counts in its own register and changes no other. -/
theorem State.fld_abandonMig_ne {g : Fld} (m : Migration) (skip : Bool) (j : Nat) (hg : g ≠ .PLE_MIG_STAT_abandoned) :
    (s.abandonMig m skip).fld g j = s.fld g j := State.fld_satFld_ne _ _ _ _ hg

@[simp] theorem State.abandonMig_mem (m : Migration) (skip : Bool) : (s.abandonMig m skip).mem = s.mem := rfl

/-! ### The fatal stop (R430, R431) -/

/-- The record of a fatal stop: FATAL and the prompt page (R430). -/
def fatalRecord (code die ns : Nat) : List (Fld × Nat) :=
  [(.RAS_FATAL_fatal_code, code), (.RAS_FATAL_die, die), (.RAS_FATAL_valid, 1), (.RAS_FATAL_TIME_tai_ns, ns),
    (.HIF_PROMPT_FATAL_fatal_code, code), (.HIF_PROMPT_FATAL_fatal_ns, ns), (.HIF_PROMPT_STATE_fatal, 1)]

theorem nodup_fatalRecord (code die ns : Nat) : ((fatalRecord code die ns).map Prod.fst).Nodup := by
  simp [fatalRecord]

/-- R431 step 3: a fabric port in use goes down. -/
def State.portStop (s : State) (p : Nat) : State :=
  if s.fld .FAB_PORT_CFG_mode p = modeOff then s
  else s.setFlds p [(.FAB_PORT_STATUS_state, portDown), (.FAB_PORT_STATUS_lanes_up, 0)]

/-- A fatal stop's first effect: its record, its `boot_state` and its events. -/
def State.stopMark (s : State) (code die : Nat) : State :=
  ((s.setFlds 0 (fatalRecord code die s.now)).setBoot 0xA).pldmEvent 0x81

/-- What a fatal stop ends: viral at the host, migrations abandoned, fabric ports down. -/
def State.stopWork (s : State) : State :=
  let s : State := { s with hif := { s.hif with viral := s.hif.viral || s.hif.viralEn } }
  (s.each s.migs (fun s m => s.abandonMig m false)).each (List.range 12) State.portStop

/-- R431 step 4: dirty host lines written back, the dump due. -/
def State.stopBack (s : State) (code die : Nat) : State := { s.hostBack code die with dumpDue := true }

/-- A second fatal stop changes nothing. -/
theorem State.fatalStop_of_stopped {code die : Nat} (h : s.fld .HIF_PROMPT_STATE_boot_state 0 = 0xA) :
    s.fatalStop code die = s := if_pos h

/-- The first fatal stop, by its code: a stop of start-up leaves its mark alone, and CTL_WATCHDOG writes nothing back. -/
theorem State.fatalStop_first {code die : Nat} (h : s.fld .HIF_PROMPT_STATE_boot_state 0 ≠ 0xA) : s.fatalStop code die =
    if code < 0x200 then s.stopMark code die
    else if code = 0x0209 then (s.stopMark code die).stopWork
    else (s.stopMark code die).stopWork.stopBack code die := if_neg h

/-- The registers that steps 1 to 4 of R431 change beside the record: abandoned migrations are counted, fabric ports go
down. -/
def stopFlds : List Fld := [.PLE_MIG_STAT_abandoned, .FAB_PORT_STATUS_state, .FAB_PORT_STATUS_lanes_up]

theorem State.fld_portStop {g : Fld} (p j : Nat) (hg : g ∉ stopFlds) : (s.portStop p).fld g j = s.fld g j := by
  unfold State.portStop
  split
  · rfl
  · refine State.fld_setFlds_ne _ _ _ _ fun e he hf => hg ?_
    rcases List.mem_cons.mp he with rfl | he
    · simp [stopFlds, ← hf]
    · simp [stopFlds, ← hf, List.mem_singleton.mp he]

@[simp] theorem State.portStop_mem (p : Nat) : (s.portStop p).mem = s.mem := by
  unfold State.portStop
  split
  · rfl
  · exact State.setFlds_mem _ _

theorem State.fld_stopWork {g : Fld} (j : Nat) (hg : g ∉ stopFlds) : s.stopWork.fld g j = s.fld g j := by
  have hmig : g ≠ .PLE_MIG_STAT_abandoned := fun e => hg (by simp [stopFlds, e])
  exact (State.each_same _ _ (State.fld · g j) fun _ p => State.fld_portStop p j hg).trans
    (State.each_same _ _ (State.fld · g j) fun _ m => State.fld_abandonMig_ne m false j hmig)

@[simp] theorem State.stopWork_mem : s.stopWork.mem = s.mem :=
  (State.each_same _ _ State.mem fun _ p => State.portStop_mem p).trans
    (State.each_same _ _ State.mem fun _ m => State.abandonMig_mem m false)

@[simp] theorem State.stopBack_regs (code die : Nat) : (s.stopBack code die).regs = s.regs := rfl
@[simp] theorem State.stopBack_mem (code die : Nat) : (s.stopBack code die).mem = s.mem := rfl

@[simp] theorem State.stopMark_mem (code die : Nat) : (s.stopMark code die).mem = s.mem := by simp [State.stopMark]

/-- The first fatal stop leaves the registers as its mark set them, but for `stopFlds`. -/
theorem State.fld_fatalStop {code die : Nat} {g : Fld} (j : Nat) (h : s.fld .HIF_PROMPT_STATE_boot_state 0 ≠ 0xA)
    (hg : g ∉ stopFlds) : (s.fatalStop code die).fld g j = (s.stopMark code die).fld g j := by
  rw [State.fatalStop_first h]
  split
  · rfl
  · split
    · exact State.fld_stopWork j hg
    · exact (State.fld_congr (State.stopBack_regs code die) g j).trans (State.fld_stopWork j hg)

/-- A fatal stop writes no device memory. -/
@[simp] theorem State.fatalStop_mem (code die : Nat) : (s.fatalStop code die).mem = s.mem := by
  by_cases h : s.fld .HIF_PROMPT_STATE_boot_state 0 = 0xA
  · rw [State.fatalStop_of_stopped h]
  · rw [State.fatalStop_first h]
    split
    · exact State.stopMark_mem code die
    · split
      · exact State.stopWork_mem.trans (State.stopMark_mem code die)
      · exact (State.stopBack_mem code die).trans (State.stopWork_mem.trans (State.stopMark_mem code die))

theorem State.fld_stopMark (code die : Nat) (g : Fld) (j : Nat) : (s.stopMark code die).fld g j =
    ((s.setFlds 0 (fatalRecord code die s.now)).setBoot 0xA).fld g j := State.fld_congr (State.pldmEvent_regs _) g j

/-- A field of the record reads what the record says, cut to its width. -/
theorem State.fld_fatalStop_record {code die v : Nat} {f : Fld} (h : s.fld .HIF_PROMPT_STATE_boot_state 0 ≠ 0xA)
    (hf : (f, v) ∈ fatalRecord code die s.now) : (s.fatalStop code die).fld f 0 = v % 2 ^ f.desc.width := by
  have hother : f ∉ stopFlds ∧ f ≠ .HIF_PROMPT_STATE_boot_state := by
    have hall : ∀ g ∈ (fatalRecord code die s.now).map Prod.fst, g ∉ stopFlds ∧ g ≠ .HIF_PROMPT_STATE_boot_state := by
      simp [fatalRecord, stopFlds]
    exact hall f (List.mem_map.mpr ⟨_, hf, rfl⟩)
  rw [State.fld_fatalStop 0 h hother.1, State.fld_stopMark, State.fld_setBoot_ne _ _ hother.2]
  exact State.fld_setFlds_of_mem (nodup_fatalRecord _ _ _) hf

theorem State.fatalStop_boot (code die : Nat) : (s.fatalStop code die).fld .HIF_PROMPT_STATE_boot_state 0 = 0xA := by
  by_cases h : s.fld .HIF_PROMPT_STATE_boot_state 0 = 0xA
  · rwa [State.fatalStop_of_stopped h]
  · rw [State.fld_fatalStop 0 h (by simp [stopFlds]), State.fld_stopMark]
    exact State.fld_setBoot_self (by decide)

/-- R430: no engine runs after a fatal stop. -/
theorem State.alive_of_stopped (h : s.fld .HIF_PROMPT_STATE_boot_state 0 = 0xA) : s.alive = false := by
  simp [State.alive, State.serves, h]

theorem State.boot_ne_of_alive (h : s.alive = true) : s.fld .HIF_PROMPT_STATE_boot_state 0 ≠ 0xA := fun hb => by
  simp [State.alive_of_stopped hb] at h

/-! ### Failures of the chip (R17, R430) -/

theorem exec_d2dLinkFailure (die : Nat) (s : State) :
    exec (.d2dLinkFailure die) s = .next (s.dieFails 0x0201 die (decide (die < 40))) := rfl

theorem exec_dieInternalError (die : Nat) (s : State) :
    exec (.dieInternalError die) s = .next (s.dieFails 0x0206 die (decide (24 ≤ die ∧ die < 40))) := by
  rw [Bool.decide_and]; rfl

theorem exec_fwFault (die : Nat) (s : State) : exec (.fwFault die) s =
    .next (s.dieFails 0x0207 die (decide ((24 ≤ die ∧ die < 28) ∨ (30 ≤ die ∧ die < 36) ∨ die = 39))) := by
  rw [Bool.decide_or, Bool.decide_or, Bool.decide_and, Bool.decide_and, ← Bool.or_assoc]; rfl

theorem exec_ctlWatchdog (s : State) : exec .ctlWatchdog s = .next (s.dieFails 0x0209 39 true) := rfl

theorem State.dieFails_false (code die : Nat) : s.dieFails code die false = s := by simp [State.dieFails]

theorem State.dieFails_true (code die : Nat) (ha : s.alive = true) (hb : s.fld .HIF_PROMPT_STATE_boot_state 0 ≠ 0) :
    s.dieFails code die true = s.fatalStop code die := by simp [State.dieFails, ha, hb]

/-- A command that is a chip-level failure of a die, once start-up has begun: nothing where its test refuses it, else
the fatal stop with its record. -/
theorem exec_dieFails {c : Instr} {code die : Nat} {ok : Bool} (hc : exec c s = .next (s.dieFails code die ok))
    (hcode : code < 2 ^ 16) (hdie : ok = true → die < 2 ^ 6) (ha : s.alive = true)
    (hb : s.fld .HIF_PROMPT_STATE_boot_state 0 ≠ 0) :
    (ok = false → exec c s = .next s) ∧
    (ok = true → ∃ t, exec c s = .next t ∧ t.fld .HIF_PROMPT_STATE_boot_state 0 = 0xA ∧
      t.fld .RAS_FATAL_fatal_code 0 = code ∧ t.fld .RAS_FATAL_die 0 = die ∧ t.fld .RAS_FATAL_valid 0 = 1 ∧
      t.fld .HIF_PROMPT_STATE_fatal 0 = 1 ∧ t.fld .HIF_PROMPT_FATAL_fatal_code 0 = code ∧
      t.fld .RAS_FATAL_TIME_tai_ns 0 = s.now % 2 ^ Fld.RAS_FATAL_TIME_tai_ns.desc.width ∧ t.mem = s.mem ∧
      t.alive = false) := by
  refine ⟨fun hok => ?_, fun hok => ?_⟩
  · rw [hc, hok, State.dieFails_false]
  · have hrec {f : Fld} {v : Nat} := State.fld_fatalStop_record (f := f) (v := v) (code := code) (die := die)
      (State.boot_ne_of_alive ha)
    have hboot := s.fatalStop_boot code die
    refine ⟨s.fatalStop code die, ?_, hboot, ?_, ?_, ?_, ?_, ?_, ?_, ?_, State.alive_of_stopped hboot⟩
    · rw [hc, hok, State.dieFails_true code die ha hb]
    · exact (hrec (by simp [fatalRecord])).trans (Nat.mod_eq_of_lt hcode)
    · exact (hrec (by simp [fatalRecord])).trans (Nat.mod_eq_of_lt (hdie hok))
    · exact hrec (v := 1) (by simp [fatalRecord])
    · exact hrec (v := 1) (by simp [fatalRecord])
    · exact (hrec (by simp [fatalRecord])).trans (Nat.mod_eq_of_lt hcode)
    · exact hrec (by simp [fatalRecord])
    · exact State.fatalStop_mem code die

/-! ### Faults of regions (R34, R420, R421) -/

theorem exec_regionNetworkError (r : Fin 24) (ha : s.alive = true) :
    exec (.regionNetworkError r) s = .next (s.quarantineRegion r.val 2) :=
  congrArg Host.Outcome.next (if_pos ha)

theorem exec_regionManagerSilent (r : Fin 24) (ha : s.alive = true) :
    exec (.regionManagerSilent r) s = .next (s.quarantineRegion r.val 3) :=
  congrArg Host.Outcome.next (if_pos ha)

theorem State.slowNow_iff (r : Nat) : s.slowNow r = true ↔
    s.regionHot r = false ∧ s.fld .REG_SPEED_token_rate_mtps r < 1060 ∧ 700 ≤ s.fld .REG_SPEED_vcore_mv r := by
  simp [State.slowNow, and_assoc]

/-- R420: a region is quarantined as slow 10 ms after its first low measurement, and not before. -/
theorem exec_regionSlow (r : Fin 24) (ha : s.alive = true) : exec (.regionSlow r) s = .next (
    if s.slowNow r.val = true ∧ mapGet 0 s.slowAt r.val ≠ 0 ∧ mapGet 0 s.slowAt r.val + 10000000 ≤ s.now + 1
    then s.quarantineRegion r.val 5 else s) := by
  refine congrArg Host.Outcome.next (if_congr ?_ rfl rfl)
  simp [ha, and_assoc]

theorem exec_regionSlow_quarantines (r : Fin 24) (ha : s.alive = true) (hhot : s.regionHot r.val = false)
    (hlow : s.fld .REG_SPEED_token_rate_mtps r.val < 1060) (hrail : 700 ≤ s.fld .REG_SPEED_vcore_mv r.val)
    (hsince : mapGet 0 s.slowAt r.val ≠ 0) (hlong : mapGet 0 s.slowAt r.val + 10000000 ≤ s.now + 1) :
    exec (.regionSlow r) s = .next (s.quarantineRegion r.val 5) := by
  rw [exec_regionSlow r ha, if_pos ⟨(State.slowNow_iff _).mpr ⟨hhot, hlow, hrail⟩, hsince, hlong⟩]

theorem exec_regionSlow_idle (r : Fin 24) (ha : s.alive = true)
    (h : s.regionHot r.val = true ∨ 1060 ≤ s.fld .REG_SPEED_token_rate_mtps r.val ∨ s.fld .REG_SPEED_vcore_mv r.val < 700 ∨
      mapGet 0 s.slowAt r.val = 0 ∨ s.now + 1 < mapGet 0 s.slowAt r.val + 10000000) :
    exec (.regionSlow r) s = .next s := by
  rw [exec_regionSlow r ha, if_neg]
  rintro ⟨hslow, hsince, hlong⟩
  obtain ⟨hhot, hlow, hrail⟩ := (State.slowNow_iff _).mp hslow
  rcases h with h | h | h | h | h
  · simp [hhot] at h
  · omega
  · omega
  · exact hsince h
  · omega

/-- A region's heat does not depend on its measured token rate. -/
theorem State.regionHot_setFld_tokenRate (r n v : Nat) :
    (s.setFld .REG_SPEED_token_rate_mtps n v).regionHot r = s.regionHot r := by
  simp only [State.regionHot, State.fld_setFld_ne _ _ _ _ (show Fld.PWR_TEMP_temp ≠ .REG_SPEED_token_rate_mtps by decide)]

/-- R34: the measured rate of a region: the lowest of its four replicas. -/
def State.measuredRate (s : State) (r a b c d : Nat) : State :=
  s.setFld .REG_SPEED_token_rate_mtps r (min (min a b) (min c d))

/-- R420: since when a region's rate is low, 0 where it is not. -/
def State.slowSince (s : State) (r : Nat) : Nat :=
  if !s.slowNow r then 0 else if mapGet 0 s.slowAt r = 0 then s.now + 1 else mapGet 0 s.slowAt r

/-- R34, R420: a measurement shows the lowest rate and notes since when it is low. -/
theorem exec_tokenRateMeasure (r : Fin 24) (a b c d : Nat) (ha : s.alive = true)
    (hr : s.fld .REG_STATUS_state r.val ≠ rgnOffline) :
    exec (.tokenRateMeasure r [a, b, c, d]) s = .next { s.measuredRate r.val a b c d with
      slowAt := mapSet 0 s.slowAt r.val ((s.measuredRate r.val a b c d).slowSince r.val) } := by
  have hon : (s.alive && s.fld .REG_STATUS_state r.val != rgnOffline) = true := by simp [ha, hr]
  exact congrArg Host.Outcome.next (if_pos hon)

theorem State.slowNow_measuredRate_iff (r a b c d : Nat) : (s.measuredRate r a b c d).slowNow r = true ↔
    s.regionHot r = false ∧ (s.measuredRate r a b c d).fld .REG_SPEED_token_rate_mtps r < 1060 ∧
      700 ≤ s.fld .REG_SPEED_vcore_mv r := by
  rw [State.slowNow_iff, State.measuredRate, State.regionHot_setFld_tokenRate,
    State.fld_setFld_ne _ _ _ _ (show Fld.REG_SPEED_vcore_mv ≠ .REG_SPEED_token_rate_mtps by decide)]

/-- R420: the time since which a newly measured rate is low: the earlier one stays. -/
theorem State.slowSince_measuredRate (r a b c d : Nat) : (s.measuredRate r a b c d).slowSince r =
    if s.regionHot r = false ∧ (s.measuredRate r a b c d).fld .REG_SPEED_token_rate_mtps r < 1060 ∧
      700 ≤ s.fld .REG_SPEED_vcore_mv r
    then (if mapGet 0 s.slowAt r = 0 then s.now + 1 else mapGet 0 s.slowAt r) else 0 := by
  by_cases hslow : (s.measuredRate r a b c d).slowNow r = true
  · rw [if_pos ((State.slowNow_measuredRate_iff r a b c d).mp hslow), State.slowSince, hslow]
    rfl
  · rw [if_neg (mt (State.slowNow_measuredRate_iff r a b c d).mpr hslow), State.slowSince,
      Bool.eq_false_of_not_eq_true hslow]
    rfl

/-! ### Quarantine (R420, R421) -/

/-- A region neither ONLINE nor RESETTING is not quarantined. -/
theorem State.quarantineRegion_of_idle {r : Nat} (cause : Nat) (hup : s.fld .REG_STATUS_state r ≠ rgnOnline)
    (hreset : s.fld .REG_STATUS_state r ≠ rgnResetting) : s.quarantineRegion r cause = s := by
  simp [State.quarantineRegion, State.rgnUp, hup, hreset]

theorem State.quarantineRegion_of_online {r : Nat} (cause : Nat) (hup : s.fld .REG_STATUS_state r = rgnOnline) :
    s.quarantineRegion r cause =
      (let t := (s.isolateRegion r rgnQuarantined fcRegionQuarantined).quarantined r cause
       if t.alive then t.each (t.pool.filter (Pkt.acting r)) (fun x p => x.endAction p fcRegionState) else t) := by
  simp [State.quarantineRegion, State.rgnUp, hup]

theorem State.markQuarantined_state (r cause : Nat) :
    (s.markQuarantined r cause).fld .REG_STATUS_state r = rgnQuarantined := by
  rw [State.markQuarantined, State.fld_satFld_ne _ _ _ _ (by decide), State.fld_setFld_ne _ _ _ _ (by decide),
    State.fld_setFld_self]
  rfl

theorem State.markQuarantined_cause (r cause : Nat) : (s.markQuarantined r cause).fld .RAS_RGN_CAUSE_cause r =
    cause % 2 ^ Fld.RAS_RGN_CAUSE_cause.desc.width := by
  rw [State.markQuarantined, State.fld_satFld_ne _ _ _ _ (by decide), State.fld_setFld_self]

/-- R421: a quarantine that leaves every region QUARANTINED is a fatal stop. -/
theorem State.quarantined_last {r cause : Nat}
    (h : ∀ i, i < 24 → (s.markQuarantined r cause).fld .REG_STATUS_state i = rgnQuarantined) :
    s.quarantined r cause = (s.markQuarantined r cause).fatalStop 0x0205 r := if_pos (by simpa using h)

/-- A quarantine that leaves another region is the mark alone. -/
theorem State.quarantined_others {r cause : Nat}
    (h : ∃ i, i < 24 ∧ (s.markQuarantined r cause).fld .REG_STATUS_state i ≠ rgnQuarantined) :
    s.quarantined r cause = s.markQuarantined r cause := if_neg (by simpa using h)

/-- Settles O57: the chip's failures by `exec_dieFails`, the regions' faults by the equations of their commands and of
`quarantineRegion`. -/
theorem faultStops : Obligations.FaultStops := by
  refine ⟨fun die s ha hb => ⟨?_, fun t code d ht => State.fatalStop_of_stopped ht⟩, fun r s ha => ?_⟩
  · rw [List.forall_mem_cons, List.forall_mem_cons, List.forall_mem_cons, List.forall_mem_singleton]
    refine ⟨exec_dieFails (die := die) (exec_d2dLinkFailure die s) (by norm_num) (fun hok => ?_) ha hb,
      exec_dieFails (die := die) (exec_dieInternalError die s) (by norm_num) (fun hok => ?_) ha hb,
      exec_dieFails (die := die) (exec_fwFault die s) (by norm_num) (fun hok => ?_) ha hb,
      exec_dieFails (exec_ctlWatchdog s) (by norm_num) (fun _ => by norm_num) ha hb⟩
    all_goals
      have hlisted := of_decide_eq_true hok
      omega
  · refine ⟨exec_regionNetworkError r ha, exec_regionManagerSilent r ha, exec_regionSlow_quarantines r ha,
      exec_regionSlow_idle r ha, fun a b c d hr => ?_,
      fun cause => ⟨State.quarantineRegion_of_idle cause, State.quarantineRegion_of_online cause⟩,
      fun cause => ⟨State.markQuarantined_state _ cause, State.markQuarantined_cause _ cause,
        State.quarantined_others, State.quarantined_last⟩⟩
    refine ⟨_, exec_tokenRateMeasure r a b c d ha hr, State.fld_setFld_self _ _ _ _,
      fun i hi => State.fld_setFld_other _ _ _ _ _ _ fun h => hi h.2, ?_, rfl⟩
    exact (mapGet_mapSet_self 0 _ _ _).trans (State.slowSince_measuredRate _ a b c d)

end Sys2Proof.Machine

/-!
PROOFS. The family of the tile streams: the words of their operations (R79, R80), what an operation that starts does
(R80, R89 to R99), its completion and retirement (R83, R208, R335), and the thread block that retires (R45, R88).
-/

namespace Sys2Proof

/-! ### Words (R79, R80) -/

/-- The command of a stream's operation is the one that its `op` lists, with its cell, stream and fields. -/
theorem macroCmd_of_macroOp {i : Instr} {c : CellId} {st : Stream} {op : BitVec 8} {m : MacroWord}
    (h : i.macroOp = some (c, st, op, m)) : (macroCmd op).map (fun k => k c st m) = some i := by
  unfold Instr.macroOp at h
  split at h
  case h_22 => cases h
  all_goals
    cases h
    rfl

/-- R79: each field of a word stands at its bits: the fields above it are passed over, those below it end where it
begins. -/
theorem MacroWord.word_parts (op : BitVec 8) (m : MacroWord) : let w := m.word op
    w.extractLsb' 0 8 = op ∧ w.extractLsb' 8 1 = bit m.we ∧ w.extractLsb' 9 2 = BitVec.ofNat 2 m.wq.val ∧
    w.extractLsb' 11 1 = bit m.se ∧ w.extractLsb' 12 2 = BitVec.ofNat 2 m.sq.val ∧ w.extractLsb' 14 1 = bit m.tchk ∧
    w.extractLsb' 15 1 = bit m.rsv ∧ w.extractLsb' 16 16 = m.tag ∧ w.extractLsb' 32 96 = m.payload := by
  unfold MacroWord.word
  refine ⟨?op, ?_, ?_, ?_, ?_, ?_, ?_, ?_, ?_⟩
  all_goals repeat rw [BitVec.extractLsb'_append_eq_of_add_le (by decide)]
  case op => exact BitVec.extractLsb'_eq_self
  all_goals exact BitVec.extractLsb'_append_eq_left

/-- A bit of a word where its part of one bit is known. -/
theorem getLsbD_of_bit {n k : Nat} {w : BitVec n} {b : Bool} (h : w.extractLsb' k 1 = bit b) : w.getLsbD k = b := by
  have h0 := congrArg (fun x : BitVec 1 => x.getLsbD 0) h
  simpa [bit, BitVec.getLsbD_extractLsb'] using h0

/-- R79: the fields read from a word are those it was made of. -/
theorem macroWordOf_word (op : BitVec 8) (m : MacroWord) : macroWordOf (m.word op) = m := by
  obtain ⟨-, hwe, hwq, hse, hsq, htchk, hrsv, htag, hpayload⟩ := m.word_parts op
  have hqueue : ∀ (q : Fin 4) (x : BitVec 2), x = BitVec.ofNat 2 q.val → (⟨x.toNat, x.isLt⟩ : Fin 4) = q := by
    rintro q _ rfl
    exact Fin.ext (Nat.mod_eq_of_lt q.isLt)
  unfold macroWordOf
  rw [getLsbD_of_bit hwe, getLsbD_of_bit hse, getLsbD_of_bit htchk, getLsbD_of_bit hrsv, htag, hpayload,
    hqueue m.wq _ hwq, hqueue m.sq _ hsq]

/-- Settles O14: the word gives back its `op` and its fields, and the `op` gives back the command. -/
theorem macroWords : Obligations.MacroWords := by
  intro i c st op m w hi hw
  have hw : m.word op = w := by simpa [encodeMacro, hi] using hw
  obtain ⟨hop, -⟩ := m.word_parts op
  rw [decodeMacro, ← hw, hop, macroWordOf_word, macroCmd_of_macroOp hi]

end Sys2Proof

namespace Sys2Proof.Machine

/-! ### The start of an operation (R80, R82 to R85) -/

section

variable {s s1 : State} {c : CellId} {st : Stream} {op n : Nat} {w : MacroWord} {sw : StreamWord} {p : Plan}

/-- An operation that begins starts and has its stream's next checks made. -/
theorem State.macroOp_of_begins (start : State → Nat → Nat → StreamWord → Plan → State)
    (h : s.begins c st op w = some (s1, n, sw, p)) :
    s.macroOp planOf c st op w start = (start s1 (cellNo c) n sw p).afterStart c st := by
  unfold State.begins at h
  simp only [Option.bind_eq_some_iff] at h
  obtain ⟨⟨s0, sw'⟩, hoffer, h⟩ := h
  unfold State.macroOp
  simp only [hoffer]
  split at h
  · cases h
  rename_i hok
  simp only [Bool.or_eq_true, Bool.not_eq_true', not_or, Bool.not_eq_false] at hok
  obtain ⟨hword, hroom⟩ := hok
  simp only [hword, hroom, Bool.not_true, Bool.false_eq_true, if_false]
  split at h
  · cases h
  rename_i q hplan
  simp only [hplan]
  split at h
  · cases h
  rename_i hfree
  simp only [Bool.or_eq_true, not_or, Bool.not_eq_true] at hfree
  obtain ⟨hover, hhold⟩ := hfree
  simp only [hover, hhold, Bool.false_eq_true, if_false]
  by_cases hwe : w.we = true
  · simp only [hwe, if_true, Option.map_eq_some_iff, Option.bind_eq_some_iff] at h ⊢
    obtain ⟨s2, ⟨⟨s2', t⟩, hpop, htag⟩, heq⟩ := h
    split at htag
    · cases htag
    · rename_i hgood
      cases htag
      cases heq
      simp only [hpop, if_neg hgood]
      rfl
  · simp only [hwe, Bool.false_eq_true, if_false, Option.map_some, Option.some.injEq] at h ⊢
    cases h
    rfl

/-! ### Control operations (R80) -/

/-- A control operation that begins: the stream takes what the operation makes of it and the operation is complete, or
the cell halts with TILE_BAD_DESCRIPTOR. -/
theorem State.controlOp_of_begins (f : StreamSt → StreamWord → Option StreamSt)
    (h : s.begins c st op w = some (s1, n, sw, p)) :
    (∀ y, f (s1.stream (cellNo c) st) sw = some y → s.controlOp c st op w f =
      ((s1.modStream (cellNo c) st (fun _ => y)).inProg (cellNo c) st
        { started n sw p with done := true }).afterStart c st) ∧
    (f (s1.stream (cellNo c) st) sw = none → s.controlOp c st op w f =
      (s1.haltStream (cellNo c) st sw.addr hrTileBad none false).afterStart c st) := by
  have hstart := State.macroOp_of_begins (fun s c n sw p =>
    match f (s.stream c st) sw with
    | none => s.haltStream c st sw.addr hrTileBad none false
    | some x => (s.modStream c st (fun _ => x)).control c st n sw p) h
  refine ⟨fun y hy => ?_, fun hnone => ?_⟩
  · simp only [hy] at hstart
    exact hstart
  · simp only [hnone] at hstart
    exact hstart

/-- A command whose effect on its stream, by the word and the operation's own address, is `g`. -/
theorem exec_control {k : CellId → Stream → MacroWord → Instr} {g : StreamSt → MacroWord → Nat → Option StreamSt}
    (f : MacroWord → StreamSt → StreamWord → Option StreamSt)
    (hexec : ∀ c st w s, exec (k c st w) s = .next (s.controlOp c st op w (f w)))
    (hg : ∀ x w sw, g x w sw.addr = f w x sw) (c : CellId) (st : Stream) (w : MacroWord) (s s1 : State) (n : Nat)
    (sw : StreamWord) (p : Plan) (h : s.begins c st op w = some (s1, n, sw, p)) :
    let x := s1.stream (cellNo c) st
    (∀ y, g x w sw.addr = some y →
      exec (k c st w) s = .next (((s1.modStream (cellNo c) st (fun _ => y)).inProg (cellNo c) st
        { started n sw p with done := true }).afterStart c st)) ∧
    (g x w sw.addr = none →
      exec (k c st w) s = .next ((s1.haltStream (cellNo c) st sw.addr hrTileBad none false).afterStart c st)) := by
  obtain ⟨hgo, hhalt⟩ := State.controlOp_of_begins (f w) h
  intro x
  rw [hexec, hg]
  exact ⟨fun y hy => congrArg _ (hgo y hy), fun hnone => congrArg _ (hhalt hnone)⟩

/-- LOOP by its counter: 0, 1, more. -/
theorem loop_by_counter (x : StreamSt) (k next : Nat) :
    (match mapGet 0 x.tc k with
      | 0 => none
      | 1 => some { x with tc := mapSet 0 x.tc k 0 }
      | n + 2 => some { x with tc := mapSet 0 x.tc k (n + 1), mpc := next }) =
    (if mapGet 0 x.tc k = 0 then none
      else some (if mapGet 0 x.tc k = 1 then { x with tc := mapSet 0 x.tc k (mapGet 0 x.tc k - 1) }
        else { x with tc := mapSet 0 x.tc k (mapGet 0 x.tc k - 1), mpc := next })) := by
  rcases mapGet 0 x.tc k with _ | _ | m <;> rfl

/-- The lowest 18 bits of a descriptor replaced by an address that fits them. -/
theorem setBits_addr {v a : Nat} (h : a < 2 ^ 18) : setBits v 0 18 a = v / 2 ^ 18 * 2 ^ 18 + a := by
  unfold setBits
  omega

/-- DADV by its address: one within the scratchpad is put into the descriptor, any other halts. -/
theorem dadv_by_address (x : StreamSt) (k v off : Nat) :
    (let a := ((v % 2 ^ 18 : Nat) : Int) + sgn 24 off
      if off % 16 = 0 ∧ 0 ≤ a ∧ a < 2 ^ 18 then
        some { x with td := mapSet 0 x.td k (v / 2 ^ 18 * 2 ^ 18 + a.toNat) } else none) =
    (let r := ((bits v 0 18 : Nat) : Int) + sgn 24 off
      if off % 16 ≠ 0 ∨ r < 0 ∨ r > 0x3FFFF then none
      else some { x with td := mapSet 0 x.td k (setBits v 0 18 r.toNat) }) := by
  have hlow : bits v 0 18 = v % 2 ^ 18 := by simp [bits]
  rw [hlow]
  dsimp only
  generalize ((v % 2 ^ 18 : Nat) : Int) + sgn 24 off = a
  by_cases hin : off % 16 = 0 ∧ 0 ≤ a ∧ a < 2 ^ 18
  · rw [if_pos hin, if_neg (by omega), setBits_addr (by omega)]
  · rw [if_neg hin, if_pos (by omega)]

/-- Settles O19: each row is a control operation whose effect is the table's. -/
theorem macroControl : Obligations.MacroControl := by
  unfold Obligations.MacroControl
  iterate 9 rw [List.forall_mem_cons]
  rw [List.forall_mem_singleton]
  refine ⟨?sync, ?mend, ?jump, ?loop, ?setc, ?setd, ?dadv, ?seta, ?aadv, ?append⟩
  case loop => exact exec_control _ (fun _ _ _ _ => rfl) (fun x w _ => loop_by_counter x (mfld w 32 2) _)
  case dadv => exact exec_control _ (fun _ _ _ _ => rfl) (fun x w _ => dadv_by_address x (mfld w 32 4) _ (mfld w 40 24))
  all_goals exact exec_control _ (fun _ _ _ _ => rfl) (fun _ _ _ => rfl)

/-! ### Tile transfers (R89 to R93, R209) -/

/-- A command that reads tiles: translated whole it goes on, and its first fault halts the cell. -/
theorem exec_tileRead {k : Instr} {inc : Bool} (hexec : exec k s = .next (s.startXfer c st op w inc))
    (h : s.begins c st op w = some (s1, n, sw, p)) :
    (∀ s2, s1.translateAll (cellNo c) .read (p.tg.map (·.1)) = (s2, none) → exec k s =
      .next (((if inc then s2.incTa (cellNo c) st w else s2).readStart (cellNo c) st n sw p).afterStart c st)) ∧
    (∀ s2 why va, s1.translateAll (cellNo c) .read (p.tg.map (·.1)) = (s2, some (why, va)) →
      exec k s = .next ((s2.haltStream (cellNo c) st sw.addr why (some va) false).afterStart c st)) := by
  rw [hexec, State.startXfer, State.macroOp_of_begins _ h]
  refine ⟨fun s2 hgo => ?_, fun s2 why va hbad => ?_⟩
  · rw [hgo]
  · rw [hbad]

/-- A TSTORE that begins: its first fault, of a translation or of a page, halts the cell; else its tiles are opened and
it keeps the bytes it read. -/
theorem exec_tstore_of_begins (h : s.begins c st 0x11 w = some (s1, n, sw, p)) :
    (∀ s2, s1.translateAll (cellNo c) .write (p.tg.map (·.1)) = (s2, none) →
      (∀ why va, s2.storeBad p.tg = some (why, va) → exec (.tstore c st w) s =
        .next ((s2.haltStream (cellNo c) st sw.addr why (some va) false).afterStart c st)) ∧
      (s2.storeBad p.tg = none → exec (.tstore c st w) s =
        .next ((((s2.incTa (cellNo c) st w).each p.tg
          (fun x t => x.openTile (cellNo c) (((s2.cellKernel (cellNo c)).map (·.epoch)).getD 0) t)).inProg (cellNo c) st
            { started n sw p with
              bytes := ((List.range (tileCnt w)).map (tileFrom (s2.cell (cellNo c)).scr (descOf (p.args.getD 0 0))
                (mfld w 40 1 == 1) (mfld w 41 1 == 1))) }).afterStart c st))) ∧
    (∀ s2 why va, s1.translateAll (cellNo c) .write (p.tg.map (·.1)) = (s2, some (why, va)) →
      exec (.tstore c st w) s = .next ((s2.haltStream (cellNo c) st sw.addr why (some va) false).afterStart c st)) := by
  have hexec : exec (.tstore c st w) s = execTstore c st w s := rfl
  rw [hexec, execTstore, State.macroOp_of_begins _ h]
  refine ⟨fun s2 hgo => ⟨fun why va hbad => ?_, fun hgood => ?_⟩, fun s2 why va hbad => ?_⟩
  · rw [hgo]
    dsimp only
    rw [hbad]
  · rw [hgo]
    dsimp only
    rw [hgood]
  · rw [hbad]

/-- A check entry is read of the page's frame and of the check memory alone. -/
theorem State.chk_congr {t : State} (hloct : t.loct = s.loct) (hcheck : t.check = s.check) (a : Target) :
    t.chk a = s.chk a := by
  have hloc : ∀ dpn, t.loc dpn = s.loc dpn := fun dpn => by rw [State.loc, hloct, State.loc]
  have hkey : ∀ dpn, t.frameKey dpn = s.frameKey dpn := fun dpn => by rw [State.frameKey, hloc, State.frameKey]
  cases a with
  | dev d => simp only [State.chk, hkey, hloc, hcheck]
  | host _ => rfl
  | peer _ _ => rfl

/-- A look-up at the slice MID counts a miss and nothing else of the registers. -/
theorem State.fld_lookupLoc {f : Fld} (hf : f ≠ .PLE_MID_lcache_miss) (dpn i : Nat) :
    (s.lookupLoc dpn).fld f i = s.fld f i := by
  unfold State.lookupLoc
  dsimp only
  split
  · rfl
  · exact State.fld_satFld_ne _ _ _ _ hf

theorem State.chkLook_only (s : State) (t : Target) :
    s.chkLook t = { s with regs := (s.chkLook t).regs, lcache := (s.chkLook t).lcache } := by
  cases t with
  | dev d => exact State.lookupLoc_only _
  | host _ => rfl
  | peer _ _ => rfl

/-- R238: the look-up of a check entry changes no register but the count of misses. -/
theorem State.fld_chkLook {f : Fld} (hf : f ≠ .PLE_MID_lcache_miss) (t : Target) (i : Nat) :
    (s.chkLook t).fld f i = s.fld f i := by
  cases t with
  | dev d => exact State.fld_lookupLoc hf _ i
  | host _ => rfl
  | peer _ _ => rfl

/-- One look-up of a verifying read, its bytes counted at the region's links. -/
theorem State.chkLook_flits_only (s : State) (t : Target) (r m : Nat) : (s.chkLook t).flits r m =
    { s with regs := ((s.chkLook t).flits r m).regs, lcache := ((s.chkLook t).flits r m).lcache } := by
  rw [State.flits, State.pmc_only, State.chkLook_only]

theorem State.chk_chkLook_flits (t : Target) (r m : Nat) (a : Target) : ((s.chkLook t).flits r m).chk a = s.chk a := by
  rw [State.chkLook_flits_only]
  exact State.chk_congr rfl rfl a

theorem State.fld_chkLook_flits {f : Fld} (hmiss : f ≠ .PLE_MID_lcache_miss) (hcount : f ≠ .REG_PMC_VAL_count)
    (t : Target) (r m i : Nat) : ((s.chkLook t).flits r m).fld f i = s.fld f i :=
  (State.fld_pmc _ _ _ _ _ i hcount).trans (State.fld_chkLook hmiss t i)

/-- A verifying read that starts keeps the entries and the action of the state in which they have been looked up. -/
theorem State.readStart_verifying (h : verifying sw.op sw.w = true) (k : Nat) :
    let s3 := (s.cleanTiles k p.tg).1
    let s4 := s3.each p.tg (fun x t => (x.chkLook t.2).flits (regionOf k) 8)
    s.readStart k st n sw p = s4.inProg k st { started n sw p with
      e1 := p.tg.map (fun t => s4.chk t.2), loose := s4.flag .CFG_TILE_CHECK_unchecked_action 0 } := by
  intro s3 s4
  have hchk : ∀ a, s4.chk a = s3.chk a := fun a =>
    State.each_same _ _ (State.chk · a) fun _ t => State.chk_chkLook_flits t.2 _ _ a
  have hflag : s4.flag .CFG_TILE_CHECK_unchecked_action 0 = s3.flag .CFG_TILE_CHECK_unchecked_action 0 :=
    State.each_same _ _ (State.flag · .CFG_TILE_CHECK_unchecked_action 0) fun _ t => by
      rw [State.flag, State.fld_chkLook_flits (by decide) (by decide), State.flag]
  simp only [hchk, hflag]
  exact if_pos h

/-- Settles O20: the three reads by `exec_tileRead`, TSTORE by its own rule, the start of a read by whether it verifies.
-/
theorem macroMoves : Obligations.MacroMoves := by
  intro c st w s s1 n sw p k
  refine ⟨?_, exec_tstore_of_begins, fun s2 h => if_neg (by simp [h]),
    fun s2 h => ⟨_, State.readStart_verifying h k, rfl⟩⟩
  rw [List.forall_mem_cons, List.forall_mem_cons, List.forall_mem_singleton]
  exact ⟨exec_tileRead rfl, exec_tileRead rfl, exec_tileRead rfl⟩

/-! ### The array and the vector path (R94 to R99) -/

/-- TBLLD that begins: its table goes at once; its image starts it, or halts the cell where it is no table. -/
theorem exec_tblld_of_begins (h : s.begins c st 0x26 w = some (s1, n, sw, p)) :
    let k := cellNo c
    let im := ((descOf (p.args.getD 0 0)).matrix (s1.cell k).scr).getD 0 []
    let s3 := s1.modCell k (fun x => { x with luts := mapErase x.luts (2 * mfld w 36 2 + mfld w 38 1) })
    ((tableOf im).isSome → exec (.tblld c st w) s = .next (State.tblldHalt
      ((s3.inProg k st { started n sw p with args := im }).afterStart c st) s k st w)) ∧
    (tableOf im = none → exec (.tblld c st w) s = .next (State.tblldHalt
      ((s3.haltStream k st sw.addr hrTileBad none false).afterStart c st) s k st w)) := by
  have hexec : exec (.tblld c st w) s = execTblld c st w s := rfl
  rw [hexec, execTblld, State.macroOp_of_begins _ h]
  dsimp only
  refine ⟨fun htable => ?_, fun htable => ?_⟩
  · obtain ⟨t, ht⟩ := Option.isSome_iff_exists.mp htable
    rw [ht]
  · rw [htable]

/-- R135: TBLLD's last act leaves its table absent from a cell that it halted, and changes nothing else. -/
theorem State.tblldHalt_cases (t : State) (k : Nat) : State.tblldHalt t s k st w = t ∨ (t.cell k).state = .halted ∧
    State.tblldHalt t s k st w =
      t.modCell k (fun x => { x with luts := mapErase x.luts (2 * mfld w 36 2 + mfld w 38 1) }) := by
  unfold State.tblldHalt
  split
  case isTrue hhalt =>
    obtain ⟨-, hhalted, -⟩ := hhalt
    exact .inr ⟨hhalted, rfl⟩
  case isFalse => exact .inl rfl

/-- Settles O21: each row is its command's start, in the case that its function or its table selects. -/
theorem macroResults : Obligations.MacroResults := by
  refine ⟨fun c st w s s1 n sw p => ⟨fun h => ?mma, fun h => ?accst, fun h => ?accld⟩,
    fun c st w s s1 n sw p => ⟨fun h => ⟨fun hfn => ?mx, fun hfn => ?elem⟩, fun h => ?reduce, fun h => ?lut,
      exec_tblld_of_begins⟩,
    fun t s c st w => State.tblldHalt_cases t c⟩
  case lut =>
    intro sel xs sv t ht
    refine (congrArg Host.Outcome.next (State.macroOp_of_begins _ h)).trans ?_
    dsimp only
    rw [ht]
    rfl
  case mx =>
    refine (congrArg Host.Outcome.next (State.macroOp_of_begins _ h)).trans ?_
    dsimp only
    rw [if_pos hfn]
    rfl
  case elem =>
    refine (congrArg Host.Outcome.next (State.macroOp_of_begins _ h)).trans ?_
    dsimp only
    rw [if_neg hfn]
    rfl
  all_goals exact congrArg Host.Outcome.next (State.macroOp_of_begins _ h)

end

/-! ### An ill-formed TBLLD (R80, R135) -/

/-- A serving device whose cell 0 runs its execute stream and holds table 0. -/
def tableCell : State := { State.reset with
  regs := [(fldKey .HIF_PROMPT_STATE_boot_state 0, 8)]
  cells := [(0, { Cell.init with
    state := .running, sx := { StreamSt.init with started := true }, luts := [(0, ⟨0, 0, 0, 0, 0, 0, []⟩)] })] }

/-- A TBLLD word of table 0 whose reserved bit is set. -/
def illTblld : MacroWord := ⟨false, 0, false, 0, false, true, 0, 0⟩

/-- The tables that cell 0 holds after a command. -/
def tablesAfter : Out → List Nat
  | .next t => (t.cell 0).luts.map (·.1)
  | _ => []

/-- That device once the word stands at the head of its stream. -/
def tableCellOffered : State := tableCell.modStream 0 .execute fun x =>
  { x with head := some ⟨0x26, illTblld, 0, false⟩, mpc := 16 }

theorem offer_illTblld :
    tableCell.offer 0 .execute 0x26 illTblld = some (tableCellOffered, ⟨0x26, illTblld, 0, false⟩) := rfl

/-- The command takes the table with the halt. -/
theorem tablesAfter_illTblld : tablesAfter (exec (.tblld ⟨0, 0, 0⟩ .execute illTblld) tableCell) = [] := by decide

/-- The halt alone leaves it. -/
theorem tablesAfter_haltStream :
    tablesAfter (.next (tableCellOffered.haltStream 0 .execute 0 hrTileBad none false)) = [0] := by decide

/-- Refutes O22: by R135 a TBLLD whose word is not well formed takes its table with the halt (`tblldHalt`), where the
statement has the halt alone; the other commands of the family have no such act. -/
theorem not_macroChecks : ¬ Obligations.MacroChecks := by
  intro h
  obtain ⟨hill, -⟩ := h (.tblld ⟨0, 0, 0⟩ .execute illTblld) ⟨0, 0, 0⟩ .execute 0x26 illTblld tableCell
    tableCellOffered ⟨0x26, illTblld, 0, false⟩ rfl offer_illTblld
  have htables := congrArg tablesAfter (hill (by decide))
  rw [tablesAfter_illTblld] at htables
  exact absurd (htables.trans tablesAfter_haltStream) (by decide)

section

variable {s : State} {st : Stream} {p : InProg}

/-! ### Retirement from a stream (R64, R83) -/

@[simp] theorem Cell.stream_setStream_self (x : Cell) (st : Stream) (y : StreamSt) : (x.setStream st y).stream st = y := by
  cases st <;> rfl

@[simp] theorem Cell.stream_setStream_other (x : Cell) (st : Stream) (y : StreamSt) :
    (x.setStream st y).stream (other st) = x.stream (other st) := by
  cases st <;> rfl

theorem State.cell_modStream_self (s : State) (c : Nat) (st : Stream) (f : StreamSt → StreamSt) :
    (s.modStream c st f).cell c = (s.cell c).setStream st (f ((s.cell c).stream st)) := s.cell_modCell_self c _

theorem State.cell_modStream_other (s : State) {c d : Nat} (st : Stream) (f : StreamSt → StreamSt) (h : d ≠ c) :
    (s.modStream c st f).cell d = s.cell d := s.cell_modCell_other _ h

/-- The end of the watchdog's interval is no part of a stream. -/
@[simp] theorem Cell.stream_progress (x : Cell) (st : Stream) (n : Nat) :
    ({ x with progress := n } : Cell).stream st = x.stream st := by
  cases st <;> rfl

/-- R64, R83: a stream that an operation leaves. -/
def StreamSt.retired (x : StreamSt) (p : InProg) : StreamSt :=
  { x with
    prog := x.prog.filter (fun q => q.n != p.n), pend := if p.sw.appended then x.pend - 1 else x.pend
    ended := x.ended || decide (p.sw.op = 0x01), endAddr := if p.sw.op = 0x01 then p.sw.addr else x.endAddr }

/-- A retirement changes its own cell, the stream and the watchdog's interval, and registers. -/
theorem State.retireOp_only (s : State) (c : Nat) (st : Stream) (p : InProg) : s.retireOp c st p =
    { (s.modStream c st (·.retired p)).modCell c (fun x => { x with progress := s.wdUntil }) with
      regs := (s.retireOp c st p).regs } := State.pmc_only ..

theorem State.cell_retireOp (s : State) (c : Nat) (st : Stream) (p : InProg) (d : Nat) : (s.retireOp c st p).cell d =
    ((s.modStream c st (·.retired p)).modCell c (fun x => { x with progress := s.wdUntil })).cell d := by
  unfold State.cell
  rw [State.retireOp_only]

theorem State.cell_retireOp_self (s : State) (c : Nat) (st : Stream) (p : InProg) : (s.retireOp c st p).cell c =
    { (s.cell c).setStream st (((s.cell c).stream st).retired p) with progress := s.wdUntil } := by
  rw [State.cell_retireOp, State.cell_modCell_self, State.cell_modStream_self]

theorem State.cell_retireOp_other (s : State) {c d : Nat} (st : Stream) (p : InProg) (h : d ≠ c) :
    (s.retireOp c st p).cell d = s.cell d := by
  rw [State.cell_retireOp, State.cell_modCell_other _ _ h, State.cell_modStream_other _ _ _ h]

theorem State.stream_retireOp_self (s : State) (c : Nat) (st : Stream) (p : InProg) :
    (s.retireOp c st p).stream c st = (s.stream c st).retired p := by
  rw [State.stream, State.cell_retireOp_self, Cell.stream_progress, Cell.stream_setStream_self, State.stream]

theorem State.stream_retireOp_other (s : State) (c : Nat) (st : Stream) (p : InProg) :
    (s.retireOp c st p).stream c (other st) = s.stream c (other st) := by
  rw [State.stream, State.cell_retireOp_self, Cell.stream_progress, Cell.stream_setStream_other, State.stream]

theorem State.fld_retireOp_count (s : State) (c : Nat) (st : Stream) (p : InProg) :
    (s.retireOp c st p).fld .CEL_TS_RETIRED_count (2 * c + streamNo st) =
      (s.fld .CEL_TS_RETIRED_count (2 * c + streamNo st) + 1) % 2 ^ Fld.CEL_TS_RETIRED_count.desc.width :=
  (State.fld_pmc _ _ _ _ _ _ (by decide)).trans (State.fld_setFld_self ..)

theorem State.mem_retireOp (s : State) (c : Nat) (st : Stream) (p : InProg) : (s.retireOp c st p).mem = s.mem := by
  rw [State.retireOp_only]
  rfl

theorem State.hostMem_retireOp (s : State) (c : Nat) (st : Stream) (p : InProg) :
    (s.retireOp c st p).hostMem = s.hostMem := by
  rw [State.retireOp_only]
  rfl

/-! ### Completion (R83, R335) -/

/-- TLOAD, TGATHER and TVERIFY read tiles. -/
def InProg.loads (p : InProg) : Bool := p.sw.op == 0x10 || p.sw.op == 0x12 || p.sw.op == 0x13

/-- What an operation does to the scratchpad at its completion point. -/
def State.loaded (s : State) (c : Nat) (st : Stream) (p : InProg) : State :=
  match p.sw.op with
  | 0x10 => s.loadTiles c st p 0 p.tiles
  | 0x13 => s.loadTiles c st p 0 p.tiles
  | 0x12 => s.gatherRows c st p
  | _ => s

theorem State.loaded_tiles (s : State) (c : Nat) (st : Stream) (h : p.sw.op = 0x10 ∨ p.sw.op = 0x13) :
    s.loaded c st p = s.loadTiles c st p 0 p.tiles := by
  rcases h with h | h <;> simp only [State.loaded, h]

theorem State.loaded_gather (s : State) (c : Nat) (st : Stream) (h : p.sw.op = 0x12) :
    s.loaded c st p = s.gatherRows c st p := by
  simp only [State.loaded, h]

theorem State.loaded_other (s : State) (c : Nat) (st : Stream) (h : p.loads = false) : s.loaded c st p = s := by
  simp only [InProg.loads, Bool.or_eq_false_iff, beq_eq_false_iff_ne] at h
  obtain ⟨⟨hload, hgather⟩, hverify⟩ := h
  unfold State.loaded
  split
  case h_4 => rfl
  all_goals contradiction

/-- The completion of an operation that the stream has in progress: a read whose line the host holds calls it back; else
its lines pass the L1 port, its data is in the scratchpad, and it is done. -/
theorem exec_macroOpCompletion {cid : CellId} {n : Nat} (ha : s.alive = true)
    (hrun : (s.cell (cellNo cid)).state = .running)
    (hp : (s.stream (cellNo cid) st).prog.find? (fun q => q.n == n && !q.done) = some p) :
    (∀ t, p.loads = true → s.readHeld p = some t →
      exec (.macroOpCompletion cid st n) s = .next (s.biSnoop t false)) ∧
    ((p.loads = true → s.readHeld p = none) → ∀ s1,
      (s.modCell (cellNo cid) (fun x => x.l1Move n (2 * x.l1Grants))).loaded (cellNo cid) st p = s1 →
      exec (.macroOpCompletion cid st n) s = .next ((s1.modProg (cellNo cid) st n
        (fun q => { q with done := true, time := s1.now })).streamPoll planOf (cellNo cid))) := by
  have hexec : exec (.macroOpCompletion cid st n) s = execMacroOpCompletion cid st n s := rfl
  have hgo : (!s.alive || (s.cell (cellNo cid)).state != .running) = false := by simp [ha, hrun]
  rw [hexec, execMacroOpCompletion]
  dsimp only
  rw [hgo, hp]
  refine ⟨fun t hl hheld => ?_, fun hfree s1 hs1 => ?_⟩
  · have hl : (p.sw.op == 0x10 || p.sw.op == 0x12 || p.sw.op == 0x13) = true := hl
    simp only [hl, hheld]
    rfl
  · have hnone : (if (p.sw.op == 0x10 || p.sw.op == 0x12 || p.sw.op == 0x13) then s.readHeld p else none) = none := by
      split
      case isTrue hl => exact hfree hl
      case isFalse => rfl
    subst hs1
    simp only [hnone]
    rfl

/-! ### Retirement (R83, R127 to R130) -/

/-- What an operation does as it retires. -/
def State.retires (s : State) (c : Nat) (st : Stream) (p : InProg) (up : Option Upset) : State :=
  match p.sw.op with
  | 0x11 => s.storeEnd c st p
  | 0x20 => s.mmaEnd c st p up
  | 0x21 => (s.arrTokens c (if fmtBits (descOf (p.args.getD 0 0)).fmt = 16 then 8 else 16) true).retireOp c st p
  | 0x22 => (s.arrTokens c 16 true).retireOp c st p
  | 0x26 =>
    (match tableOf p.args with
      | some t => s.modCell c (fun x => { x with
          luts := mapIns x.luts (2 * mfld p.sw.w 36 2 + mfld p.sw.w 38 1) t })
      | none => s).retireOp c st p
  | _ => s.retireOp c st p

theorem exec_macroOpRetirement {cid : CellId} {n : Nat} (up : Option Upset) (ha : s.alive = true)
    (hrun : (s.cell (cellNo cid)).state = .running)
    (hp : (s.stream (cellNo cid) st).prog.find? (fun q => q.n == n && q.done && !q.owes) = some p) :
    exec (.macroOpRetirement cid st n up) s =
      .next ((s.retires (cellNo cid) st p up).streamPoll planOf (cellNo cid)) := by
  have hexec : exec (.macroOpRetirement cid st n up) s = execMacroOpRetirement cid st n up s := rfl
  have hgo : (!s.alive || (s.cell (cellNo cid)).state != .running) = false := by simp [ha, hrun]
  rw [hexec, execMacroOpRetirement]
  dsimp only
  rw [hgo, hp]
  rfl

/-- The operations that retire and do nothing else. -/
theorem State.retires_plain (s : State) (c : Nat) (st : Stream) (up : Option Upset)
    (h : p.sw.op < 0x10 ∨ p.sw.op = 0x10 ∨ p.sw.op = 0x12 ∨ p.sw.op = 0x13 ∨ 0x23 ≤ p.sw.op ∧ p.sw.op ≤ 0x25) :
    s.retires c st p up = s.retireOp c st p := by
  unfold State.retires
  split
  case h_6 => rfl
  all_goals omega

/-- Settles O23: completion by whether the host holds a line, retirement by the operation, and the frame of a
retirement. -/
theorem macroOutcomes : Obligations.MacroOutcomes := by
  refine ⟨fun cid st n s p ha hrun => ⟨fun hp => ?complete, fun hp up => ?retire⟩, fun s c st p =>
    ⟨s.stream_retireOp_self c st p, s.stream_retireOp_other c st p, fun d hd => s.cell_retireOp_other st p hd,
      s.fld_retireOp_count c st p, s.mem_retireOp c st p, s.hostMem_retireOp c st p⟩⟩
  case complete =>
    obtain ⟨hsnoop, hdone⟩ := exec_macroOpCompletion ha hrun hp
    refine ⟨fun h10 h12 h13 => ?_, fun hop hfree => hdone (fun _ => hfree) _ (State.loaded_gather _ _ _ hop),
      fun hop hfree => hdone (fun _ => hfree) _ (State.loaded_tiles _ _ _ hop), fun t hop => hsnoop t ?_⟩
    · have hl : p.loads = false := by simp [InProg.loads, h10, h12, h13]
      exact hdone (fun h => absurd h (by simp [hl])) _ (State.loaded_other _ _ _ hl)
    · simpa [InProg.loads, or_assoc] using hop
  case retire =>
    refine ⟨_, exec_macroOpRetirement up ha hrun hp, fun hop => ?_, fun hop => ?_, fun hop => ?_, fun hop => ?_,
      fun hop t ht => ?_, State.retires_plain s _ st up⟩
    all_goals simp only [State.retires, hop]
    rw [ht]

end

/-! ### The retirement of a thread block (R45, R88) -/

/-- R45, R88: a thread block can retire exactly when its groups have ended, none of its memory operations is left and, in
a kernel that uses the tile engine, both streams have ended and every operation has retired. -/
theorem Cell.tbDone_iff (x : Cell) (t : ThreadBlock) (tile : Bool) : x.tbDone t tile = true ↔
    (∀ i ∈ t.slots, ∀ g, mapFind x.groups i = some g → g.ended = true) ∧ (∀ r ∈ x.reqs, r.slot ∉ t.slots) ∧
    (tile = true → x.sa.ended = true ∧ x.sx.ended = true ∧ x.sa.prog = [] ∧ x.sx.prog = []) := by
  have hgroup : ∀ i, (match mapFind x.groups i with | some g => g.ended | none => true) = true ↔
      ∀ g, mapFind x.groups i = some g → g.ended = true := fun i => by
    cases mapFind x.groups i with
    | none => simp
    | some g => simp
  have htile : (!tile || (x.sa.ended && x.sx.ended && x.sa.prog.isEmpty && x.sx.prog.isEmpty)) = true ↔
      (tile = true → x.sa.ended = true ∧ x.sx.ended = true ∧ x.sa.prog = [] ∧ x.sx.prog = []) := by
    cases tile <;> simp [and_assoc]
  unfold Cell.tbDone
  rw [Bool.and_eq_true, Bool.and_eq_true, and_assoc, htile, List.all_eq_true, List.all_eq_true]
  refine and_congr (forall₂_congr fun i _ => hgroup i) (and_congr (forall₂_congr fun r _ => ?_) Iff.rfl)
  simp

/-- Whether a thread block's kernel uses the tile engine. -/
def State.tbTile (s : State) (t : ThreadBlock) : Bool := ((s.kernel? t.kern).map (·.tile)).getD false

/-- A thread block taken off its cell: its slots and its reservations are free and its kernel counts it. -/
def State.dropTb (s : State) (c tb : Nat) (t : ThreadBlock) : State :=
  let x := s.cell c
  ((s.setCell c { x with
    groups := x.groups.filter (fun e => !t.slots.contains e.1), tbs := x.tbs.filter (fun y => y.n != tb)
    state := if (x.tbs.filter (fun y => y.n != tb)).isEmpty then .idle else .running }).dropResv
      (fun r => r.cell == c && t.slots.contains r.slot)).modKernel t.kern (fun k => { k with retired := k.retired + 1 })

theorem State.cell_dropTb_self (s : State) (c tb : Nat) (t : ThreadBlock) : (s.dropTb c tb t).cell c =
    { s.cell c with
      groups := (s.cell c).groups.filter (fun e => !t.slots.contains e.1)
      tbs := (s.cell c).tbs.filter (fun y => y.n != tb)
      state := if (s.cell c).tbs.filter (fun y => y.n != tb) = [] then .idle else .running } := by
  refine (s.cell_setCell_self c _).trans ?_
  simp only [List.isEmpty_iff]

theorem State.cell_dropTb_other (s : State) {c d : Nat} (tb : Nat) (t : ThreadBlock) (h : d ≠ c) :
    (s.dropTb c tb t).cell d = s.cell d := s.cell_setCell_other _ h

theorem State.mem_resv_dropTb (s : State) (c tb : Nat) (t : ThreadBlock) (r : Resv) :
    r ∈ (s.dropTb c tb t).resv ↔ r ∈ s.resv ∧ ¬ (r.cell = c ∧ r.slot ∈ t.slots) := by
  refine List.mem_filter.trans (and_congr_right fun _ => ?_)
  rw [Bool.not_eq_true', ← Bool.not_eq_true, Bool.and_eq_true, beq_iff_eq, List.contains_iff_mem]

/-- R151: the last thread block of a block begins its kernel end. -/
def State.lastTb (s : State) (b : Nat) : State :=
  if s.blockBusy b then s else s.modBlock b (fun y => { y with owes := true, endAt := s.now + s.deadNs false })

theorem State.lastTb_only (s : State) (b : Nat) : s.lastTb b = { s with blocks := (s.lastTb b).blocks } := by
  unfold State.lastTb
  split <;> rfl

/-- R45, R88: a thread block that cannot retire changes nothing; one that can leaves its cell. -/
theorem exec_threadBlockRetire {cid : CellId} {tb : Nat} {t : ThreadBlock} (ha : s.alive = true)
    (ht : (s.cell (cellNo cid)).tbs.find? (fun t => t.n == tb) = some t) (hrun : (s.cell (cellNo cid)).state = .running) :
    ((s.cell (cellNo cid)).tbDone t (s.tbTile t) = false → exec (.threadBlockRetire cid tb) s = .next s) ∧
    ((s.cell (cellNo cid)).tbDone t (s.tbTile t) = true → exec (.threadBlockRetire cid tb) s =
      .next ((s.dropTb (cellNo cid) tb t).lastTb (blockOf (cellNo cid)))) := by
  have hexec : exec (.threadBlockRetire cid tb) s = execThreadBlockRetire cid tb s := rfl
  have hgo : ∀ b : Bool, (!s.alive || (s.cell (cellNo cid)).state != .running || !b) = !b := fun b => by simp [ha, hrun]
  rw [hexec, execThreadBlockRetire]
  dsimp only
  rw [ht]
  dsimp only
  rw [hgo]
  exact ⟨fun hdone => congrArg Host.Outcome.next (if_pos (by rw [← State.tbTile, hdone]; rfl)),
    fun hdone => congrArg Host.Outcome.next (if_neg (by rw [← State.tbTile, hdone]; decide))⟩

/-- Settles O27: `tbDone_iff` decides whether the thread block retires, and its retirement is `dropTb` but for the kernel
end of its block. -/
theorem threadBlockRetires : Obligations.ThreadBlockRetires := by
  intro cid tb s t c x tile ha ht hrun
  obtain ⟨hstay, hleave⟩ := exec_threadBlockRetire ha ht hrun
  refine ⟨fun hbusy => hstay (Bool.eq_false_iff.mpr fun hdone => ?_),
    fun hgroups hreqs htile => ⟨_, hleave ((x.tbDone_iff t tile).mpr ⟨hgroups, hreqs, htile⟩), ?_⟩⟩
  · obtain ⟨hgroups, hreqs, htile⟩ := (x.tbDone_iff t tile).mp hdone
    rcases hbusy with ⟨i, hi, g, hg, hended⟩ | ⟨r, hr, hslot⟩ | ⟨htrue, hstream⟩
    · simp [hgroups i hi g hg] at hended
    · exact hreqs r hr hslot
    · obtain ⟨hsa, hsx, hprogA, hprogX⟩ := htile htrue
      simp [hsa, hsx, hprogA, hprogX] at hstream
  · have hcell : ∀ d, (((s.dropTb c tb t).lastTb (blockOf c)).cell d) = (s.dropTb c tb t).cell d := fun d => by
      rw [State.lastTb_only]
      rfl
    refine ⟨?_, fun d hd => (hcell d).trans (s.cell_dropTb_other tb t hd), fun r => ?_, ?_, ?_, ?_⟩
    · rw [hcell, State.cell_dropTb_self]
    · rw [State.lastTb_only]
      exact s.mem_resv_dropTb c tb t r
    all_goals
      rw [State.lastTb_only]
      rfl

end Sys2Proof.Machine

/-!
PROOFS. The family of memory and its order. First the halt of a cell (R68 to R71, R312, R419): what its traffic leaves
as it was, its record, the groups that wait (R166), the watchdog and the report.
-/

namespace Sys2Proof.Machine

variable {s t u : State} {g : GTgt}

/-- What a halt settles of a cell: its state, its record and its streams. -/
def Cell.haltPart (x : Cell) : CellState × HaltRec × StreamSt × StreamSt := (x.state, x.halt, x.sa, x.sx)

/-- What the traffic that a halt sets off leaves: the time, what a halt settles of every cell; no reservation and no
waiter is added. -/
structure State.Settles (s t : State) : Prop where
  time : t.time = s.time
  cell : ∀ c, (t.cell c).haltPart = (s.cell c).haltPart
  resv : t.resv ⊆ s.resv
  waiters : t.waiters ⊆ s.waiters

namespace State.Settles

theorem refl (s : State) : s.Settles s := ⟨rfl, fun _ => rfl, List.Subset.refl _, List.Subset.refl _⟩

theorem trans (h : s.Settles t) (k : t.Settles u) : s.Settles u :=
  ⟨k.time.trans h.time, fun c => (k.cell c).trans (h.cell c), List.Subset.trans k.resv h.resv,
    List.Subset.trans k.waiters h.waiters⟩

/-- `trans`, the later operation first. -/
theorem comp (k : t.Settles u) (h : s.Settles t) : s.Settles u := h.trans k

/-- An operation that leaves time, cells, reservations and waiters as they are. -/
theorem of_same (ht : t.time = s.time) (hc : t.cells = s.cells) (hr : t.resv = s.resv) (hw : t.waiters = s.waiters) :
    s.Settles t :=
  ⟨ht, fun c => congrArg Cell.haltPart (State.cell_of_regs hc c), fun _ h => hr ▸ h, fun _ h => hw ▸ h⟩

theorem each {α : Type} {f : State → α → State} (hf : ∀ (s : State) a, s.Settles (f s a)) (l : List α)
    (s : State) :
    s.Settles (s.each l f) := by
  induction l generalizing s with
  | nil => exact refl s
  | cons a l ih => exact (hf s a).trans (ih (f s a))

theorem modCell (s : State) (c : Nat) {f : Cell → Cell} (hf : ∀ x, (f x).haltPart = x.haltPart) :
    s.Settles (s.modCell c f) where
  time := rfl
  cell d := by
    by_cases h : d = c
    · rw [h, State.cell_modCell_self, hf]
    · rw [State.cell_modCell_other _ _ h]
  resv := List.Subset.refl _
  waiters := List.Subset.refl _

theorem dropResv (s : State) (p : Resv → Bool) : s.Settles (s.dropResv p) :=
  ⟨rfl, fun _ => rfl, List.filter_subset_self _, List.Subset.refl _⟩

theorem cancelResv (s : State) (a : Target) (n : Nat) (w : Who) : s.Settles (s.cancelResv a n w) :=
  ⟨rfl, fun _ => rfl, List.filter_subset_self _, List.Subset.refl _⟩

theorem feWithdraw (s : State) (p : FeWaiter → Bool) : s.Settles (s.feWithdraw p) :=
  ⟨rfl, fun _ => rfl, List.Subset.refl _, List.filter_subset_self _⟩

/-! Counters, meters and the location table. -/

theorem pmc (s : State) (r b ev n : Nat) : s.Settles (s.pmc r b ev n) := by
  rw [State.pmc_only]
  exact of_same rfl rfl rfl rfl

theorem meter (s : State) (tag : Option Nat) (f : Fld) (n : Nat) : s.Settles (s.meter tag f n) := by
  rw [State.meter_only]
  exact of_same rfl rfl rfl rfl

theorem setFlds (s : State) (i : Nat) (l : List (Fld × Nat)) : s.Settles (s.setFlds i l) := by
  rw [State.setFlds_only]
  exact of_same rfl rfl rfl rfl

theorem use (s : State) (tag : Option Nat) (k n : Nat) : s.Settles (s.use tag k n) := by
  unfold State.use
  split
  · exact of_same rfl rfl rfl rfl
  · exact refl s

theorem lookupLoc (s : State) (p : Nat) : s.Settles (s.lookupLoc p) := by
  rw [State.lookupLoc_only]
  exact of_same rfl rfl rfl rfl

theorem heatTouch (s : State) (p : Nat) : s.Settles (s.heatTouch p) := by
  unfold State.heatTouch
  dsimp only
  split
  · exact (s.lookupLoc_only p).symm ▸ of_same rfl rfl rfl rfl
  · exact (s.lookupLoc_only p).symm ▸ of_same rfl rfl rfl rfl

theorem memBytes (s : State) (tag : Option Nat) (p n : Nat) : s.Settles (s.memBytes tag p n) := by
  unfold State.memBytes
  dsimp only
  split
  · split
    · exact (meter ..).trans (use ..)
    · exact (meter ..).trans (use ..)
  · exact refl s

theorem setHif (s : State) (x : HifSt) : s.Settles { s with hif := x } := of_same rfl rfl rfl rfl

/-! The shared caches and the memory behind them. -/

theorem lineBack (s : State) (tag : Option Nat) (l : Nat) : s.Settles (s.lineBack tag l) := by
  unfold State.lineBack
  split
  · exact of_same rfl rfl rfl rfl
  · exact (heatTouch ..).trans (memBytes ..)
  · exact refl s

theorem setScd (s : State) (j : Nat) (c : Cache) : s.Settles (s.setScd j c) := of_same rfl rfl rfl rfl

theorem scdTouch (s : State) (tag : Option Nat) (a : Target) (w : Bool) : s.Settles (s.scdTouch tag a w) := by
  unfold State.scdTouch
  split
  · exact refl s
  · dsimp only
    split
    · split
      · exact setScd ..
      · exact refl s
    · refine trans ?_ (setScd ..)
      have hvictim : ∀ v : Option CLine, s.Settles
          (match v with | some v => if v.dirty.isEmpty then s else s.lineBack tag v.addr | none => s) := fun v => by
        split
        · split
          · exact refl s
          · exact lineBack ..
        · exact refl s
      split
      · exact (hvictim _).trans ((heatTouch ..).trans (memBytes ..))
      · exact (hvictim _).trans (setHif ..)

theorem touchLines (s : State) (tag : Option Nat) (a : Target) (n : Nat) (w : Bool) :
    s.Settles (s.touchLines tag a n w) := by
  unfold State.touchLines
  split
  · exact refl s
  · exact each (fun _ _ => scdTouch ..) _ s

theorem takeBad1 (s : State) (a : Target) : s.Settles (s.takeBad1 a).1 := by
  unfold State.takeBad1
  split
  · exact refl s
  · dsimp only
    split
    · refine trans ?_ (setFlds ..)
      exact of_same rfl rfl rfl rfl
    · split
      · exact of_same rfl rfl rfl rfl
      · exact refl s

theorem takeBad (s : State) (a : Target) (n : Nat) : s.Settles (s.takeBad a n).1 := by
  unfold State.takeBad
  refine List.foldlRecOn (motive := fun x : State × Bool => s.Settles x.1) _ _ (refl s) fun x hx i _ => ?_
  exact hx.trans (takeBad1 ..)

theorem migTouch (s : State) (d n : Nat) : s.Settles (s.migTouch d n) := by
  rw [State.migTouch_only]
  exact of_same rfl rfl rfl rfl

theorem putDev (s : State) (d : Nat) (bs : List Byte) (w : Who) : s.Settles (s.putDev d bs w) := by
  unfold State.putDev
  split
  · exact refl s
  · split
    · refine trans (trans ?_ (migTouch ..)) (cancelResv ..)
      exact of_same rfl rfl rfl rfl
    · exact refl s

theorem putHost (s : State) (a : Nat) (bs : List Byte) (w : Who) : s.Settles (s.putHost a bs w) := by
  unfold State.putHost
  split
  · exact refl s
  · exact comp (cancelResv ..) (of_same rfl rfl rfl rfl)

theorem wrCur (s : State) (a : Nat) (bs : List Byte) : s.Settles (s.wrCur a bs) := by
  unfold State.wrCur
  split
  · exact refl s
  · exact comp (cancelResv ..) (of_same rfl rfl rfl rfl)

theorem setChk (s : State) (d e : Nat) : s.Settles (s.setChk d e) := by
  unfold State.setChk
  dsimp only
  split
  · split
    · exact refl s
    · exact (lookupLoc ..).trans (of_same rfl rfl rfl rfl)
  · exact refl s

theorem chkNonTile (s : State) (d : Nat) : s.Settles (s.chkNonTile d) := by
  unfold State.chkNonTile
  dsimp only
  split
  · exact setChk ..
  · split
    · exact setChk ..
    · exact refl s

theorem chkNonTiles (s : State) (d n : Nat) : s.Settles (s.chkNonTiles d n) := each chkNonTile _ s

theorem chkAbandon (s : State) (d r : Nat) : s.Settles (s.chkAbandon d r) := by
  unfold State.chkAbandon
  split
  · exact refl s
  · exact comp (setChk ..) (of_same rfl rfl rfl rfl)

theorem place {p : Nat} (h : s.place p = some t) : s.Settles t := by
  unfold State.place at h
  dsimp only at h
  split at h
  · split at h
    · cases h
    · split at h
      · cases h
      · cases h
        exact of_same rfl rfl rfl rfl
  · cases h; exact refl s
  · cases h; exact refl s
  · cases h

theorem homeWrite {tag : Option Nat} {a : Target} {bs : List Byte} {w : Who} (h : s.homeWrite tag a bs w = some t) :
    s.Settles t := by
  unfold State.homeWrite at h
  split at h
  · split at h
    · cases h
    · cases h
      exact (place ‹_›).trans ((scdTouch ..).trans ((putDev ..).trans (chkNonTiles ..)))
  · cases h
    exact (scdTouch ..).trans (putHost ..)
  · cases h

theorem hostDrop (s : State) (q : Option Nat) (a : Target) : s.Settles (s.hostDrop q a) := by
  unfold State.hostDrop
  split
  · split
    · exact of_same rfl rfl rfl rfl
    · exact refl s
  · exact refl s

theorem biSnoop (s : State) (a : Target) (w : Bool) : s.Settles (s.biSnoop a w) := by
  unfold State.biSnoop
  split
  · split
    · exact setHif ..
    · exact refl s
  · exact refl s

/-! The caches of cells and blocks, lost stores. -/

theorem l1Drop (s : State) (c va : Nat) : s.Settles (s.l1Drop c va) := modCell s c fun _ => rfl

theorem l2Put (s : State) (b key : Nat) (l : Option CLine) : s.Settles (s.l2Put b key l) := of_same rfl rfl rfl rfl

theorem l2Poke (s : State) (c w : Nat) (a : Target) (bs : List Byte) (d : Bool) : s.Settles (s.l2Poke c w a bs d) := by
  unfold State.l2Poke
  split
  · exact refl s
  · exact l2Put ..

theorem drew (s : State) (n : Nat) : s.Settles (s.drew n) := of_same rfl rfl rfl rfl

theorem lostUnit (s : State) (cs : List Nat) (gs : List (Nat × Nat)) : s.Settles (s.lostUnit cs gs) := by
  unfold State.lostUnit
  refine comp (each (fun s p => ?_) gs _) (each (fun s c => ?_) cs s)
  · exact (dropResv ..).trans (modCell _ _ fun _ => rfl)
  · exact of_same rfl rfl rfl rfl

theorem landed (s : State) (a : Target) (bs : List Byte) : s.Settles (s.landed a bs) := by
  unfold State.landed
  split
  · split
    · exact (putDev ..).trans (chkNonTiles ..)
    · exact refl s
  · exact wrCur ..
  · exact refl s

theorem mayLand (s : State) (m : NMap Byte) : s.Settles (s.mayLand m) := by
  unfold State.mayLand
  refine comp (drew ..) (each (fun s e => ?_) _ s)
  dsimp only
  split
  · exact each (fun _ _ => landed ..) _ s
  · exact refl s

end State.Settles

/-- The state that a write-back leaves, ended or waiting. -/
def WbAns.state : WbAns → State
  | .done s => s
  | .wait s => s

namespace State.Settles

theorem foldl_homeWrite {α : Type} (f : State → α → Option State)
    (hf : ∀ (s t : State) a, f s a = some t → s.Settles t)
    (l : List α) {o : Option State} (ho : ∀ u, o = some u → s.Settles u)
    (h : l.foldl (fun x a => x.bind (fun y => f y a)) o = some t) : s.Settles t := by
  induction l generalizing o with
  | nil => exact ho t h
  | cons a l ih =>
    refine ih (fun u hu => ?_) h
    obtain ⟨y, hy, hyu⟩ := Option.bind_eq_some_iff.mp hu
    exact (ho y hy).trans (hf y u a hyu)

theorem flits (s : State) (r n : Nat) : s.Settles (s.flits r n) := pmc ..

theorem of_done {o : WbAns} (h : s.Settles o.state) (e : o = .done t) : s.Settles t := by
  subst e
  exact h

theorem of_wait {o : WbAns} (h : s.Settles o.state) (e : o = .wait t) : s.Settles t := by
  subst e
  exact h

theorem lineOut (s : State) (b : Nat) (tag : Option Nat) (l : CLine) : s.Settles (s.lineOut b tag l).state := by
  unfold State.lineOut
  dsimp only
  have hread : s.Settles (if l.dirty.length < 128 then s.takeBad (lineTarget l.addr) 128 else (s, false)).1 := by
    split
    · exact takeBad ..
    · exact refl s
  revert hread
  generalize (if l.dirty.length < 128 then s.takeBad (lineTarget l.addr) 128 else (s, false)) = x
  intro hread
  split
  · exact refl s
  · split
    · exact biSnoop ..
    · split
      · exact (mayLand ..).trans (lostUnit ..)
      · split
        · exact hread.trans (lostUnit ..)
        · split
          · rename_i u hu
            refine hread.trans (trans (foldl_homeWrite _ (fun _ _ _ h => homeWrite h) _ ?_ hu)
              ((hostDrop ..).trans (flits ..)))
            rintro _ ⟨⟩
            exact refl _
          · exact hread

theorem l2Evict (s : State) (c : Nat) (a : Target) : s.Settles (s.l2Evict c a).state := by
  unfold State.l2Evict
  split
  · exact refl s
  · rename_i key l _
    have hout := lineOut s (blockOf c) (s.cellAcct c) l
    split
    · rename_i hw
      exact hout.of_wait hw
    · rename_i hd
      exact (hout.of_done hd).trans (l2Put _ (blockOf c) key none)

theorem tilePut (s : State) (tag : Option Nat) (a : Target) (bs : List Byte) : s.Settles (s.tilePut tag a bs) := by
  unfold State.tilePut
  split
  · exact (touchLines ..).trans (putDev ..)
  · exact (touchLines ..).trans (putHost ..)
  · exact refl s

theorem tileLinePut (s : State) (c va : Nat) (a : Target) (bs : List Byte) : s.Settles (s.tileLinePut c va a bs) := by
  unfold State.tileLinePut
  have hevict := (l1Drop s c va).trans (l2Evict (s.l1Drop c va) c a)
  split
  · rename_i hw
    exact hevict.of_wait hw
  · rename_i hd
    refine (hevict.of_done hd).trans ?_
    split
    · exact biSnoop ..
    · exact (tilePut ..).trans (flits ..)

theorem abandonStore (s : State) (c : Nat) (p : InProg) (partly : Bool) : s.Settles (s.abandonStore c p partly) := by
  refine each (fun s tb => ?_) _ s
  dsimp only
  have hpart : s.Settles (if partly = true then
      (s.each (List.range (if partly = true then s.freeAt 0 % 33 else 0)) fun s i =>
        s.tileLinePut c (tb.1.1 + 128 * i) (tb.1.2.plus (128 * i)) ((tb.2.drop (128 * i)).take 128)).drew 1
        else s) := by
    split
    · exact comp (drew ..) (each (fun _ _ => tileLinePut ..) _ s)
    · exact refl s
  split
  · exact hpart.trans (chkAbandon ..)
  · exact hpart

theorem stopStream (s : State) (c : Nat) (x : StreamSt) (partly : Bool) : s.Settles (s.stopStream c x partly) :=
  each (fun _ _ => abandonStore ..) _ s

/-! Frames sent to peers. -/

theorem setLink (s : State) (k : Nat) (l : Link) : s.Settles (s.setLink k l) := of_same rfl rfl rfl rfl

theorem logHdr (s : State) (k type : Nat) (f : Frame) : s.Settles (s.logHdr k type f) := by
  unfold State.logHdr
  exact of_same rfl rfl rfl rfl

theorem transmit (s : State) (k : Nat) (x : TxFrame) : s.Settles (s.transmit k x) := by
  unfold State.transmit
  exact comp (setLink ..) (logHdr ..)

theorem sendQueue (k : Nat) (native : Bool) (l : List TxFrame) (held : List Bool) (s : State) :
    s.Settles (State.sendQueue k native l held s) := by
  induction l generalizing held s with
  | nil => exact refl s
  | cons x l ih =>
    unfold State.sendQueue
    dsimp only
    split
    · exact comp (ih ..) (setLink ..)
    · exact comp (ih ..) (transmit ..)

theorem pump (s : State) (k : Nat) : s.Settles (s.pump k) := by
  unfold State.pump
  dsimp only
  split
  · exact refl s
  · exact comp (sendQueue ..) (setLink ..)

theorem sendFrame {type : Nat} {f : Frame} (h : s.sendFrame type f = some t) : s.Settles t := by
  unfold State.sendFrame at h
  split at h
  · cases h
  · split at h
    · cases h
    · cases h
      exact comp (pump ..) (setLink ..)

theorem fabricBytes (s : State) (tag : Option Nat) (dst n : Nat) : s.Settles (s.fabricBytes tag dst n) := by
  unfold State.fabricBytes
  dsimp only
  split
  · exact comp (use ..) (meter ..)
  · exact meter ..

theorem sendReq {unit tag : Option Nat} {type : Nat} {f : Frame} {svc : RemFor} {tile : Bool}
    (h : s.sendReq unit tag type f svc tile = some t) : s.Settles t := by
  unfold State.sendReq at h
  dsimp only at h
  split at h
  · cases h
  · rename_i s1 hsend
    cases h
    exact (sendFrame hsend).trans ((fabricBytes ..).trans (of_same rfl rfl rfl rfl))

theorem sendOrDrop (s : State) (type : Nat) (f : Frame) : s.Settles (s.sendOrDrop type f) := by
  unfold State.sendOrDrop
  split
  · exact sendFrame ‹_›
  · exact of_same rfl rfl rfl rfl

theorem withdrawRemote (s : State) (r : RemReq) : s.Settles (s.withdrawRemote r) :=
  (sendOrDrop s _ _).trans (of_same rfl rfl rfl rfl)

/-! What leaves a cell as it halts. -/

theorem withdrawCell (s : State) (c : Nat) : s.Settles (s.withdrawCell c) :=
  (feWithdraw s _).trans (each withdrawRemote _ _)

theorem combFlush {c : Nat} {e : CombEnt} (h : s.combFlush c e = some t) : s.Settles t := by
  have hdrop : ∀ u : State, u.Settles
      ((u.modCell c (fun x => { x with comb := x.comb.filter (fun y => y.va != e.va) })).l1Drop c e.va) := fun u =>
    comp (l1Drop ..) (modCell u c fun _ => rfl)
  unfold State.combFlush at h
  dsimp only at h
  split at h
  case h_1 =>
    split at h
    · cases h
    · split at h
      · cases h
        exact (hdrop s).trans (lostUnit ..)
      · cases h
        refine (hdrop s).trans (each (fun s r => ?_) _ _)
        split
        · exact (sendReq ‹_›).trans (flits ..)
        · exact refl s
  case h_2 =>
    have hread : s.Settles (if e.bytes.length < 128 then s.takeBad e.tgt 128 else (s, false)).1 := by
      split
      · exact takeBad ..
      · exact refl s
    revert hread h
    generalize (if e.bytes.length < 128 then s.takeBad e.tgt 128 else (s, false)) = x
    intro h hread
    split at h
    · cases h
      exact ((hdrop s).trans (mayLand ..)).trans (lostUnit ..)
    · split at h
      · cases h
      · split at h
        · cases h
          exact hread.trans ((hdrop _).trans (lostUnit ..))
        · refine hread.trans ((hdrop _).trans (foldl_homeWrite _ (fun y z r hz => ?_) _ ?_ h))
          · obtain ⟨v, hv, rfl⟩ := Option.map_eq_some_iff.mp hz
            exact ((l2Poke ..).trans (homeWrite hv)).trans ((hostDrop ..).trans (flits ..))
          · rintro _ ⟨⟩
            exact refl _

theorem combFlushAll (s : State) (c : Nat) : s.Settles (s.combFlushAll c).1 := by
  unfold State.combFlushAll
  refine List.foldlRecOn (motive := fun x : State × Bool => s.Settles x.1) _ _ (refl s) fun x hx e _ => ?_
  split
  · exact hx.trans (combFlush ‹_›)
  · exact hx.trans (biSnoop ..)

end State.Settles

/-! ### Halts (R68 to R71, R312) -/

/-- The record of a halt (R68). -/
def HaltArg.record (h : HaltArg) (now : Nat) : HaltRec :=
  ⟨h.reason, h.group, h.source, h.more, true, h.mask, h.pc % 2 ^ 57, (h.addr.getD 0) % 2 ^ 57, h.addr.isSome, now⟩

/-- What a halt stops and takes off its cell, before the record: TSTOREs, full/empty operations, reservations. -/
def State.haltStops (s : State) (c : Nat) : State :=
  ((s.stopStream c (s.cell c).sa true).withdrawCell c).dropResv (fun r => r.cell == c)

/-- A cell as a halt leaves it. -/
def Cell.halts (x : Cell) (h : HaltArg) (now : Nat) : Cell :=
  { x with
    state := .halted, reported := false, halt := h.record now, reqs := dropYounger h x.reqs
    sa := { x.sa with prog := [] }, sx := { x.sx with prog := [] }, arr := { x.arr with retry := false } }

theorem State.haltCell_of_running {c : Nat} (h : HaltArg) (hrun : (s.cell c).state = .running) :
    s.haltCell c h = (((s.haltStops c).modCell c (·.halts h (s.haltStops c).now)).combFlushAll c).1 :=
  if_neg (not_not.mpr hrun)

theorem State.haltCell_of_not_running {c : Nat} (h : HaltArg) (hrun : (s.cell c).state ≠ .running) :
    s.haltCell c h = s := if_pos hrun

theorem State.settles_haltStops (s : State) (c : Nat) : s.Settles (s.haltStops c) :=
  ((Settles.stopStream ..).trans (Settles.withdrawCell ..)).trans (Settles.dropResv ..)

/-- R68: the cell that halts is HALTED with its record, and its streams run nothing. -/
theorem State.haltPart_haltCell {c : Nat} (h : HaltArg) (hrun : (s.cell c).state = .running) :
    ((s.haltCell c h).cell c).haltPart =
      (.halted, h.record s.now, { (s.cell c).sa with prog := [] }, { (s.cell c).sx with prog := [] }) := by
  have hstop := s.settles_haltStops c
  have hnow : (s.haltStops c).now = s.now := congrArg TimeSt.ns hstop.time
  have hstreams := congrArg (·.2.2) (hstop.cell c)
  rw [State.haltCell_of_running h hrun, (Settles.combFlushAll ..).cell c, State.cell_modCell_self, hnow]
  simp only [Cell.haltPart, Prod.mk.injEq] at hstreams
  obtain ⟨hsa, hsx⟩ := hstreams
  simp only [Cell.haltPart, Cell.halts, hsa, hsx]

/-- R68: a cell that halts has no full/empty operation waiting. -/
theorem State.waiters_haltCell {c : Nat} (h : HaltArg) (hrun : (s.cell c).state = .running) :
    ∀ w ∈ (s.haltCell c h).waiters, FeWaiter.ofCell c w = false := by
  intro w hw
  rw [State.haltCell_of_running h hrun] at hw
  have hflush := (Settles.combFlushAll ..).waiters hw
  have hfilter := (Settles.each Settles.withdrawRemote _ _).waiters hflush
  simpa using (List.mem_filter.mp hfilter).2

/-- R160: a cell that halts holds no reservation. -/
theorem State.resv_haltCell {c : Nat} (h : HaltArg) (hrun : (s.cell c).state = .running) :
    ∀ r ∈ (s.haltCell c h).resv, r.cell ≠ c := by
  intro r hr
  rw [State.haltCell_of_running h hrun] at hr
  simpa using (List.mem_filter.mp ((Settles.combFlushAll ..).resv hr)).2

/-! ### Groups that wait (R166) -/

/-- What the issue stage makes of a state for one of a group's instructions. -/
def State.Issues (s : State) (g : GTgt) (x : State) : Prop := ∃ a act, x = s.issue g a act

theorem State.issues_atomic (i : MemI) (op : Nat) : s.Issues g (s.atomic g i op) := by
  unfold State.atomic
  exact ⟨_, _, rfl⟩

theorem State.issues_fullEmpty (i : MemI) (op : Nat) : s.Issues g (s.fullEmpty g i op) := by
  unfold State.fullEmpty
  exact ⟨_, _, rfl⟩

theorem State.issues_compare (i : PredI) (l : Bool) (w : Nat) (f) : s.Issues g (s.compare g i l w f) := by
  unfold State.compare
  exact ⟨_, _, rfl⟩

theorem State.issues_vote (i : PredI) (f) : s.Issues g (s.vote g i f) := by
  unfold State.vote
  exact ⟨_, _, rfl⟩

theorem State.issues_tappend (i : UniI) (st) : s.Issues g (s.tappend g i st) := by
  unfold State.tappend
  exact ⟨_, _, rfl⟩

theorem exec_thread {i : Instr} {op : BitVec 8} {b : Body} (h : i.thread = some (g, op, b)) (s : State) :
    ∃ x, exec i s = .next x ∧ s.Issues g x := by
  cases i <;> cases h
  case atomAdd | atomMin | atomMax | atomAnd | atomOr | atomXor | atomExch | atomCas | atomFadd =>
    exact ⟨_, rfl, s.issues_atomic ..⟩
  case feTake | fePeek | fePut | feUpdate | feClear => exact ⟨_, rfl, s.issues_fullEmpty ..⟩
  case icmp | fcmp | dcmp => exact ⟨_, rfl, s.issues_compare ..⟩
  case pany | pall => exact ⟨_, rfl, s.issues_vote ..⟩
  case tappendA | tappendX => exact ⟨_, rfl, s.issues_tappend ..⟩
  all_goals exact ⟨_, rfl, _, _, rfl⟩

/-- R166: nothing of the thread set happens for a group with a full/empty operation outstanding. -/
theorem exec_thread_of_feOut {i : Instr} {op : BitVec 8} {b : Body} (h : i.thread = some (g, op, b))
    (hfe : (s.cell (cellNo g.cell)).feOut g.slot.val = true) : exec i s = .next s := by
  obtain ⟨x, hexec, a, act, rfl⟩ := exec_thread h s
  rw [hexec, issue_waits act (.inr (.inr (.inr (.inl hfe))))]

/-! ### The watchdog and the report of a halt (R68, R71, R312, R419) -/

/-- R71: whether the watchdog halts a cell now. -/
def State.wdExpired (s : State) (c : Nat) : Bool :=
  !(!s.alive || (s.cell c).state != .running || (s.cell c).tbs.isEmpty || (List.range 16).any (s.cell c).feOut
    || decide (s.now < (s.cell c).progress))

/-- R71, R419: a cell that the watchdog halts, once more. -/
def State.wdHalt (s : State) (c : Nat) : State :=
  (s.haltCell c ⟨hrWatchdog, 3, 0, 0, 0, none, false, 0⟩).modCell c (fun x => { x with wdogs := x.wdogs + 1 })

theorem exec_watchdog (cid : CellId) (s : State) : exec (.watchdog cid) s = .next (
    if s.wdExpired (cellNo cid) then
      (if ((s.wdHalt (cellNo cid)).cell (cellNo cid)).wdogs ≥ 2 then (s.wdHalt (cellNo cid)).markIsolate (cellNo cid)
        else s.wdHalt (cellNo cid))
    else s) := by
  have hexec : exec (.watchdog cid) s = execWatchdog cid s := rfl
  rw [hexec, execWatchdog, State.wdExpired]
  dsimp only
  split
  case isTrue h => rw [h]; rfl
  case isFalse h => rw [Bool.eq_false_of_not_eq_true h]; rfl

theorem State.wdExpired_of_early {c : Nat} (h : s.now < (s.cell c).progress) : s.wdExpired c = false := by
  simp [State.wdExpired, h]

theorem State.wdExpired_of_late {c : Nat} (ha : s.alive = true) (h : (s.cell c).progress ≤ s.now)
    (hrun : (s.cell c).state = .running) (htbs : (s.cell c).tbs ≠ [])
    (hfe : ∀ i, i < 16 → (s.cell c).feOut i = false) :
    s.wdExpired c = true := by
  have hany : (List.range 16).any (s.cell c).feOut = false := by simpa using hfe
  simp [State.wdExpired, ha, hrun, htbs, hany, h]

/-- R68: the front end has the report of a cell's halt. -/
def State.reported (s : State) (c : Nat) : State := s.setCell c { s.cell c with reported := true }

theorem exec_haltReport_of_reported {cid : CellId} (h : (s.cell (cellNo cid)).reported = true) :
    exec (.haltReport cid) s = .next s :=
  congrArg Host.Outcome.next (if_pos (by simp [h]))

/-- R312: a halt reported for the first time: without a kernel nothing follows; a kernel not yet failed is. -/
theorem exec_haltReport {cid : CellId} (ha : s.alive = true) (hhalt : (s.cell (cellNo cid)).state = .halted)
    (h : (s.cell (cellNo cid)).reported = false) :
    ((s.reported (cellNo cid)).cellKernel (cellNo cid) = none →
      exec (.haltReport cid) s = .next (s.reported (cellNo cid))) ∧
    (∀ k, (s.reported (cellNo cid)).cellKernel (cellNo cid) = some k → k.code ≠ fcBudget → k.aborted = false →
      exec (.haltReport cid) s =
        .next (((s.reported (cellNo cid)).modKernel k.id (fun y => { y with cells := y.cells ++ [cellNo cid] })).abortKernel
          k.id (0x5000 + (s.cell (cellNo cid)).halt.reason) false)) := by
  have hexec : exec (.haltReport cid) s = execHaltReport cid s := rfl
  have hgo : (!s.alive || (s.cell (cellNo cid)).state != .halted || (s.cell (cellNo cid)).reported) = false := by
    simp [ha, hhalt, h]
  rw [hexec, execHaltReport]
  dsimp only
  rw [hgo, ← State.reported]
  refine ⟨fun hk => ?_, fun k hk hcode hab => ?_⟩
  · rw [hk]
    rfl
  · rw [hk]
    dsimp only
    rw [if_neg hcode, hab]
    rfl

/-- Settles O16: the waiting groups by `issue_waits`; the halt by what its traffic leaves (`State.Settles`); the watchdog
and the report by the equations of their commands. -/
theorem haltsAndWaits : Obligations.HaltsAndWaits := by
  refine ⟨fun i g op b s h hfe => exec_thread_of_feOut h hfe, fun s c h => ⟨State.haltCell_of_not_running h,
    fun hrun => ?halt⟩, ?front⟩
  case halt =>
    have hpart := State.haltPart_haltCell h hrun
    simp only [Cell.haltPart, Prod.mk.injEq] at hpart
    obtain ⟨hstate, hrec, hsa, hsx⟩ := hpart
    refine ⟨hstate, hrec, by rw [hsa], by rw [hsx], ?_, ?_⟩
    · simpa using State.resv_haltCell h hrun
    · simpa using State.waiters_haltCell h hrun
  case front =>
    intro cid s c ha
    refine ⟨fun hearly => ?_, fun hlate hrun htbs hfe => ?_, fun hhalt hrep => exec_haltReport ha hhalt hrep,
      exec_haltReport_of_reported⟩
    · rw [exec_watchdog, State.wdExpired_of_early hearly]
      rfl
    · rw [exec_watchdog, State.wdExpired_of_late ha hlate hrun htbs hfe]
      rfl

end Sys2Proof.Machine

/-!
PROOFS. The checks of a memory request (R58, R158), the
entry of a request in its cell's list (R71), and LDS and STS (R59).
-/

namespace Sys2Proof.Machine

section

variable {s : State} {t : GTgt} {i : MemI} {p : MemSpec} {g : Group}

/-! ### The checks of a request and its entry (R58, R71, R158) -/

/-- R158: the first lane that is not aligned is answered, before any lane is translated. -/
theorem State.memChk_misaligned (s : State) (c size : Nat) (need : Need) (here : Bool) {a b : List (Nat × Nat)}
    {e : Nat × Nat} (ha : ∀ x ∈ a, x.2 % 2 ^ size = 0) (he : e.2 % 2 ^ size ≠ 0) :
    s.memChk c size need here (a ++ e :: b) = .bad s hrMisaligned e.2 := by
  have hfind : (a ++ e :: b).find? (fun e => e.2 % 2 ^ size != 0) = some e :=
    List.find?_eq_some_iff_append.mpr ⟨by simpa using he, a, b, rfl, fun x hx => by simpa using ha x hx⟩
  rw [State.memChk, hfind]

theorem State.memChk_aligned (s : State) (c size : Nat) (need : Need) (here : Bool) {l : List (Nat × Nat)}
    (h : ∀ x ∈ l, x.2 % 2 ^ size = 0) : s.memChk c size need here l = s.memXlate c need here l := by
  have hfind : l.find? (fun e => e.2 % 2 ^ size != 0) = none :=
    List.find?_eq_none.mpr fun x hx => by simpa using h x hx
  rw [State.memChk, hfind]

/-- A request as it is entered: numbered by its cell, with the time, the group's instruction and the limits in force. -/
def State.entered (s : State) (c slot : Nat) (g : Group) (k : ReqKind) (l : List LaneOp) : Req :=
  ⟨(s.cell c).nextReq, slot, k, l, s.now, g.pc.toNat, false, s.fld .CFG_MEMORY_crc_retry_limit 0,
    s.fld .CFG_FAR_TIER_completion_timeout_ms 0, false⟩

/-- R58, R71: a request at the end of its cell's list, its group at the next instruction. -/
def State.enter (s : State) (c slot : Nat) (g : Group) (k : ReqKind) (l : List LaneOp) : State :=
  (s.setGroup c slot g.adv).modCell c (fun x => { x with
    nextReq := x.nextReq + 1, reqs := x.reqs ++ [s.entered c slot g k l] })

theorem State.newReq_nil (s : State) (c slot : Nat) (g : Group) (k : ReqKind) :
    s.newReq c slot g k [] = s.setGroup c slot g.adv := rfl

theorem State.newReq_of_lanes (s : State) (c slot : Nat) (g : Group) (k : ReqKind) {l : List LaneOp} (hl : l ≠ []) :
    s.newReq c slot g k l =
      ((s.enter c slot g k l).sendReqs c (s.cell c).nextReq).settle c (s.cell c).nextReq := by
  have hid : ((s.setGroup c slot g.adv).cell c).nextReq = (s.cell c).nextReq := by
    rw [State.setGroup, State.cell_modCell_self]
  rw [State.newReq, if_neg (by simpa using hl)]
  dsimp only
  rw [hid]
  rfl

theorem State.cell_enter_self (s : State) (c slot : Nat) (g : Group) (k : ReqKind) (l : List LaneOp) :
    (s.enter c slot g k l).cell c = { s.cell c with
      groups := mapIns (s.cell c).groups slot g.adv
      nextReq := (s.cell c).nextReq + 1
      reqs := (s.cell c).reqs ++ [s.entered c slot g k l] } := by
  rw [State.enter, State.cell_modCell_self, State.setGroup, State.cell_modCell_self]

theorem State.cell_enter_other (s : State) {c d : Nat} (slot : Nat) (g : Group) (k : ReqKind) (l : List LaneOp)
    (h : d ≠ c) : (s.enter c slot g k l).cell d = s.cell d := by
  rw [State.enter, State.cell_modCell_other _ _ h, State.setGroup, State.cell_modCell_other _ _ h]

/-! ### The scratchpad ports (R59) -/

theorem Cell.scrWait_only (n : Nat) (x : Cell) : x.scrWait n = { x with scrRun := (x.scrWait n).scrRun } := by
  induction n generalizing x with
  | zero => rfl
  | succ n ih =>
    unfold Cell.scrWait
    split
    · rfl
    · exact ih _

theorem Cell.scrRun_scrWait_le (n : Nat) (x : Cell) : (x.scrWait n).scrRun ≤ x.scrRun + n := by
  induction n generalizing x with
  | zero => exact le_rfl
  | succ n ih =>
    unfold Cell.scrWait
    split
    · exact Nat.le_add_right ..
    · exact (ih _).trans (by simp only; omega)

/-- A turn at the ports changes the count of grants alone. -/
theorem Cell.scrGrant_only (x : Cell) : x.scrGrant = { x with scrRun := x.scrGrant.scrRun } := Cell.scrWait_only 4 _

/-- R59: at most four grants to the streams go before. -/
theorem Cell.scrRun_scrGrant_le (x : Cell) : x.scrGrant.scrRun ≤ 4 :=
  Cell.scrRun_scrWait_le 4 { x with scrRun := 0 }

/-- R59: none goes before while no stream asks for the scratchpad. -/
theorem Cell.scrRun_scrGrant_idle (x : Cell) (hx : x.sx.scrWants = false) (ha : x.sa.scrWants = false) :
    x.scrGrant.scrRun = 0 := by
  have hnext : Cell.scrNext { x with scrRun := 0 } = .thread := by simp [Cell.scrNext, hx, ha]
  rw [Cell.scrGrant, Cell.scrWait, if_pos hnext]

@[simp] theorem Cell.scr_scrGrant (x : Cell) : x.scrGrant.scr = x.scr := by rw [Cell.scrGrant_only]

/-! ### LDS and STS (R56) -/

theorem Group.wr_adv (g : Group) (n r l x : Nat) : g.adv.wr n r l x = (g.wr n r l x).adv := by
  induction n generalizing g r x with
  | zero => rfl
  | succ n ih =>
    rw [Group.wr, Group.wr]
    exact ih { g with v := mapSet 0 g.v (32 * r + l) (BitVec.ofNat 32 x) } (r + 1) _

theorem Group.wrs_adv (g : Group) (n r : Nat) (l : List (Nat × Nat)) : g.adv.wrs n r l = (g.wrs n r l).adv := by
  induction l generalizing g with
  | nil => rfl
  | cons e l ih => exact (congrArg (Group.wrs · n r l) (g.wr_adv n r e.1 e.2)).trans (ih _)

theorem Group.rd_adv (g : Group) (n r l : Nat) : g.adv.rd n r l = g.rd n r l :=
  Group.rd_congr n r l fun k _ _ => g.v1_adv k l

theorem Cell.shareOf_issued (s : State) (c k : Nat) (g g' : Group) :
    ((s.issued c k g').cell c).shareOf g = (s.cell c).shareOf g := by
  rw [State.cell_issued_self]
  rfl

/-- What the issue stage checks of LDS and STS: nothing of theirs is translated. -/
def scrArg (i : MemI) (p : MemSpec) : IssueArg := { memArg i p with pre := fun _ _ _ _ _ => none }

/-- LDS or STS that its group issues: its first failing lane halts the cell, else it acts on the scratchpad after its turn
at the ports. -/
theorem State.scrOp_runs (act : Cell → Group → List (Nat × Nat) → Cell × Group) (h : s.canMem t i p g) :
    let c := cellNo t.cell
    let s1 := s.issued c t.slot.val g
    let r := act (s1.cell c).scrGrant g.adv (g.addrs i)
    (scrBad ((s.cell c).shareOf g) i.size.toNat (g.addrs i) = none →
      s.scrOp t i p act = (s1.setCell c r.1).setGroup c t.slot.val r.2) ∧
    (∀ e, scrBad ((s.cell c).shareOf g) i.size.toNat (g.addrs i) = some e →
      s.scrOp t i p act = s.haltedBy t g e.1 (some e.2)) := by
  obtain ⟨hg, hc, -, hlegal, hrange⟩ := h
  have hb : (scrArg i p).bad = none := by simp [scrArg, memArg, hlegal, hrange, badIf, firstBad]
  have ht : (scrArg i p).tokens = 0 := by
    rw [IssueArg.tokens, hb]
    rfl
  have ha : (lanesOf (g.acting (scrArg i p).guard)).map (fun ln => (ln, memVa g i ln)) = g.addrs i := rfl
  intro c s1 r
  rw [State.scrOp, ← scrArg, issue_runs _ hg (ht.symm ▸ hc) hb rfl rfl, ht]
  dsimp only
  rw [Cell.shareOf_issued, ha]
  refine ⟨fun hgood => ?_, fun e hbad => ?_⟩
  · rw [hgood]
  · rw [hbad]
    rfl

/-- R56: LDS writes the acting lanes' registers with what the scratchpad holds. -/
theorem exec_lds (h : s.canMem t i { sizes := [0, 1, 2, 3, 4], sign := true, dst := sizeRegs } g) :
    let c := cellNo t.cell
    let sh := (s.cell c).shareOf g
    (scrBad sh i.size.toNat (g.addrs i) = none →
      ∃ g', exec (.lds t i) s = .next (((s.issued c t.slot.val g).setCell c
          ((s.issued c t.slot.val g).cell c).scrGrant).setGroup c t.slot.val g') ∧
        g.Wrote g' (sizeRegs i.size.toNat) i.vd.toNat (g.acting i.g)
          (fun l => loadVal i.size.toNat i.sign (leNat (bytesAt (s.cell c).scr (memVa g i l) (2 ^ i.size.toNat))))) ∧
    (∀ e, scrBad sh i.size.toNat (g.addrs i) = some e →
      exec (.lds t i) s = .next (s.haltedBy t g e.1 (some e.2))) := by
  intro c sh
  have hexec : exec (.lds t i) s = execLds t i s := rfl
  obtain ⟨hgood, hbad⟩ := State.scrOp_runs (fun x g l =>
    (x, g.wrs (sizeRegs i.size.toNat) i.vd.toNat (l.map (fun e =>
      (e.1, loadVal i.size.toNat i.sign (leNat (bytesAt x.scr e.2 (2 ^ i.size.toNat)))))))) h
  rw [hexec]
  refine ⟨fun hnone => ⟨_, congrArg Host.Outcome.next (hgood hnone), ?_⟩,
    fun e he => congrArg Host.Outcome.next (hbad e he)⟩
  have hscr : ((s.issued c t.slot.val g).cell c).scr = (s.cell c).scr := by rw [State.cell_issued_self]
  rw [Group.wrs_adv, Cell.scr_scrGrant, hscr, Group.addrs, List.map_map]
  exact wrote_wrs g _ _ _ _

/-- R56: STS writes the scratchpad with the acting lanes' registers, in their order. -/
theorem exec_sts (h : s.canMem t i { sizes := [0, 1, 2, 3, 4], src := sizeRegs } g) :
    let c := cellNo t.cell
    let sh := (s.cell c).shareOf g
    (scrBad sh i.size.toNat (g.addrs i) = none →
      exec (.sts t i) s = .next (((s.issued c t.slot.val g).setCell c ((g.addrs i).foldl
        (fun x e => x.scrPut e.2 (natLe (2 ^ i.size.toNat) (g.rd (sizeRegs i.size.toNat) i.vd.toNat e.1)))
        ((s.issued c t.slot.val g).cell c).scrGrant)).setGroup c t.slot.val g.adv)) ∧
    (∀ e, scrBad sh i.size.toNat (g.addrs i) = some e →
      exec (.sts t i) s = .next (s.haltedBy t g e.1 (some e.2))) := by
  intro c sh
  have hexec : exec (.sts t i) s = execSts t i s := rfl
  obtain ⟨hgood, hbad⟩ := State.scrOp_runs (fun x g l =>
    (l.foldl (fun x e => x.scrPut e.2 (natLe (2 ^ i.size.toNat) (dataOf i g e.1).1)) x, g)) h
  rw [hexec]
  refine ⟨fun hnone => (congrArg Host.Outcome.next (hgood hnone)).trans ?_,
    fun e he => congrArg Host.Outcome.next (hbad e he)⟩
  simp only [dataOf, Group.rd_adv, c]

end

/-- Settles O18: the checks by the first lane that is not aligned, the entry by `newReq`'s equations, LDS and STS by the
scratchpad's own rule. -/
theorem requestChecks : Obligations.RequestChecks := by
  refine ⟨fun s c size need here l => ⟨?_, s.memChk_aligned c size need here⟩,
    fun s c slot g k l => ⟨?_, fun hl => ?_⟩, ?_⟩
  · rintro a e b rfl ha he
    exact s.memChk_misaligned c size need here ha he
  · rintro rfl
    exact s.newReq_nil c slot g k
  · exact ⟨s.enter c slot g k l, s.newReq_of_lanes c slot g k hl, fun d => s.cell_enter_other slot g k l,
      s.cell_enter_self c slot g k l, rfl⟩
  · intro t i s g c n sh spec
    exact ⟨exec_lds, exec_sts, fun x => ⟨x.scrGrant_only, x.scrRun_scrGrant_le, x.scrRun_scrGrant_idle⟩⟩

end Sys2Proof.Machine

/-!
PROOFS. Answers of the memory to cells (R192 to R195) and the timeouts of their operations (R168, R170, R186, R360).
-/

namespace Sys2Proof.Machine

section

variable {s s1 : State} {cid : CellId} {id : Nat} {q : Req}

/-! ### Answers of the memory (R192 to R195, R222, R428, R463) -/

theorem exec_memoryReply (ha : s.alive = true) (r : Reply) : exec (.memoryReply cid r) s = .next (
    match r with
    | .data id a => s.replyData (cellNo cid) id a
    | .ifetch slot w a => s.replyFetch (cellNo cid) slot.val w a
    | .mfetch st op a => s.replyMacro (cellNo cid) st op.toNat a) := by
  refine congrArg Host.Outcome.next ((if_neg ?_).trans ?_)
  · simp [ha]
  · cases r <;> rfl

/-- The answers that report a correction, with the count each raises. -/
def corrections (c : Nat) : List (Answer × Fld × Nat) :=
  [(.l1Corrected, .CEL_ECC_COUNT_corrected, c), (.regfileCorrected, .CEL_ECC_COUNT_corrected, c),
    (.scratchCorrected, .CEL_ECC_COUNT_corrected, c), (.l2Corrected, .BLK_L2_ECC_corrected, blockOf c)]

theorem State.replyData_correction {c : Nat} {r : Answer × Fld × Nat} (hr : r ∈ corrections c) :
    s.replyData c id r.1 = (s.satFld r.2.1 r.2.2 1).cellPoll c := by
  simp only [corrections, List.mem_cons, List.not_mem_nil, or_false] at hr
  rcases hr with rfl | rfl | rfl | rfl <;> rfl

theorem State.replyData_ok {c : Nat} (r : ReadOutcome) (hq : s.req c id = some q)
    (hfree : (s.cell c).reqBlocked q = false) :
    s.replyData c id (.ok r) =
      ((((s.memReport c q r).performReq c id).sendReqs c id).settle c id).cellAnswered c := by
  unfold State.replyData
  dsimp only
  rw [hq]
  dsimp only
  rw [if_neg (by rw [hfree]; decide)]

/-- R428: a TARGET_RESET fails the lanes with the first one's reason. -/
theorem State.replyData_targetReset {c : Nat} {l : LaneOp} {rest : List LaneOp} (hq : s.req c id = some q)
    (hl : q.todoHere = l :: rest) : s.replyData c id .targetReset = ((s.setLanes c id
      ((q.todoHere.filter (fun y => s.resetReason y.tgt == s.resetReason l.tgt)).map (·.lane))
      (.failed (s.resetReason l.tgt))).settle c id).cellAnswered c := by
  have hhead : (s.req c id).bind (fun q => q.todoHere.head?) = some l := by rw [hq, Option.bind_some, hl]; rfl
  unfold State.replyData
  dsimp only
  rw [hhead, hq]

/-- R51, R52: an instruction word, once fetched, halts its cell where it lists no operation. -/
theorem State.replyFetch_of_fetched {c slot : Nat} {w : DWord} {a : Answer} {g : Group} (hg : s.group c slot = some g)
    (hrun : (s.cell c).state = .running) (hend : g.ended = false) (hwait : g.wait = .none)
    (hfe : (s.cell c).feOut slot = false) (hok : s.fetchAt c g.reconv.pc.toNat a = .ok s1) :
    (opListed (w.toNat % 8) (w.toNat / 8 % 256) = true → s.replyFetch c slot w a = s1.cellAnswered c) ∧
    (opListed (w.toNat % 8) (w.toNat / 8 % 256) = false → s.replyFetch c slot w a = s1.haltCell c
      ⟨hrIllegal, 0, slot, g.reconv.active, g.reconv.pc.toNat, none, false, (s.cell c).nextReq⟩) := by
  have hgo : ((s.cell c).state != .running || g.ended || g.wait != .none || (s.cell c).feOut slot) = false := by
    simp [hrun, hend, hwait, hfe]
  have hfmt : bits w.toNat 0 3 = w.toNat % 8 := by simp [bits]
  have hop : bits w.toNat 3 8 = w.toNat / 8 % 256 := rfl
  simp only [State.replyFetch, hg, hgo, hok, hfmt, hop, Bool.false_eq_true, if_false]
  exact ⟨fun h => if_pos h, fun h => if_neg (by simp [h])⟩

/-- R76, R80: the word of a stream, once fetched, halts its cell where its operation is not listed. -/
theorem State.replyMacro_of_fetched {c op : Nat} {st : Stream} {a : Answer} (hrun : (s.cell c).state = .running)
    (hstart : (s.stream c st).started = true) (hend : (s.stream c st).ended = false)
    (happ : (s.stream c st).append = false) (hhead : (s.stream c st).head = none)
    (hok : s.fetchAt c (s.stream c st).mpc a = .ok s1) :
    ((macroFields op).isSome → s.replyMacro c st op a = s1.cellAnswered c) ∧
    (macroFields op = none → s.replyMacro c st op a = s1.haltStream c st (s.stream c st).mpc hrTileBad none false) := by
  have hgo : ((s.cell c).state != .running || !(s.stream c st).started || (s.stream c st).ended ||
      (s.stream c st).append || (s.stream c st).head.isSome) = false := by
    simp [hrun, hstart, hend, happ, hhead]
  simp only [State.replyMacro, hgo, hok, Bool.false_eq_true, if_false]
  exact ⟨fun h => if_pos h, fun h => if_neg (by simp [h])⟩

/-! ### Timeouts of a cell's operations (R168, R170, R186, R360) -/

/-- R168: a full/empty operation that has waited its limit halts the cell. -/
theorem exec_feWaitTimeout_late {op vd : Nat} {l : LaneOp} (ha : s.alive = true) (hq : s.req (cellNo cid) id = some q)
    (hk : q.kind = .fe op vd) (hl : q.lanes.find? s.feLate = some l) : exec (.feWaitTimeout cid id) s =
      .next (s.haltCell (cellNo cid) ⟨hrFeTimeout, 0, q.slot, ((s.group (cellNo cid) q.slot).map (·.active)).getD 0, q.pc,
        some l.va, false, id⟩) := by
  have hexec : exec (.feWaitTimeout cid id) s = execFeWaitTimeout cid id s := rfl
  rw [hexec, execFeWaitTimeout]
  dsimp only
  rw [hq]
  dsimp only
  rw [hk, hl]
  dsimp only
  rw [if_neg (by simp [ha])]
  cases s.group (cellNo cid) q.slot with
  | none => rfl
  | some g => rfl

theorem exec_feWaitTimeout_early (hq : s.req (cellNo cid) id = some q) (hl : q.lanes.find? s.feLate = none) :
    exec (.feWaitTimeout cid id) s = .next s := by
  have hexec : exec (.feWaitTimeout cid id) s = execFeWaitTimeout cid id s := rfl
  rw [hexec, execFeWaitTimeout]
  dsimp only
  rw [hq]
  dsimp only
  rw [hl]
  split
  · contradiction
  · rfl

/-- R170: a combining entry flushes after 2 µs without a store, and not before. -/
theorem exec_combiningEntryIdleFlush {e : CombEnt} (ha : s.alive = true)
    (he : (s.cell (cellNo cid)).comb.find? (fun e => e.va / 128 == id) = some e) :
    (s.now < e.last + 2000 → exec (.combiningEntryIdleFlush cid id) s = .next s) ∧
    (e.last + 2000 ≤ s.now → ∀ s1, s.combFlush (cellNo cid) e = some s1 →
      exec (.combiningEntryIdleFlush cid id) s = .next (s1.streamPoll planOf (cellNo cid))) := by
  have hexec : exec (.combiningEntryIdleFlush cid id) s = execCombiningEntryIdleFlush cid id s := rfl
  rw [hexec, execCombiningEntryIdleFlush, he]
  dsimp only
  refine ⟨fun h => ?_, fun h s1 hs1 => ?_⟩
  · rw [if_pos (by simp [h])]
  · rw [if_neg (by simp [ha, h]), hs1]

theorem State.serves_of_alive (h : s.alive = true) : s.serves = true := (Bool.and_eq_true_iff.mp h).1

/-- R360: whether a lane at a peer has waited its limit. -/
def State.lateAway (s : State) (l : LaneOp) : Bool :=
  match l.st with
  | .sent tid => s.remote.any (fun r => r.tid == tid && decide (s.now ≥ r.since + r.lim))
  | _ => false

theorem exec_deadTargetTimeout_load (ha : s.alive = true) (hq : s.req (cellNo cid) id = some q) (hk : q.kind.cls = 0) :
    exec (.deadTargetTimeout cid id) s = .next (s.failAway (cellNo cid) q s.lateAway) := by
  have hexec : exec (.deadTargetTimeout cid id) s = execDeadTargetTimeout cid id s := rfl
  rw [hexec, execDeadTargetTimeout]
  dsimp only
  rw [State.serves_of_alive ha, hq, ha]
  dsimp only
  rw [hk]
  rfl

/-- R186: stores of a request are lost where something that waits for them has waited its limit. -/
theorem exec_deadTargetTimeout_store (ha : s.alive = true) (hq : s.req (cellNo cid) id = some q)
    (hk : q.kind.cls = 1 ∨ q.kind.cls = 2) :
    let away := s.storeDue (cellNo cid) q.sentFor
    let here := s.storeDue (cellNo cid) q.heldBy
    exec (.deadTargetTimeout cid id) s =
      .next (if away ∨ here then (s.loseStores (cellNo cid) q away here).streamPoll planOf (cellNo cid) else s) := by
  have hexec : exec (.deadTargetTimeout cid id) s = execDeadTargetTimeout cid id s := rfl
  intro away here
  rw [hexec, execDeadTargetTimeout]
  dsimp only
  rw [State.serves_of_alive ha, hq]
  dsimp only
  simp only [← Bool.or_eq_true]
  rcases hk with hk | hk
  · rw [hk]
    rfl
  · rw [hk]
    rfl

/-- Settles O24: the answers by `replyData`, `replyFetch` and `replyMacro`, the timeouts by the equations of their
commands. -/
theorem cellAnswers : Obligations.CellAnswers := by
  refine ⟨?answers, ?timeouts⟩
  case answers =>
    intro cid id s c ha
    refine ⟨fun r hr => ?_, fun q r hq hfree => ?_, fun q l rest hq hl => ?_,
      fun slot w a g s1 hg hrun hend hwait hfe hok => ?_, fun st op a s1 hrun hstart hend happ hhead hok => ?_⟩
    · rw [exec_memoryReply ha]
      exact congrArg _ (State.replyData_correction hr)
    · rw [exec_memoryReply ha]
      exact congrArg _ (State.replyData_ok r hq hfree)
    · rw [exec_memoryReply ha]
      exact congrArg _ (State.replyData_targetReset hq hl)
    · rw [exec_memoryReply ha]
      obtain ⟨hlisted, hillegal⟩ := State.replyFetch_of_fetched (w := w) hg hrun hend hwait hfe hok
      exact ⟨fun h => congrArg _ (hlisted h), fun h => congrArg _ (hillegal h)⟩
    · rw [exec_memoryReply ha]
      obtain ⟨hlisted, hbad⟩ := State.replyMacro_of_fetched (op := op.toNat) hrun hstart hend happ hhead hok
      exact ⟨fun h => congrArg _ (hlisted h), fun h => congrArg _ (hbad h)⟩
  case timeouts =>
    intro cid id s c ha
    exact ⟨fun op vd q l => exec_feWaitTimeout_late ha, fun q => exec_feWaitTimeout_early,
      fun e => exec_combiningEntryIdleFlush ha, fun q => exec_deadTargetTimeout_load ha,
      fun q => exec_deadTargetTimeout_store ha⟩

end

end Sys2Proof.Machine

/-!
PROOFS. Snoops of the host (R332), the write-back with invalidation (R160), and
accesses through the HDM window (R333 to R335).
-/

namespace Sys2Proof.Machine

section

variable {s : State}

/-! ### Snoops of the host (R160, R332) -/

/-- R332: a snoop of a line that no shared cache holds. -/
theorem exec_snoop_miss {line : Nat} (hup : s.hostUp = true) (h : s.hostHeld (line * 128) = false) :
    exec (.snpcur line) s = .next (s.respond rspMiss (line * 128) []) ∧
    exec (.snpdata line) s = .next (s.respond rspMiss (line * 128) []) ∧
    exec (.snpinv line) s = .next ((s.cancelResv (.host (line * 128)) 128 none).respond rspMiss (line * 128) []) := by
  have hgo : ¬ (!s.hostUp) = true := by simp [hup]
  have hmiss : ¬ s.hostHeld (line * 128) = true := by simp [h]
  exact ⟨congrArg Host.Outcome.next ((if_neg hgo).trans (if_neg hmiss)),
    congrArg Host.Outcome.next ((if_neg hgo).trans (if_neg hmiss)),
    congrArg Host.Outcome.next ((if_neg hgo).trans (if_neg hmiss))⟩

/-- R332: a snoop of a line that a shared cache holds. -/
theorem exec_snoop_hit {line : Nat} (hup : s.hostUp = true) (h : s.hostHeld (line * 128) = true) :
    let a := line * 128
    exec (.snpcur line) s = .next (s.respond rspSnpCur a (s.hostBytes a 128)) ∧
    exec (.snpdata line) s = .next (((s.hostLineBack a).hostClean a).respond rspSnpData a (s.hostBytes a 128)) ∧
    exec (.snpinv line) s = .next ((((s.cancelResv (.host a) 128 none).hostLineBack a).scdDrop (.host a) false).respond
      rspSnpInv a (s.hostBytes a 128)) := by
  have hgo : ¬ (!s.hostUp) = true := by simp [hup]
  exact ⟨congrArg Host.Outcome.next ((if_neg hgo).trans (if_pos h)),
    congrArg Host.Outcome.next ((if_neg hgo).trans (if_pos h)),
    congrArg Host.Outcome.next ((if_neg hgo).trans (if_pos h))⟩

theorem exec_cacheWritebackAndInvalidate (hup : s.hostUp = true) :
    exec .cacheWritebackAndInvalidate s = .next s.hostInval :=
  congrArg Host.Outcome.next (if_neg (by simp [hup]))

/-- Whatever the shared caches' lines are no part of, a flush of the host's lines leaves as its write-back made it. -/
theorem State.hostFlush_same {α : Type} (get : State → α) (hget : ∀ (t : State) j c, get (t.setScd j c) = get t) :
    get s.hostFlush = get { s with
      hostMem := s.hostDirty.foldl (fun m e => mapSet 0 m e.1 e.2) s.hostMem, hostDirty := [] } :=
  State.each_same _ _ get fun t e => hget t e.1 _

@[simp] theorem State.hostFlush_hostDirty : s.hostFlush.hostDirty = [] :=
  State.hostFlush_same State.hostDirty fun _ _ _ => rfl

@[simp] theorem State.hostFlush_hostMem :
    s.hostFlush.hostMem = s.hostDirty.foldl (fun m e => mapSet 0 m e.1 e.2) s.hostMem :=
  State.hostFlush_same State.hostMem fun _ _ _ => rfl

@[simp] theorem State.hostFlush_mem : s.hostFlush.mem = s.mem := State.hostFlush_same State.mem fun _ _ _ => rfl

@[simp] theorem State.hostFlush_cells : s.hostFlush.cells = s.cells := State.hostFlush_same State.cells fun _ _ _ => rfl

/-! ### The HDM window (R333 to R335, R431) -/

/-- A host read within the window: all ones while the device does not serve. -/
theorem exec_memrd_of_silent {hpa d : Nat} {excl : Bool} {a : ReadOutcome} (hd : s.hdmAddr (hpa / 64 * 64) = some d)
    (hs : s.serves = false) : exec (.memrd hpa excl a) s =
      .next ((s.hdmError (hpa / 64 * 64) false false).respond rspMemData (hpa / 64 * 64) (onesBytes 64)) := by
  have hexec : exec (.memrd hpa excl a) s = execMemrd hpa excl a s := rfl
  rw [hexec, execMemrd, hd]
  dsimp only
  rw [if_pos (by simp [hs])]

/-- A host read within the window while the device serves, by how its page answers. -/
theorem exec_memrd_of_serves {hpa d : Nat} {excl : Bool} {a : ReadOutcome} (hd : s.hdmAddr (hpa / 64 * 64) = some d)
    (hs : s.serves = true) :
    let h := hpa / 64 * 64
    (s.pageAns (d / 65536) = .unalloc → exec (.memrd hpa excl a) s = .next
      (((s.satFld .HIF_HDM_COUNT_unmapped 0 1).filterAdd d excl).respond rspMemData h (List.replicate 64 0))) ∧
    (s.pageAns (d / 65536) = .ok → ∀ s1, (if s.scdHas (.dev d) then (s, false) else s.readAt d a) = (s1, false) →
      exec (.memrd hpa excl a) s = .next
        (((s1.homeTouch none (.dev d)).filterAdd d excl).respond rspMemData h (s1.devBytes d 64))) ∧
    (s.pageAns (d / 65536) ≠ .ok → s.pageAns (d / 65536) ≠ .unalloc →
      exec (.memrd hpa excl a) s = .next ((s.hdmError h false true).respond rspMemData h (onesBytes 64))) := by
  have hexec : exec (.memrd hpa excl a) s = execMemrd hpa excl a s := rfl
  intro h
  rw [hexec, execMemrd, hd]
  dsimp only
  rw [if_neg (by simp [hs])]
  refine ⟨fun hpage => ?_, fun hpage s1 hread => ?_, fun hok hun => ?_⟩
  · rw [hpage]
  · rw [hpage]
    dsimp only
    rw [hread]
    rfl
  · split
    · contradiction
    · contradiction
    · rfl

theorem exec_memwr_of_silent {hpa d : Nat} {data : List Byte} (hd : s.hdmAddr hpa = some d)
    (hbs : data.take (64 - hpa % 64) ≠ []) (hs : s.serves = false) :
    exec (.memwr hpa data) s = .next (s.hdmError hpa true false) := by
  have hexec : exec (.memwr hpa data) s = execMemwr hpa data s := rfl
  rw [hexec, execMemwr, hd]
  dsimp only
  rw [if_neg (by simpa using hbs), if_pos (by simp [hs])]

/-- A host write within the window while the device serves, by how its page answers. -/
theorem exec_memwr_of_serves {hpa d : Nat} {data : List Byte} (hd : s.hdmAddr hpa = some d)
    (hbs : data.take (64 - hpa % 64) ≠ []) (hs : s.serves = true) :
    (s.pageAns (d / 65536) = .unalloc → exec (.memwr hpa data) s = .next (s.satFld .HIF_HDM_COUNT_unmapped 0 1)) ∧
    (s.pageAns (d / 65536) = .ok → ∀ s1, s.homeWrite none (.dev d) (data.take (64 - hpa % 64)) none = some s1 →
      exec (.memwr hpa data) s = .next s1) ∧
    (s.pageAns (d / 65536) ≠ .ok → s.pageAns (d / 65536) ≠ .unalloc →
      exec (.memwr hpa data) s = .next (s.hdmError hpa true true)) := by
  have hexec : exec (.memwr hpa data) s = execMemwr hpa data s := rfl
  rw [hexec, execMemwr, hd]
  dsimp only
  rw [if_neg (by simpa using hbs), if_neg (by simp [hs])]
  refine ⟨fun hpage => ?_, fun hpage s1 hwrite => ?_, fun hok hun => ?_⟩
  · rw [hpage]
  · rw [hpage]
    dsimp only
    rw [hwrite]
  · split
    · contradiction
    · contradiction
    · rfl

theorem exec_memrd_outside {hpa : Nat} {excl : Bool} {a : ReadOutcome} (h : s.hdmAddr (hpa / 64 * 64) = none) :
    exec (.memrd hpa excl a) s = .next s := by
  have hexec : exec (.memrd hpa excl a) s = execMemrd hpa excl a s := rfl
  rw [hexec, execMemrd, h]

theorem exec_memwr_outside {hpa : Nat} {data : List Byte} (h : s.hdmAddr hpa = none) :
    exec (.memwr hpa data) s = .next s := by
  have hexec : exec (.memwr hpa data) s = execMemwr hpa data s := rfl
  rw [hexec, execMemwr, h]

end

/-- Settles O28: the snoops by whether a shared cache holds the line, the accesses by whether the device serves and how
the page answers. -/
theorem hostAccesses : Obligations.HostAccesses := by
  refine ⟨?snoops, ?window⟩
  case snoops =>
    intro line s hup a s1
    exact ⟨exec_snoop_miss hup, exec_snoop_hit hup, s.hostInval, exec_cacheWritebackAndInvalidate hup,
      s.hostFlush_hostDirty, rfl, s.hostFlush_mem, s.hostFlush_hostMem, s.hostFlush_cells⟩
  case window =>
    intro hpa excl a data s h bs
    refine ⟨exec_memrd_outside, exec_memwr_outside, fun d hd => ⟨exec_memrd_of_silent hd, fun hs => ?_⟩,
      fun d hd hbs => ⟨exec_memwr_of_silent hd hbs, exec_memwr_of_serves hd hbs⟩⟩
    obtain ⟨hunalloc, hok, hlost⟩ := exec_memrd_of_serves (excl := excl) (a := a) hd hs
    exact ⟨hunalloc, fun hpage hhas => hok hpage s (by rw [hhas]; rfl),
      fun hpage hhas s1 hread => hok hpage s1 (by rw [hhas, ← hread]; rfl), hlost⟩

end Sys2Proof.Machine

/-!
PROOFS. What translations and cache lines change of the registers; the packets that synchronise (R275, R293,
R294, R308), once taken.
-/

namespace Sys2Proof.Machine

/-! ### What memory traffic counts -/

/-- The fields that translations and the lines of a shared cache change: counters, and the record of a line read as
uncorrectable. -/
def trafficFlds : List Fld :=
  [.PLE_MID_lcache_miss, .CFE_ACCT_close_bytes, .CFE_ACCT_far_bytes, .MEM_SITE_ERR_uncorrectable,
    .MEM_SITE_ERR_ADDR_addr, .MEM_SITE_ERR_ADDR_crc, .MEM_SITE_ERR_ADDR_patrol, .MEM_SITE_ERR_ADDR_valid,
    .REG_PMC_VAL_count]

section
variable {f : Fld} (hf : f ∉ trafficFlds) (s : State) (i : Nat)
include hf

theorem ne_of_notMem_trafficFlds {g : Fld} (hg : g ∈ trafficFlds) : f ≠ g := (ne_of_mem_of_not_mem hg hf).symm

theorem State.fld_heatTouch (dpn : Nat) : (s.heatTouch dpn).fld f i = s.fld f i := by
  have hlook := State.fld_lookupLoc (s := s) (ne_of_notMem_trafficFlds hf (by decide)) dpn i
  unfold State.heatTouch
  dsimp only
  split
  · exact hlook
  · exact hlook

omit hf in
theorem State.fld_use (tag : Option Nat) (k n : Nat) : (s.use tag k n).fld f i = s.fld f i := by
  unfold State.use
  split
  · rfl
  · rfl

theorem State.fld_memBytes (tag : Option Nat) (dpn n : Nat) : (s.memBytes tag dpn n).fld f i = s.fld f i := by
  unfold State.memBytes
  dsimp only
  split
  · split
    · exact (State.fld_use ..).trans (State.fld_meter _ _ _ _ (ne_of_notMem_trafficFlds hf (by decide)))
    · exact (State.fld_use ..).trans (State.fld_meter _ _ _ _ (ne_of_notMem_trafficFlds hf (by decide)))
  · rfl

theorem State.fld_lineBack (tag : Option Nat) (l : Nat) : (s.lineBack tag l).fld f i = s.fld f i := by
  unfold State.lineBack
  split
  · rfl
  · exact (State.fld_memBytes hf ..).trans (State.fld_heatTouch hf ..)
  · rfl

theorem State.fld_scdDrop (t : Target) (back : Bool) (tag : Option Nat) :
    (s.scdDrop t back tag).fld f i = s.fld f i := by
  have hback : ∀ b : Bool, State.fld (if b then s.lineBack tag t.line else s) f i = s.fld f i := fun b => by
    cases b with
    | false => rfl
    | true => exact State.fld_lineBack hf ..
  unfold State.scdDrop
  dsimp only
  split
  · rfl
  · exact hback _

theorem State.fld_dropLines (tag : Option Nat) (t : Target) (n : Nat) : (s.dropLines tag t n).fld f i = s.fld f i :=
  State.each_same _ _ (fun s => s.fld f i) fun s _ => State.fld_scdDrop hf s i _ _ tag

omit hf in
theorem State.fld_setScd (j : Nat) (c : Cache) : (s.setScd j c).fld f i = s.fld f i := rfl

omit hf in
theorem State.fld_setHif (x : HifSt) : State.fld { s with hif := x } f i = s.fld f i := rfl

theorem State.fld_scdTouch (tag : Option Nat) (t : Target) (w : Bool) : (s.scdTouch tag t w).fld f i = s.fld f i := by
  have hvictim : ∀ v : Option CLine,
      State.fld (match v with | some v => if v.dirty.isEmpty then s else s.lineBack tag v.addr | none => s) f i =
        s.fld f i := fun v => by
    split
    · split
      · rfl
      · exact State.fld_lineBack hf ..
    · rfl
  unfold State.scdTouch
  split
  · rfl
  · dsimp only
    split
    · split
      · rfl
      · rfl
    · rw [State.fld_setScd]
      split
      · exact ((State.fld_memBytes hf ..).trans (State.fld_heatTouch hf ..)).trans (hvictim _)
      · exact (State.fld_setHif ..).trans (hvictim _)

theorem State.fld_takeBad1 (t : Target) : (s.takeBad1 t).1.fld f i = s.fld f i := by
  unfold State.takeBad1
  split
  · rfl
  · dsimp only
    split
    · rw [State.fld_setFlds_ne]
      · exact State.fld_satFld_ne _ _ _ _ (ne_of_notMem_trafficFlds hf (by decide))
      · intro e he hfe
        subst hfe
        revert hf
        simp only [List.mem_cons, List.not_mem_nil, or_false] at he
        obtain rfl | rfl | rfl | rfl := he
        · simp [trafficFlds]
        · simp [trafficFlds]
        · simp [trafficFlds]
        · simp [trafficFlds]
    · split
      · rfl
      · rfl

theorem State.fld_takeBad (t : Target) (n : Nat) : (s.takeBad t n).1.fld f i = s.fld f i := by
  unfold State.takeBad
  refine List.foldlRecOn (motive := fun x : State × Bool => x.1.fld f i = s.fld f i) _ _ rfl fun x hx k _ => ?_
  exact (State.fld_takeBad1 hf ..).trans hx

/-! ### Translations -/

theorem State.fld_readPte (m d : Nat) : (s.readPte m d).2.fld f i = s.fld f i := by
  unfold State.readPte
  split
  · rfl
  · split
    · rfl
    · split
      · refine (State.fld_pmc _ _ _ _ _ _ (ne_of_notMem_trafficFlds hf (by decide))).trans ?_
        exact (State.fld_scdTouch hf ..).trans (State.fld_takeBad hf ..)
      · rfl
      · rfl
      · rfl

theorem State.fld_walkFrom (m asc va n table : Nat) :
    (State.walkFrom m asc va n s table).2.fld f i = s.fld f i := by
  induction n generalizing s table with
  | zero =>
    have hread := State.fld_readPte hf s i m (table + 8 * vaIndex va 0)
    unfold State.walkFrom
    split
    case h_1 e t ht => exact (congrArg (State.fld · f i) (congrArg Prod.snd ht)).symm.trans hread
    case h_2 e t ht =>
      have : t.fld f i = s.fld f i := (congrArg (State.fld · f i) (congrArg Prod.snd ht)).symm.trans hread
      split
      · exact this
      · split
        · exact this
        · exact this
  | succ n ih =>
    have hread := State.fld_readPte hf s i m (table + 8 * vaIndex va (n + 1))
    unfold State.walkFrom
    split
    case h_1 e t ht => exact (congrArg (State.fld · f i) (congrArg Prod.snd ht)).symm.trans hread
    case h_2 e t ht =>
      have : t.fld f i = s.fld f i := (congrArg (State.fld · f i) (congrArg Prod.snd ht)).symm.trans hread
      split
      · exact this
      · split
        · split
          · exact this
          · exact this
        · split
          · exact (ih ..).trans this
          · exact this

theorem State.fld_walk (m asc va : Nat) : (s.walk m asc va).2.fld f i = s.fld f i := by
  unfold State.walk
  dsimp only
  split
  · rfl
  · split
    · exact State.fld_walkFrom hf ..
    · exact State.fld_walkFrom hf ..

omit hf in
theorem State.fld_biSnoop (t : Target) (w : Bool) : (s.biSnoop t w).fld f i = s.fld f i := by
  unfold State.biSnoop
  split
  · split
    · rfl
    · rfl
  · rfl

theorem State.fld_translate (m asc va : Nat) : (s.translate m asc va).2.fld f i = s.fld f i := by
  have hwalk := State.fld_walk hf s i m asc va
  unfold State.translate
  split
  · rfl
  · split
    all_goals rename_i ht; rw [ht] at hwalk
    · exact hwalk
    · exact (State.fld_biSnoop ..).trans hwalk
    · exact hwalk

/-- R234 to R237: an access changes counters and records of errors, and no other field. -/
theorem State.fld_access (m asc va : Nat) (n : Need) : (s.access m asc va n).2.fld f i = s.fld f i := by
  have htr := State.fld_translate hf s i m asc va
  unfold State.access
  split
  all_goals rename_i ht; rw [ht] at htr
  · rw [apply_ite Prod.snd, ite_self]
    exact htr
  · exact htr

end

/-- A command of a packet that is taken acts on the state that the taking left. -/
theorem next_perform_taken {s s1 : State} {q seq : Nat} {kind : Pkt → Bool} {p : Pkt}
    (h : s.taken q seq kind = some (s1, p)) {go : State → Pkt → State} {t : State} (ht : go s1 p = t) :
    (.next (s.perform q seq kind go) : Out) = .next t :=
  congrArg Host.Outcome.next ((State.perform_taken h go).trans ht)

/-! ### INVALIDATE, part by part -/

section
variable {s s1 s2 : State} {p : Pkt} {q : Fin 4096} {seq : Nat}

/-- R275: one part of the range of an INVALIDATE, after the answer of the parts before it. -/
def State.invalPart (p : Pkt) (r : StepAns) (c : Nat × Nat) : StepAns :=
  match r with
  | .ok s =>
    (match s.access feMmu (s.fld .CFE_Q_CFG_asc p.q) c.1 .read with
      | (.error (.wait t), s) => .wait (s.biSnoop t false)
      | (.error f, s) => .fail s (stepCode f)
      | (.ok (.peer _ _), s) => .ok s
      | (.ok t, s) => .ok (s.dropLines p.tag t c.2))
  | r => r

theorem State.invalPkt_eq (s : State) (p : Pkt) : s.invalPkt p =
    ((spans (p.b 16 8 / 4096 + 2) (p.b 8 8) (p.b 16 8)).foldl (State.invalPart p) (.ok s)).finish p := rfl

theorem State.invalPart_fault {x : MFault} {c : Nat × Nat} (hx : ∀ t, x ≠ .wait t)
    (h : s.access feMmu (s.fld .CFE_Q_CFG_asc p.q) c.1 .read = (.error x, s2)) :
    State.invalPart p (.ok s) c = .fail s2 (stepCode x) := by
  unfold State.invalPart
  dsimp only
  rw [h]
  cases x with
  | wait t => exact absurd rfl (hx t)
  | translation => rfl
  | protection => rfl
  | farTier => rfl
  | ecc => rfl

theorem State.invalPart_peer {c : Nat × Nat} {k a : Nat}
    (h : s.access feMmu (s.fld .CFE_Q_CFG_asc p.q) c.1 .read = (.ok (.peer k a), s2)) :
    State.invalPart p (.ok s) c = .ok s2 := by
  unfold State.invalPart
  dsimp only
  rw [h]

theorem State.invalPart_lines {x : Target} {c : Nat × Nat} (hx : ∀ k a, x ≠ .peer k a)
    (h : s.access feMmu (s.fld .CFE_Q_CFG_asc p.q) c.1 .read = (.ok x, s2)) :
    State.invalPart p (.ok s) c = .ok (s2.dropLines p.tag x c.2) := by
  unfold State.invalPart
  dsimp only
  rw [h]
  cases x with
  | peer k a => exact absurd rfl (hx k a)
  | dev d => rfl
  | host d => rfl

/-- The parts after a failure do nothing. -/
theorem State.foldl_invalPart_fail (l : List (Nat × Nat)) (s : State) (c : Nat) :
    l.foldl (State.invalPart p) (.fail s c) = .fail s c :=
  List.foldl_fixed' (fun _ => rfl) l

/-- The queue's ASC, read anew at each part, is the one that the range began with: no part changes a queue's fields. -/
theorem State.foldl_invalPart_of_linesOut {l : List (Nat × Nat)}
    (h : State.linesOut (s.fld .CFE_Q_CFG_asc p.q) p.tag l s = some s2) :
    l.foldl (State.invalPart p) (.ok s) = .ok s2 := by
  have hq : Fld.CFE_Q_CFG_asc ∉ trafficFlds := by decide
  induction l generalizing s with
  | nil => exact congrArg StepAns.ok (Option.some.inj h)
  | cons c l ih =>
    have hacc := State.fld_access hq s p.q feMmu (s.fld .CFE_Q_CFG_asc p.q) c.1 .read
    unfold State.linesOut at h
    rw [List.foldl_cons]
    split at h
    case h_1 => exact absurd h nofun
    case h_2 k a t ha =>
      rw [ha] at hacc
      rw [State.invalPart_peer ha]
      exact ih (hacc.symm ▸ h)
    case h_3 x t hx ha =>
      rw [ha] at hacc
      rw [State.invalPart_lines hx ha]
      exact ih (((State.fld_dropLines hq t p.q p.tag x c.2).trans hacc).symm ▸ h)

theorem exec_invalidate_of_linesOut (h : s.taken q.val seq (isOp 0x0C) = some (s1, p))
    (hout : State.linesOut (s1.fld .CFE_Q_CFG_asc p.q) p.tag (spans (p.b 16 8 / 4096 + 2) (p.b 8 8) (p.b 16 8)) s1 =
      some s2)
    (howed : s2.owed p.q p.seq = false) : exec (.invalidate q seq) s = .next (s2.endPkt p 0) := by
  have hrun : exec (.invalidate q seq) s = .next (s1.invalPkt p) := next_perform_taken h rfl
  rw [hrun, State.invalPkt_eq, State.foldl_invalPart_of_linesOut hout, StepAns.finish, howed]
  rfl

theorem exec_invalidate_of_fault {x : MFault} (h : s.taken q.val seq (isOp 0x0C) = some (s1, p)) (hn : 0 < p.b 16 8)
    (hx : ∀ t, x ≠ .wait t) (ha : s1.access feMmu (s1.fld .CFE_Q_CFG_asc p.q) (p.b 8 8) .read = (.error x, s2)) :
    exec (.invalidate q seq) s = .next (s2.failPkt p (stepCode x) 0 []) := by
  have hrun : exec (.invalidate q seq) s = .next (s1.invalPkt p) := next_perform_taken h rfl
  rw [hrun, State.invalPkt_eq, spans, if_neg hn.ne', List.foldl_cons, State.invalPart_fault hx ha,
    State.foldl_invalPart_fail]
  rfl

end

/-! ### FE_WAIT, arriving at its word -/

section
variable {s s2 s3 : State} {p : Pkt}

/-- The access that the arrival of an FE_WAIT makes. -/
def State.feAccess (s : State) (p : Pkt) : Except MFault Target × State :=
  s.access feMmu (s.fld .CFE_Q_CFG_asc p.q) (p.b 8 8) (if p.b 16 1 == 1 then .write else .read)

variable (hpos : p.pos = 0) (hw : s.feWaits p = false)
include hpos hw

/-- R275, R308: an FE_WAIT by the answer of its access. -/
theorem State.fePkt_of_answer {a : Except MFault Target} (ha : s.feAccess p = (a, s2)) :
    (∀ h, a = .ok (.host h) → s.fePkt p = s2.failPkt p fcStepProtection 0 []) ∧
      (∀ t, a = .error (.wait t) → s.fePkt p = s2.biSnoop t false) ∧
      (∀ x, (∀ t, x ≠ .wait t) → a = .error x → s.fePkt p = s2.failPkt p (stepCode x) 0 []) ∧
      (∀ d s3 r, a = .ok (.dev d) → s2.biHeld (.dev d) true = false →
        s2.feArrive d (if p.b 16 1 == 1 then feWaitTake else feWaitPeek) 0 (.packet p.q p.seq) s2.now
          (s2.fld .CFE_Q_CFG_asc p.q) = (s3, r) →
        (r = .served → s.fePkt p = s3) ∧ (r = .waits → s.fePkt p = s3.feDstSnoop p) ∧
          (r = .notSync → s.fePkt p = s3.failPkt p fcStepProtection 0 [])) := by
  unfold State.feAccess at ha
  unfold State.fePkt
  rw [if_neg (by simp [hpos]), if_neg (by simp [hw])]
  dsimp only
  rw [ha]
  refine ⟨?host, ?held, ?fault, ?dev⟩
  case host =>
    rintro h rfl
    rfl
  case held =>
    rintro t rfl
    rfl
  case fault =>
    rintro x hx rfl
    cases x with
    | wait t => exact absurd rfl (hx t)
    | translation => rfl
    | protection => rfl
    | farTier => rfl
    | ecc => rfl
  case dev =>
    rintro d s3 r rfl hheld hr
    dsimp only
    rw [if_neg (by simp [hheld]), hr]
    refine ⟨?_, ?_, ?_⟩
    all_goals intro h; subst h; rfl

end

/-- R293, R363: the fence of another device. -/
theorem State.signalPkt_away {s : State} {p : Pkt} (hall : p.b 10 2 ≠ 0xFFFF)
    (hown : p.b 10 2 ≠ s.fld .FAB_ID_dev_id 0) :
    s.signalPkt p = (s.sendReq none (some p.acct) ftFenceSig
      { Frame.blank with
        dst := BitVec.ofNat 16 (p.b 10 2), addr := BitVec.ofNat 64 (p.b 8 2), data := natLe 8 (p.b 16 8) }
      (.fence p.q p.seq)).getD (s.failPkt p fcRemoteUnreachable 0 []) := by
  unfold State.signalPkt
  rw [if_neg (not_or.mpr ⟨hall, hown⟩)]
  dsimp only
  generalize s.sendReq _ _ _ _ _ = r
  cases r with
  | none => rfl
  | some t => rfl

theorem State.hintPkt_eq (s : State) (p : Pkt) :
    let r := State.hintPages (s.fld .CFE_Q_CFG_asc p.q) (p.b 24 1)
      ((List.range (p.b 16 8 / 65536)).map (fun i => p.b 8 8 + 65536 * i)) s
    s.hintPkt p = if r.2 then r.1.endPkt p 0 else r.1 := by
  intro r
  have hr : s.hintPkt p = (match r with | (s, true) => s.endPkt p 0 | (s, false) => s) := rfl
  rw [hr]
  obtain ⟨t, b⟩ := r
  cases b with
  | true => rfl
  | false => rfl

theorem State.stampPkt_first {s : State} {p : Pkt} (h : p.pos = 0) : s.stampPkt p =
    ((s.modPkt p.q p.seq (fun x => { x with pos := s.time.frac + 1 })).stepWrite p (p.b 8 8)
      (natLe 8 p.start ++ natLe 2 s.time.frac ++ natLe 6 0) true).finish p := by
  unfold State.stampPkt
  rw [if_pos h]
  dsimp only
  rw [if_pos h]

theorem State.stampPkt_again {s : State} {p : Pkt} (h : p.pos ≠ 0) : s.stampPkt p =
    (s.stepWrite p (p.b 8 8) (natLe 8 p.start ++ natLe 2 (p.pos - 1) ++ natLe 6 0) true).finish p := by
  unfold State.stampPkt
  rw [if_neg h]
  dsimp only
  rw [if_neg h]

/-- Settles O39: each packet, once taken, acts by its own function; INVALIDATE part by part, FE_WAIT by the answer of the
access. -/
theorem synchronisingPackets : Obligations.SynchronisingPackets := by
  refine ⟨fun q seq s s1 p => ⟨?signal, ?wait, ?membar, ?mark, ?stamp, ?nop, ?hint, ?inval⟩, ?feWait⟩
  case signal =>
    intro h
    refine ⟨fun hown => next_perform_taken h (if_pos hown), fun hall hown => ?_⟩
    exact next_perform_taken h (State.signalPkt_away hall hown)
  case wait => exact fun h => next_perform_taken h rfl
  case membar => exact fun h => next_perform_taken h rfl
  case mark => exact fun h => next_perform_taken h rfl
  case stamp =>
    intro h
    exact ⟨fun hpos => next_perform_taken h (State.stampPkt_first hpos),
      fun hpos => next_perform_taken h (State.stampPkt_again hpos)⟩
  case nop => exact fun h => next_perform_taken h rfl
  case hint => exact fun h => next_perform_taken h (State.hintPkt_eq s1 p)
  case inval =>
    intro h
    exact ⟨fun _ hout howed => exec_invalidate_of_linesOut h hout howed,
      fun _ _ hn hx ha => exec_invalidate_of_fault h hn hx ha⟩
  case feWait =>
    intro q seq s s1 p h hpos hw take asc s2 a ha
    obtain ⟨hhost, hheld, hfault, hdev⟩ := State.fePkt_of_answer hpos hw ha
    refine ⟨fun d e => next_perform_taken h (hhost d e), fun t e => next_perform_taken h (hheld t e),
      fun x hx e => ?fault, fun d s3 r e hfree hr => ?dev⟩
    case fault =>
      have hwait : ∀ t, x ≠ .wait t := by
        rintro t rfl
        simp at hx
      exact next_perform_taken h (hfault x hwait e)
    case dev =>
      obtain ⟨hserved, hwaits, hsync⟩ := hdev d s3 r e hfree hr
      exact ⟨fun e => next_perform_taken h (hserved e), fun e => next_perform_taken h (hwaits e),
        fun e => next_perform_taken h (hsync e)⟩

end Sys2Proof.Machine

/-!
PROOFS. The timeouts of steps (R298, R308, R370), the due completion record and its acknowledgements (R302 to R306).
-/

namespace Sys2Proof.Machine

/-! ### The least of a list -/

theorem minBy_eq_none {α : Type} {f : α → Nat} {l : List α} (h : minBy f l = none) : l = [] := by
  cases l with
  | nil => rfl
  | cons a t =>
    unfold minBy at h
    split at h
    · cases h
    · split at h
      · cases h
      · cases h

/-- `minBy` answers a member of the list that no member is below. -/
theorem minBy_least {α : Type} {f : α → Nat} {l : List α} {m : α} (h : minBy f l = some m) :
    m ∈ l ∧ ∀ x ∈ l, f m ≤ f x := by
  induction l generalizing m with
  | nil => cases h
  | cons a t ih =>
    unfold minBy at h
    split at h
    case h_1 hnone =>
      cases h
      simp [minBy_eq_none hnone]
    case h_2 b hsome =>
      obtain ⟨hmem, hleast⟩ := ih hsome
      split at h
      · rename_i hlt
        cases h
        exact ⟨.tail _ hmem, List.forall_mem_cons.mpr ⟨hlt.le, hleast⟩⟩
      · rename_i hge
        cases h
        exact ⟨.head _, List.forall_mem_cons.mpr ⟨le_rfl, fun x hx => (not_lt.mp hge).trans (hleast x hx)⟩⟩

section

variable {s s1 : State} {q seq : Nat}

/-! ### Timeouts of steps (R189, R298, R308, R311, R318, R370) -/

theorem State.waitOver_iff (p : Pkt) : s.waitOver p = true ↔ p.lim ≠ 0 ∧ p.start + p.lim ≤ s.now := by
  simp [State.waitOver]

theorem State.alive_of_ready (h : s.ready = true) : s.alive = true := (Bool.and_eq_true_iff.mp h).1

/-- R298: a FENCE_WAIT fails once its limit is over, and not before. -/
theorem exec_fenceWaitTimeout {q : Fin 4096} {p : Pkt} (hr : s.ready = true) (hp : s.pkt q.val seq = some p)
    (hw : p.waitsFence (p.b 8 2) = true) : exec (.fenceWaitTimeout q seq) s = .next (
      if s.waitOver p then s.failPkt p fcWaitTimeout 0
        [engineEntry 4 (p.b 8 2) (s.fld .CFE_FENCE_VALUE_value (p.b 8 2))] else s) := by
  have hexec : exec (.fenceWaitTimeout q seq) s = execFenceWaitTimeout q seq s := rfl
  rw [hexec, execFenceWaitTimeout, hp]
  dsimp only
  rw [hr, hw, Bool.true_and, Bool.true_and]

/-- R308: an FE_WAIT that waits is withdrawn, here or at the peer, and fails once its limit is over, and not before. -/
theorem exec_feWaitExpired {q : Fin 4096} {p : Pkt} (hr : s.ready = true) (hp : s.pkt q.val seq = some p)
    (hop : p.opcode = 0x06) (hst : p.st = .running) (hf : p.fault = 0) (hpos : p.pos = 0) :
    (s.waitOver p = false → exec (.feWaitExpired q seq) s = .next s) ∧
    (s.waitOver p = true →
      let away := fun (r : RemReq) => match r.svc with | .piece a b _ => a == p.q && b == p.seq | _ => false
      let s1 := s.feWithdraw (fun w => w.src == .packet p.q p.seq)
      exec (.feWaitExpired q seq) s = .next ((s1.each (s1.remote.filter away) State.withdrawRemote).failPkt p
        fcFeWaitExpired 0 [engineEntry 5 (b2n (s.waiters.any (fun w => w.src == .packet p.q p.seq && s.isFull w.word)))
          (p.b 8 8)])) := by
  have hexec : exec (.feWaitExpired q seq) s = execFeWaitExpired q seq s := rfl
  rw [hexec, execFeWaitExpired, hp]
  dsimp only
  refine ⟨fun hover => ?_, fun hover => ?_⟩
  · rw [if_pos (by simp [hover])]
  · rw [if_neg (by simp [hr, hop, hst, hf, hpos, hover])] <;> rfl

/-- R370: a collective step fails once its limit is over, and not before. -/
theorem exec_collTimeout {q : Fin 4096} {p : Pkt} {x : CollStep} (hr : s.ready = true) (hp : s.pkt q.val seq = some p)
    (hx : s.collOf q.val seq = some x) : exec (.collTimeout q seq) s =
      .next (if s.waitOver p then s.collFail q.val seq fcCollTimeout true else s) := by
  have hexec : exec (.collTimeout q seq) s = execCollTimeout q seq s := rfl
  rw [hexec, execCollTimeout, hx, hp]
  dsimp only
  rw [State.alive_of_ready hr, Bool.true_and]

/-- A packet that is found after a change of it is what the change makes of one of its key. -/
theorem State.pkt_modPkt {f : Pkt → Pkt} {x : Pkt} (h : (s.modPkt q seq f).pkt q seq = some x) :
    ∃ p ∈ s.pool, x = f p := by
  obtain ⟨hkey, hmem⟩ := List.find?_some h, List.mem_of_find?_eq_some h
  obtain ⟨p, hp, rfl⟩ := List.mem_map.mp hmem
  refine ⟨p, hp, ?_⟩
  by_cases hk : p.q = q ∧ p.seq = seq
  · rw [if_pos hk]
  · simp [if_neg hk] at hkey
    exact absurd hkey hk

/-- R189, R318: a packet starts with the time and the limit then in force. -/
theorem State.takePkt_start {p x : Pkt} {e : Nat} (h : (s.takePkt p e).pkt p.q p.seq = some x) :
    x.start = s.now ∧ x.lim = s.pktLim p := by
  obtain ⟨y, -, rfl⟩ := State.pkt_modPkt h
  exact ⟨rfl, rfl⟩

/-! ### Completion records (R302, R304, R306) -/

/-- R302: the due record is the queue's lowest `seq` at or below `done_seq`. -/
theorem State.nextRecord_due {d : DonePkt} (h : s.nextRecord q = some d) :
    d ∈ s.done ∧ d.q = q ∧ d.seq ≤ s.fld .CFE_Q_DONE_done_seq q ∧
      ∀ x ∈ s.done, x.q = q → x.seq ≤ s.fld .CFE_Q_DONE_done_seq q → d.seq ≤ x.seq := by
  obtain ⟨hmem, hleast⟩ := minBy_least h
  simp only [List.mem_filter, Bool.and_eq_true, beq_iff_eq, decide_eq_true_eq] at hmem hleast
  obtain ⟨hdone, hq, hseq⟩ := hmem
  exact ⟨hdone, hq, hseq, fun x hx hxq hxs => hleast x ⟨hx, hxq, hxs⟩⟩

theorem exec_completionRecordWrite {q : Fin 4096} (ha : s.alive = true) :
    (s.nextRecord q.val = none → exec (.completionRecordWrite q) s = .next s) ∧
    (∀ d, s.nextRecord q.val = some d → exec (.completionRecordWrite q) s =
      .next (State.writeRecord { s with done := s.done.erase d } d)) := by
  have hexec : exec (.completionRecordWrite q) s = .next (s.recordOut q.val) :=
    congrArg Host.Outcome.next (if_pos ha)
  rw [hexec]
  unfold State.recordOut
  refine ⟨fun h => ?_, fun d h => ?_⟩
  · rw [h]
  · rw [h]

theorem exec_recordWriteAck {q : Fin 4096} (ha : s.alive = true) :
    exec (.recordWriteAck q) s = .next (s.areaAcked q.val) := congrArg Host.Outcome.next (if_pos ha)

/-- R304: a record whose write on its way has been acknowledged. -/
def RecWrite.acked (a : RecWrite) : RecWrite := { a with sent := false }

/-- The oldest of a queue's writes replaced by another of that queue is its oldest again, and ended leaves the others. -/
theorem acks_replace_first {l : List RecWrite} {a b : RecWrite} (h : l.find? (fun a => a.q == q) = some a)
    (hb : b.q = q) :
    (l.replace a b).find? (fun a => a.q == q) = some b ∧ (l.replace a b).erase b = l.erase a := by
  induction l with
  | nil => cases h
  | cons x l ih =>
    by_cases hx : x.q = q
    · have hxa : x = a := by simpa [hx] using h
      subst hxa
      simp [hb]
    · have hne : x ≠ a := by
        rintro rfl
        exact hx (by simpa using List.find?_some h)
      have hxb : x ≠ b := fun e => hx (e ▸ hb)
      have hl : l.find? (fun a => a.q == q) = some a := by simpa [hx] using h
      obtain ⟨hfind, herase⟩ := ih hl
      have hrep : (x :: l).replace a b = x :: l.replace a b := by
        rw [List.replace_cons, beq_false_of_ne (Ne.symm hne)]
      rw [hrep]
      exact ⟨by simpa [hx] using hfind, by simp [hxb, hne, herase]⟩

/-- The turns that a queue's writes can take: at least one while a write is left. -/
theorem areaTurns_pos {l : List RecWrite} (h : l ≠ []) (n : Nat) :
    0 < l.foldl (fun n a => n + a.writes.length + 1) n := by
  have hge : ∀ (l : List RecWrite) n, n ≤ l.foldl (fun n a => n + a.writes.length + 1) n := fun l => by
    induction l with
    | nil => exact fun n => le_rfl
    | cons a l ih => exact fun n => (by omega : n ≤ n + a.writes.length + 1).trans (ih _)
  cases l with
  | nil => exact absurd rfl h
  | cons a l => exact Nat.lt_of_lt_of_le (Nat.succ_pos _) (hge l _)

theorem State.areaPump_idle (n : Nat) (h : s.acks.find? (fun a => a.q == q) = none) : State.areaPump n s q = s := by
  cases n with
  | zero => rfl
  | succ n => rw [State.areaPump, h]

/-- R304, R306: the pump's turn at a queue's oldest record, all of whose writes are done. -/
theorem State.areaPump_last {n : Nat} {a : RecWrite} (h : s.acks.find? (fun a => a.q == q) = some a)
    (hsent : a.sent = false) (hw : a.writes = []) : State.areaPump (n + 1) s q =
      State.areaPump n (if a.irq then (s.setAck a none).raiseQ q else s.setAck a none) q := by
  rw [State.areaPump, h]
  dsimp only
  rw [if_neg (by simp [hsent]), hw]

/-- R304: the pump's turn at a queue's oldest record: its next write goes. -/
theorem State.areaPump_sent {n : Nat} {a : RecWrite} {w : Nat × List Byte} {rest : List (Nat × List Byte)}
    (h : s.acks.find? (fun a => a.q == q) = some a) (hsent : a.sent = false) (hw : a.writes = w :: rest)
    (hout : s.areaOut a.host (a.base + w.1) w.2 = .sent s1) :
    State.areaPump (n + 1) s q = s1.setAck a (some { a with writes := rest, sent := true }) := by
  rw [State.areaPump, h]
  dsimp only
  rw [if_neg (by simp [hsent]), hw]
  dsimp only
  rw [hout]

theorem State.raiseQ_acks : (s.raiseQ q).acks = s.acks := by
  unfold State.raiseQ
  split
  · rfl
  · rfl

theorem State.alive_setAck (a : RecWrite) (b : Option RecWrite) : (s.setAck a b).alive = s.alive := rfl

/-- R304: the acknowledged write is over; the pump takes the queue's next turn. -/
theorem State.areaAcked_of_sent {a : RecWrite} (ha : s.alive = true) (h : s.acks.find? (fun a => a.q == q) = some a)
    (hsent : a.sent = true) :
    ∃ n, s.areaAcked q = State.areaPump (n + 1) (s.setAck a (some a.acked)) q := by
  have hq : a.q = q := by simpa using List.find?_some h
  obtain ⟨hfind, -⟩ := acks_replace_first (b := a.acked) h hq
  have hne : ((s.setAck a (some a.acked)).acks.filter (fun a => a.q == q)) ≠ [] :=
    List.ne_nil_of_mem (List.mem_filter.mpr ⟨List.mem_of_find?_eq_some hfind, beq_iff_eq.mpr hq⟩)
  obtain ⟨n, hn⟩ := Nat.exists_eq_succ_of_ne_zero (areaTurns_pos hne 0).ne'
  refine ⟨n, ?_⟩
  rw [State.areaAcked, h]
  dsimp only
  rw [if_pos hsent, State.areaNext, if_pos ((s.alive_setAck ..).trans ha)]
  exact congrArg (State.areaPump · (s.setAck a (some a.acked)) q) hn

/-- R304, R306: after the last acknowledgement the vector is raised where the record asks for it. -/
theorem State.areaAcked_last {a : RecWrite} (ha : s.alive = true) (h : s.acks.find? (fun a => a.q == q) = some a)
    (hsent : a.sent = true) (hw : a.writes = []) (hlast : ∀ b ∈ s.acks.erase a, b.q ≠ q) :
    s.areaAcked q =
      if a.irq then State.raiseQ { s with acks := s.acks.erase a } q else { s with acks := s.acks.erase a } := by
  have hq : a.q = q := by simpa using List.find?_some h
  obtain ⟨hfind, herase⟩ := acks_replace_first (b := a.acked) h hq
  have hends : (s.setAck a (some a.acked)).setAck a.acked none =
      { s with acks := s.acks.erase a } := congrArg (fun l => { s with acks := l }) herase
  have hnone : (s.acks.erase a).find? (fun a => a.q == q) = none := by simpa using hlast
  obtain ⟨n, hpump⟩ := State.areaAcked_of_sent ha h hsent
  rw [hpump, State.areaPump_last (s := s.setAck a (some a.acked)) hfind rfl hw, hends]
  refine State.areaPump_idle n ?_
  split
  · rw [State.raiseQ_acks]
    exact hnone
  · exact hnone

/-- R304: an acknowledgement lets the next write of the area go. -/
theorem State.areaAcked_next {a : RecWrite} {w : Nat × List Byte} {rest : List (Nat × List Byte)}
    (ha : s.alive = true)
    (h : s.acks.find? (fun a => a.q == q) = some a) (hsent : a.sent = true) (hw : a.writes = w :: rest)
    (hout : (s.setAck a (some a.acked)).areaOut a.host (a.base + w.1) w.2 = .sent s1) :
    s.areaAcked q = s1.setAck a.acked (some { a with writes := rest, sent := true }) := by
  have hq : a.q = q := by simpa using List.find?_some h
  obtain ⟨hfind, -⟩ := acks_replace_first (b := a.acked) h hq
  obtain ⟨n, hpump⟩ := State.areaAcked_of_sent ha h hsent
  rw [hpump, State.areaPump_sent (s := s.setAck a (some a.acked)) hfind rfl hw hout]
  rfl

end

/-- Settles O40: the timeouts by whether the limit is over, the records by the least due one, the acknowledgements by the
turns of the area's pump. -/
theorem stepsEnd : Obligations.StepsEnd := by
  refine ⟨?timeouts, ?limits, ?records⟩
  case timeouts =>
    intro q seq s p hr hp late
    have hlate : s.waitOver p = true ↔ late := State.waitOver_iff p
    have hearly : ¬ late → s.waitOver p = false := fun h => Bool.eq_false_iff.mpr (mt hlate.mp h)
    refine ⟨fun hw => ⟨fun h => ?_, fun h => ?_⟩, fun hop hst hf hpos => ?_,
      fun x hx => ⟨fun h => ?_, fun h => ?_⟩⟩
    · rw [exec_fenceWaitTimeout hr hp hw, if_pos (hlate.mpr h)]
    · rw [exec_fenceWaitTimeout hr hp hw, hearly h]
      rfl
    · obtain ⟨hstay, hfail⟩ := exec_feWaitExpired hr hp hop hst hf hpos
      exact ⟨fun h => hstay (hearly h), fun h => hfail (hlate.mpr h)⟩
    · rw [exec_collTimeout hr hp hx, if_pos (hlate.mpr h)]
    · rw [exec_collTimeout hr hp hx, hearly h]
      rfl
  case limits =>
    intro s p e x _ hx ms
    exact State.takePkt_start hx
  case records =>
    intro q s ha
    obtain ⟨hidle, hdue⟩ := exec_completionRecordWrite (q := q) ha
    refine ⟨hidle, fun d hd => ?_, fun h => ?_, fun a h hsent => ⟨fun hw hlast => ?_, ?_⟩⟩
    · obtain ⟨hmem, hq, hseq, hleast⟩ := State.nextRecord_due hd
      exact ⟨hmem, hq, hseq, hleast, hdue d hd⟩
    · rw [exec_recordWriteAck ha, State.areaAcked, h]
    · rw [exec_recordWriteAck ha, State.areaAcked_last ha h hsent hw hlast]
    · intro w rest s1 hw b hout
      rw [exec_recordWriteAck ha, State.areaAcked_next ha h hsent hw hout]
      rfl

end Sys2Proof.Machine

/-!
PROOFS. Frames that are cleared (R242, R248, R382), evacuations that end (R230, R426), and the controllers of the memory
sites and of the shared caches (R196, R212, R219 to R223, R233).
-/

namespace Sys2Proof.Machine

theorem mapGet_mapClear {α : Type} (d : α) (m : NMap α) (lo hi q : Nat) :
    mapGet d (mapClear m lo hi) q = if lo ≤ q ∧ q < hi then d else mapGet d m q := by
  unfold mapGet
  rw [mapFind_mapClear]
  split
  · rfl
  · rfl

section
variable {s : State}

/-! ### Frames cleared (R242, R248, R382) -/

/-- R242: a released frame off the lists of those to be cleared, its bytes and shadows 0, its bytes counted. -/
def State.zeroed (s : State) (k : Nat) : State :=
  let t : State := { s with
    unclean := s.unclean.filter (fun x => x != k), unslot := s.unslot.filter (fun x => x != k) }
  (t.clearFrame k).addFld .PLE_MIG_STAT_bytes 0 65536

theorem exec_frameZeroed_of_clean {loc frame : Nat} (h : loc * 2 ^ 26 + frame ∉ s.unclean) :
    exec (.frameZeroed loc frame) s = .next s := by
  have hnot : (!s.alive || !s.unclean.contains (loc * 2 ^ 26 + frame) || decide (frame ≥ 2 ^ 26)) = true := by
    simp [h, -Nat.reducePow]
  exact congrArg Host.Outcome.next (if_pos hnot)

theorem exec_frameZeroed_of_unclean {loc frame : Nat} (ha : s.alive = true) (h : loc * 2 ^ 26 + frame ∈ s.unclean)
    (hf : frame < 2 ^ 26) :
    exec (.frameZeroed loc frame) s = .next ((s.zeroed (loc * 2 ^ 26 + frame)).pairStart (loc * 2 ^ 26 + frame)) := by
  have hgo : ¬ (!s.alive || !s.unclean.contains (loc * 2 ^ 26 + frame) || decide (frame ≥ 2 ^ 26)) = true := by
    simp [ha, h, Nat.not_le.mpr hf, -Nat.reducePow]
  exact congrArg Host.Outcome.next (if_neg hgo)

theorem State.notMem_zeroed_unclean (k : Nat) : k ∉ (s.zeroed k).unclean := by
  have h : (s.zeroed k).unclean = s.unclean.filter (fun x => x != k) := rfl
  rw [h]
  simp

theorem State.zeroed_pairs (k : Nat) : (s.zeroed k).pairs = s.pairs := by
  rw [State.zeroed, State.addFld_pairs]
  rfl

theorem State.mem_zeroed (k a : Nat) : mapGet 0 (s.zeroed k).mem a =
    if k * 65536 ≤ a ∧ a < k * 65536 + 65536 then 0 else mapGet 0 s.mem a := mapGet_mapClear 0 s.mem _ _ a

theorem State.check_zeroed (k a : Nat) : mapGet 0 (s.zeroed k).check a =
    if 16 * k ≤ a ∧ a < 16 * k + 16 then 0 else mapGet 0 s.check a := mapGet_mapClear 0 s.check _ _ a

theorem State.full_zeroed (k a : Nat) : mapGet 0 (s.zeroed k).full a =
    if 8192 * k ≤ a ∧ a < 8192 * k + 8192 then 0 else mapGet 0 s.full a := mapGet_mapClear 0 s.full _ _ a

/-- R248: a frame that no promotion into headroom left starts no demotion. -/
theorem State.pairStart_of_unpaired {k : Nat} (h : ∀ x ∈ s.pairs, x.1 ≠ k) : s.pairStart k = s := by
  have hnone : s.pairs.find? (fun x => x.1 == k) = none := by
    rw [List.find?_eq_none]
    intro x hx
    simpa using h x hx
  rw [State.pairStart, hnone]

theorem State.pairStart_zeroed {k : Nat} (h : ∀ x ∈ s.pairs, x.1 ≠ k) : (s.zeroed k).pairStart k = s.zeroed k :=
  State.pairStart_of_unpaired (by rwa [State.zeroed_pairs])

theorem exec_farTierClear {p : Fin 4} (hr : s.ready = true) (hst : s.fld .FTP_STATUS_state p.val = ftpOnline)
    (hp : p.val ∉ s.farClear) :
    exec (.farTierClear p) s = .next { s.clearLoc (12 + p.val) with farClear := p.val :: s.farClear } := by
  have hgo : ¬ (!s.ready || s.fld .FTP_STATUS_state p.val != ftpOnline || s.farClear.contains p.val) = true := by
    simp [hr, hst, hp]
  exact congrArg Host.Outcome.next (if_neg hgo)

theorem State.mem_clearLoc {l a : Nat} (hlo : l * 2 ^ 26 * 65536 ≤ a) (hhi : a < (l + 1) * 2 ^ 26 * 65536) :
    mapGet 0 (s.clearLoc l).mem a = 0 := (mapGet_mapClear 0 s.mem _ _ a).trans (if_pos ⟨hlo, hhi⟩)

/-! ### Evacuations that end (R230, R426) -/

/-- The end of a unit's action is in RAS_PRESET_STATUS alone. -/
theorem State.presetEnd_only (kind i : Nat) (f : Fld) (v : Nat) :
    s.presetEnd kind i f v = { s with regs := (s.presetEnd kind i f v).regs } := by
  unfold State.presetEnd
  split
  · rfl
  · rfl

theorem State.fld_presetEnd_ne {kind i v j : Nat} {f g : Fld} (hbusy : g ≠ .RAS_PRESET_STATUS_busy) (hf : g ≠ f) :
    (s.presetEnd kind i f v).fld g j = s.fld g j := by
  unfold State.presetEnd
  split
  · rw [State.fld_setFld_ne _ _ _ _ hf, State.fld_setFld_ne _ _ _ _ hbusy]
  · rfl

/-- R230: the fields of a port that goes OFFLINE once it is evacuated. -/
def offlineFlds : List (Fld × Nat) :=
  [(.FTP_STATUS_state, ftpOffline), (.FTP_CTL_offline_req, 0), (.FTP_STATUS_evac_failed, 0), (.FTP_STATUS_lanes, 0),
    (.FTP_STATUS_flit256, 0), (.FTP_STATUS_gts, 0)]

/-- R230: an evacuated port OFFLINE, with a new epoch. -/
def State.portLeft (s : State) (p : Fin 4) : State :=
  ((({ s with evac := s.evac.erase (.port p) } : State).bumpEpoch (unitFar p.val)).setFlds p.val
    offlineFlds).presetEnd 1 p.val .RAS_PRESET_STATUS_evac_failed 0

theorem exec_evacuationComplete_port {p : Fin 4} (ha : s.alive = true) (he : s.evac.contains (.port p) = true)
    (hp : s.pagesAt (12 + p.val) = 0) (hm : s.migs.any (fun m => m.loc == 12 + p.val) = false) :
    exec (.evacuationComplete (.port p)) s = .next (s.portLeft p) := by
  have hgo : ¬ (!s.alive || !s.evac.contains (.port p)) = true := by simp only [ha, he]; decide
  have hempty : s.pagesAt (12 + p.val) = 0 ∧ (!s.migs.any (fun m => m.loc == 12 + p.val)) = true := ⟨hp, by simp [hm]⟩
  exact congrArg Host.Outcome.next ((if_neg hgo).trans (if_pos hempty))

theorem State.fld_portLeft {p : Fin 4} {f : Fld} {v : Nat} (h : (f, v) ∈ offlineFlds) :
    (s.portLeft p).fld f p.val = v := by
  have hall : ∀ e ∈ offlineFlds, e.1 ≠ .RAS_PRESET_STATUS_busy ∧ e.1 ≠ .RAS_PRESET_STATUS_evac_failed ∧
      e.2 % 2 ^ e.1.desc.width = e.2 := by decide
  obtain ⟨hbusy, hfailed, hfits⟩ := hall _ h
  rw [State.portLeft, State.fld_presetEnd_ne hbusy hfailed, State.fld_setFlds_of_mem (by decide) h]
  exact hfits

theorem State.evac_portLeft (p : Fin 4) : (s.portLeft p).evac = s.evac.erase (.port p) := by
  rw [State.portLeft, State.presetEnd_only, State.setFlds_only]
  rfl

theorem exec_evacuationComplete_stuck {i : Fin 12} (ha : s.alive = true) (he : s.evac.contains (.site i) = true)
    (hp : s.pagesAt i.val ≠ 0)
    (hstuck : s.loct.any (fun e => e.2.on i.val && e.2.state == .resident && (s.evacDest e.1 e.2).isNone) = true) :
    exec (.evacuationComplete (.site i)) s =
      .next (({ s with evac := s.evac.erase (.site i) }).presetEnd 0 i.val .RAS_PRESET_STATUS_evac_failed 1) := by
  have hgo : ¬ (!s.alive || !s.evac.contains (.site i)) = true := by simp only [ha, he]; decide
  exact congrArg Host.Outcome.next ((if_neg hgo).trans ((if_neg hp).trans (if_pos hstuck)))

/-! ### Refresh, retraining, temperature (R219, R221, R425) -/

/-- R219: one more refresh of a bank. -/
def State.bankRefreshed (s : State) (k : Nat) : State :=
  { s with refresh := mapSet 0 s.refresh k (mapGet 0 s.refresh k + 1) }

theorem State.refresh_bankRefreshed (k : Nat) :
    mapGet 0 (s.bankRefreshed k).refresh k = mapGet 0 s.refresh k + 1 := 
  mapGet_mapSet_self 0 s.refresh k (mapGet 0 s.refresh k + 1)

theorem exec_refresh {site : Fin 12} {ch : Fin 4} {die bank : Nat} (ha : s.alive = true)
    (hup : s.locUp site.val = true) : exec (.refresh site ch die bank) s =
      .next (s.bankRefreshed ((site.val * 4 + ch.val) * 64 + die % 4 * 16 + bank % 16)) := by
  have hgo : (s.alive && s.locUp site.val) = true := by simp [ha, hup]
  exact congrArg Host.Outcome.next (if_pos hgo)

theorem exec_retrain_ok {site : Fin 12} {ch die : Fin 4} : exec (.retrain site ch die true) s = .next s := by
  refine congrArg Host.Outcome.next ?_
  split
  · rfl
  · rfl

theorem exec_retrain_failed {site : Fin 12} {ch die : Fin 4} (ha : s.alive = true) (hup : s.locUp site.val = true)
    (hch : (s.fld .MEM_SITE_STATUS_chan_ok site.val).testBit ch.val = true) :
    exec (.retrain site ch die false) s = .next ((s.setFld .MEM_SITE_STATUS_chan_ok site.val
      (s.fld .MEM_SITE_STATUS_chan_ok site.val - 2 ^ ch.val)).siteFail site.val) := by
  have hgo : ¬ (!s.alive || !s.locUp site.val) = true := by simp [ha, hup]
  refine congrArg Host.Outcome.next ((if_neg hgo).trans ?_)
  dsimp only
  rw [if_neg Bool.false_ne_true, if_pos hch]

/-- R219: a die's temperature kept, and whether it is hot. -/
def State.dieReads (s : State) (k : Nat) (c : Int) : State :=
  { s with
    dieTemp := mapSet 0 s.dieTemp k c
    hotDies := if decide (c > (s.fld .CFG_MEMORY_refresh_hot_c 0 : Int)) then
      (if s.hotDies.contains k then s.hotDies else k :: s.hotDies) else s.hotDies.erase k }

/-- A reading is kept for its die; the site then shows its highest. -/
theorem exec_temperatureReading {site : Fin 12} {ch die : Fin 4} (c : Int) (ha : s.alive = true)
    (hup : s.locUp site.val = true) : ∃ top, exec (.temperatureReading site ch die c) s =
      .next ((s.dieReads (site.val * 16 + ch.val * 4 + die.val) c).setFld .MEM_SITE_STATUS_temp_c site.val top) := by
  have hgo : ¬ (!s.alive || !s.locUp site.val) = true := by simp [ha, hup]
  exact ⟨_, congrArg Host.Outcome.next (if_neg hgo)⟩

theorem State.mem_hotDies_dieReads {k : Nat} {c : Int} (h : (s.fld .CFG_MEMORY_refresh_hot_c 0 : Int) < c) :
    k ∈ (s.dieReads k c).hotDies := by
  rw [State.dieReads, if_pos (decide_eq_true h)]
  by_cases hk : s.hotDies.contains k = true
  · rw [if_pos hk]
    exact List.contains_iff_mem.mp hk
  · rw [if_neg hk]
    exact List.mem_cons_self

theorem State.hotDies_dieReads_cool {k : Nat} {c : Int} (h : c ≤ (s.fld .CFG_MEMORY_refresh_hot_c 0 : Int)) :
    (s.dieReads k c).hotDies = s.hotDies.erase k := by
  have hcool : ¬ decide (c > (s.fld .CFG_MEMORY_refresh_hot_c 0 : Int)) = true := by simpa using h
  exact if_neg hcool

/-! ### Patrol (R222, R223, R233) -/

/-- The fields that say what a site last found uncorrectable (R222). -/
def siteErrFlds (addr crc patrol : Nat) : List (Fld × Nat) :=
  [(.MEM_SITE_ERR_ADDR_addr, addr), (.MEM_SITE_ERR_ADDR_crc, crc), (.MEM_SITE_ERR_ADDR_patrol, patrol),
    (.MEM_SITE_ERR_ADDR_valid, 1)]

/-- R222: an uncorrectable patrol read counted and recorded. -/
def State.patrolBad (s : State) (i addr : Nat) : State :=
  (s.satFld .MEM_SITE_ERR_uncorrectable i 1).setFlds i (siteErrFlds addr 0 1)

theorem State.siteRead_patrol_uncorrectable (i addr lim : Nat) :
    s.siteRead i addr true lim .uncorrectable = (s.patrolBad i addr, true) := by rw [State.siteRead]; rfl

@[simp] theorem State.patrolBad_mem (i addr : Nat) : (s.patrolBad i addr).mem = s.mem := by simp [State.patrolBad]

/-- A fatal stop leaves the registers outside its record, `boot_state` and `stopFlds`. -/
theorem State.fld_fatalStop_other {code die j : Nat} {g : Fld} (hstop : g ∉ stopFlds)
    (hboot : g ≠ .HIF_PROMPT_STATE_boot_state) (hrec : ∀ e ∈ fatalRecord code die s.now, e.1 ≠ g) :
    (s.fatalStop code die).fld g j = s.fld g j := by
  by_cases h : s.fld .HIF_PROMPT_STATE_boot_state 0 = 0xA
  · rw [State.fatalStop_of_stopped h]
  · rw [State.fld_fatalStop j h hstop, State.fld_stopMark, State.fld_setBoot_ne _ _ hboot,
      State.fld_setFlds_ne _ _ _ _ hrec]

/-- The record of an uncorrectable read outlasts the fatal stop that it may cause (R430). -/
theorem State.fld_fatalStop_siteErr {code die j addr crc patrol v : Nat} {f : Fld}
    (h : (f, v) ∈ siteErrFlds addr crc patrol) : (s.fatalStop code die).fld f j = s.fld f j := by
  have hall : ∀ g ∈ (siteErrFlds addr crc patrol).map Prod.fst, g ∉ stopFlds ∧ g ≠ .HIF_PROMPT_STATE_boot_state ∧
      ∀ e ∈ fatalRecord code die s.now, e.1 ≠ g := by simp [siteErrFlds, stopFlds, fatalRecord]
  obtain ⟨hstop, hboot, hrec⟩ := hall f (List.mem_map.mpr ⟨_, h, rfl⟩)
  exact State.fld_fatalStop_other hstop hboot hrec

/-- R430: a lost line of the location table either is a fatal stop or changes nothing. -/
theorem State.tableLost_cases (i addr : Nat) :
    s.tableLost i addr = s ∨ s.tableLost i addr = s.fatalStop 0x0203 (24 + i / 3) := by
  unfold State.tableLost
  dsimp only
  split
  · exact .inr rfl
  · exact .inl rfl

/-- R223, R430: what becomes of a line that a patrol read: after an uncorrectable read the line stays so, and may be the
last copy of the location table's. -/
def State.patrolled (i addr : Nat) (r : State × Bool) : State :=
  let k := (i * 2 ^ 42 + addr) / 128
  if r.2 && r.1.locUp i && decide (addr < siteFrame 1045504) && !r.1.badLines.contains k then
    ({ r.1 with badLines := r.1.badLines ++ [k] } : State).tableLost i addr
  else r.1

theorem State.patrolled_good {i addr : Nat} (t : State) : State.patrolled i addr (t, false) = t :=
  rfl

/-- A patrol read changes what its controller reported in the known bad lines alone, but for a fatal stop. -/
theorem State.patrolled_cases (i addr : Nat) (r : State × Bool) : ∃ bad,
    State.patrolled i addr r = { r.1 with badLines := bad } ∨
    State.patrolled i addr r = State.fatalStop { r.1 with badLines := bad } 0x0203 (24 + i / 3) := by
  unfold State.patrolled
  dsimp only
  split
  · exact ⟨_, State.tableLost_cases i addr⟩
  · exact ⟨r.1.badLines, .inl rfl⟩

theorem State.patrolled_mem {i addr : Nat} (r : State × Bool) : (State.patrolled i addr r).mem = r.1.mem := by
  obtain ⟨bad, h | h⟩ := State.patrolled_cases i addr r
  · rw [h]
  · rw [h, State.fatalStop_mem]

theorem State.fld_patrolled_siteErr {i addr a crc patrol v j : Nat} {f : Fld} (r : State × Bool)
    (hf : (f, v) ∈ siteErrFlds a crc patrol) : (State.patrolled i addr r).fld f j = r.1.fld f j := by
  obtain ⟨bad, h | h⟩ := State.patrolled_cases i addr r
  · rw [h]
    rfl
  · rw [h, State.fld_fatalStop_siteErr hf]
    rfl

/-- R223: an uncorrectable patrol read is recorded with its address. -/
theorem State.fld_patrolled_bad {i addr v : Nat} {f : Fld} (hf : (f, v) ∈ siteErrFlds addr 0 1) :
    (State.patrolled i addr (s.patrolBad i addr, true)).fld f i = v % 2 ^ f.desc.width := by
  rw [State.fld_patrolled_siteErr _ hf]
  exact State.fld_setFlds_of_mem (by simp [siteErrFlds]) hf

section
variable {site : Fin 12} {addr : Nat}

/-- The period of the patrol of a read's channel (R233). -/
def State.patrolPeriod (s : State) (site : Fin 12) (addr : Nat) : Nat :=
  passPeriod s.patrolPer s.patrolAt (4 * site.val + (locate addr).ch) addr (s.fld .CFG_MEMORY_patrol_period_h 0)

/-- A patrol read that the period admits, noted. -/
def State.patrolNoted (s : State) (site : Fin 12) (addr : Nat) : State :=
  { s with
    patrolPer := mapSet 0 s.patrolPer (4 * site.val + (locate addr).ch) (s.patrolPeriod site addr)
    patrolAt := mapSet 0 s.patrolAt (4 * site.val + (locate addr).ch) addr }

theorem exec_patrol (ha : s.alive = true) (hup : s.locUp site.val = true) (haddr : addr < 2 ^ 36) (a : ReadOutcome) :
    exec (.patrol site addr a) s = .next (
      if s.patrolPeriod site addr = 0 then
        { s with patrolPer := mapSet 0 s.patrolPer (4 * site.val + (locate addr).ch) (s.patrolPeriod site addr) }
      else State.patrolled site.val addr
        ((s.patrolNoted site addr).siteRead site.val addr true (s.fld .CFG_MEMORY_crc_retry_limit 0) a)) := by
  have hgo : ¬ (!s.alive || !s.locUp site.val || decide (addr ≥ 2 ^ 36)) = true := by
    simp [ha, hup, Nat.not_le.mpr haddr, -Nat.reducePow]
  exact congrArg Host.Outcome.next (if_neg hgo)

theorem exec_patrol_off (ha : s.alive = true) (hup : s.locUp site.val = true) (haddr : addr < 2 ^ 36)
    (hper : s.patrolPeriod site addr = 0) (a : ReadOutcome) : exec (.patrol site addr a) s =
      .next { s with patrolPer := mapSet 0 s.patrolPer (4 * site.val + (locate addr).ch) 0 } := by
  rw [exec_patrol ha hup haddr, if_pos hper, hper]

theorem exec_patrol_on (ha : s.alive = true) (hup : s.locUp site.val = true) (haddr : addr < 2 ^ 36)
    (hper : s.patrolPeriod site addr ≠ 0) (a : ReadOutcome) : exec (.patrol site addr a) s =
      .next (State.patrolled site.val addr
        ((s.patrolNoted site addr).siteRead site.val addr true (s.fld .CFG_MEMORY_crc_retry_limit 0) a)) := by
  rw [exec_patrol ha hup haddr, if_neg hper]

end

/-! ### Scrubs (R196, R212) -/

section
variable {j : Fin 2} {line : Nat} {x : Nat × CLine}

/-- The period of the scrub of a shared cache (R212). -/
def State.scrubPeriod (s : State) (j line : Nat) : Nat :=
  passPeriod s.scrubPer s.scrubAt j line (s.fld .RAS_SCD_STATUS_scrub_period_h j)

/-- The period of a scrub kept for the pass under way. -/
def State.scrubPaced (s : State) (j line : Nat) : State :=
  { s with scrubPer := mapSet 0 s.scrubPer j (s.scrubPeriod j line) }

/-- A scrub that the period admits, noted. -/
def State.scrubNoted (s : State) (j line : Nat) : State :=
  { s with scrubAt := mapSet 0 s.scrubAt j line }

/-- What a scrub does with the line that it finds (R196). -/
def State.scrubbed (s : State) (j key : Nat) (l : CLine) (e : ScrubFinding) : State :=
  let gone := fun (s : State) => s.setScd j { s.scd j with lines := mapErase (s.scd j).lines key }
  match e with
  | .clean => s
  | .correctable => s.satFld .RAS_SCD_ECC_corrected j 1
  | .uncorrectable =>
    if l.dirty.isEmpty then (gone s).satFld .RAS_SCD_ECC_refetched j 1 else s.fatalStop 0x0202 (28 + j)
  | .tagParity =>
    let s := s.satFld .RAS_SCD_ECC_tag_parity j 1
    if l.dirty.isEmpty then gone s else s.fatalStop 0x0202 (28 + j)

/-- A scrub of a line, where the cache holds it and the period `per` admits it. -/
def State.scrubLine (s : State) (j line per : Nat) (e : ScrubFinding) : State :=
  match (s.scd j).lines.find? (fun x => x.2.addr == line) with
  | none => s
  | some (key, l) => if !s.alive || per == 0 then s else (s.scrubNoted j line).scrubbed j key l e

theorem State.scrubLine_of_found {j line : Nat} {x : Nat × CLine} (per : Nat) (e : ScrubFinding) (ha : s.alive = true)
    (hx : (s.scd j).lines.find? (fun y => y.2.addr == line) = some x) :
    s.scrubLine j line per e = if per = 0 then s else (s.scrubNoted j line).scrubbed j x.1 x.2 e := by
  simp only [State.scrubLine, hx, ha, Bool.not_true, Bool.false_or, beq_iff_eq]

theorem exec_scrub_eq (e : ScrubFinding) (s : State) : exec (.scrub j line e) s =
    .next ((if s.alive then s.scrubPaced j.val line else s).scrubLine j.val line (s.scrubPeriod j.val line) e) := rfl

theorem exec_scrub (e : ScrubFinding) (ha : s.alive = true)
    (hx : (s.scd j.val).lines.find? (fun y => y.2.addr == line) = some x) :
    exec (.scrub j line e) s = .next (
      if s.scrubPeriod j.val line = 0 then s.scrubPaced j.val line
      else ((s.scrubPaced j.val line).scrubNoted j.val line).scrubbed j.val x.1 x.2 e) := by
  have hfound : ((s.scrubPaced j.val line).scd j.val).lines.find? (fun y => y.2.addr == line) = some x := hx
  have hlive : (s.scrubPaced j.val line).alive = true := ha
  rw [exec_scrub_eq, if_pos ha, State.scrubLine_of_found _ e hlive hfound]

theorem exec_scrub_off (e : ScrubFinding) (ha : s.alive = true)
    (hx : (s.scd j.val).lines.find? (fun y => y.2.addr == line) = some x) (hper : s.scrubPeriod j.val line = 0) :
    exec (.scrub j line e) s = .next { s with scrubPer := mapSet 0 s.scrubPer j.val 0 } := by
  rw [exec_scrub e ha hx, if_pos hper, State.scrubPaced, hper]

theorem exec_scrub_on (e : ScrubFinding) (ha : s.alive = true)
    (hx : (s.scd j.val).lines.find? (fun y => y.2.addr == line) = some x) (hper : s.scrubPeriod j.val line ≠ 0) :
    exec (.scrub j line e) s = .next (((s.scrubPaced j.val line).scrubNoted j.val line).scrubbed j.val x.1 x.2 e) := by
  rw [exec_scrub e ha hx, if_neg hper]

/-- R196: an uncorrectable error in a line with dirty bytes is a fatal stop. -/
theorem State.scrubbed_dirty {key : Nat} {l : CLine} (h : l.dirty ≠ []) (j : Nat) :
    s.scrubbed j key l .uncorrectable = s.fatalStop 0x0202 (28 + j) :=
  if_neg (mt List.isEmpty_iff.mp h)

end
end

/-- Settles O31: each unit's command by what it does there; the records of an uncorrectable patrol read outlast the
fatal stop that a lost line of the location table causes. -/
theorem memoryUnits : Obligations.MemoryUnits := by
  refine ⟨⟨?zeroed, ?farClear, ?portLeft, ?stuck⟩, ?refresh, ?retrain, ?patrol, ?scrub, ?temperature⟩
  case zeroed =>
    intro loc frame s ha k
    refine ⟨exec_frameZeroed_of_clean, fun hk hf => ⟨s.zeroed k, exec_frameZeroed_of_unclean ha hk hf,
      State.notMem_zeroed_unclean k, State.zeroed_pairs k, State.pairStart_zeroed, fun a hlo hhi => ?_,
      fun a hout => ?_, fun i hi => ?_, fun i hi => ?_⟩⟩
    · rw [State.mem_zeroed, if_pos ⟨hlo, hhi⟩]
    · rw [State.mem_zeroed, if_neg (by omega)]
    · rw [State.check_zeroed, if_pos (by omega)]
    · rw [State.full_zeroed, if_pos (by omega)]
  case farClear =>
    intro p s hr hst hp
    refine ⟨_, exec_farTierClear hr hst hp, rfl, fun a hlo hhi => State.mem_clearLoc hlo ?_⟩
    rwa [Nat.add_right_comm]
  case portLeft =>
    intro p s ha he hp hm
    refine ⟨_, exec_evacuationComplete_port ha he hp hm, ?_, ?_, ?_, ?_, ?_, ?_, State.evac_portLeft p⟩
    all_goals exact State.fld_portLeft (by simp [offlineFlds])
  case stuck =>
    intro i s ha he hp hstuck
    exact exec_evacuationComplete_stuck ha he hp hstuck
  case refresh =>
    intro site ch die bank s ha hup k
    exact ⟨_, exec_refresh ha hup, State.refresh_bankRefreshed k, rfl⟩
  case retrain =>
    intro site ch die s ha hup m
    exact ⟨exec_retrain_ok, exec_retrain_failed ha hup⟩
  case patrol =>
    intro site addr a s ha hup haddr ch per s1
    refine ⟨fun hper => exec_patrol_off ha hup haddr hper a, fun hper => ?_⟩
    have hon := exec_patrol_on ha hup haddr hper
    refine ⟨?clean, ?corrected, ?bad⟩
    case clean =>
      rintro rfl
      rw [hon, State.siteRead, State.patrolled_good]
      rfl
    case corrected =>
      rintro rfl
      rw [hon, State.siteRead, State.patrolled_good]
      rfl
    case bad =>
      rintro rfl
      refine ⟨_, hon _, ?_⟩
      rw [State.siteRead_patrol_uncorrectable]
      refine ⟨State.fld_patrolled_bad (v := 1) (by simp [siteErrFlds]),
        State.fld_patrolled_bad (v := 1) (by simp [siteErrFlds]),
        State.fld_patrolled_bad (by simp [siteErrFlds]), ?_⟩
      rw [State.patrolled_mem, State.patrolBad_mem]
      rfl
  case scrub =>
    intro j line e s x ha hx per s1
    refine ⟨fun hper => exec_scrub_off e ha hx hper, fun hper => ?_⟩
    have hon := exec_scrub_on e ha hx hper
    refine ⟨?clean, ?correctable, ?uncorrectable⟩
    case clean =>
      rintro rfl
      exact hon
    case correctable =>
      rintro rfl
      exact hon
    case uncorrectable =>
      rintro rfl hd
      rw [hon, State.scrubbed_dirty hd]
      rfl
  case temperature =>
    intro site ch die c s ha hup k
    obtain ⟨top, htop⟩ := exec_temperatureReading (ch := ch) (die := die) c ha hup
    exact ⟨_, htop, mapGet_mapSet_self _ _ _ _, State.mem_hotDies_dieReads, State.hotDies_dieReads_cool, rfl⟩

end Sys2Proof.Machine

/-!
PROOFS. LAUNCH, COPY and FILL once taken (R204, R274, R282, R283), and the pieces of a copy engine's step (R153, R211,
R275, R282, R287).
-/

namespace Sys2Proof.Machine

section
variable {s s1 : State} {p : Pkt} {q : Fin 4096} {seq : Nat}

/-! ### LAUNCH (R204, R274, R283) -/

/-- The kernel epoch after `e`: 24 bits, never 0 (R204). -/
def nextEpoch (e : Nat) : Nat := if (e + 1) % 2 ^ 24 = 0 then 1 else (e + 1) % 2 ^ 24

theorem nextEpoch_ne_zero (e : Nat) : nextEpoch e ≠ 0 := by
  unfold nextEpoch
  split
  · exact Nat.one_ne_zero
  · assumption

theorem nextEpoch_of_lt {e : Nat} (h : e + 1 < 2 ^ 24) : nextEpoch e = e + 1 := by
  rw [nextEpoch, Nat.mod_eq_of_lt h, if_neg (Nat.succ_ne_zero e)]

/-- R274, R283: the kernel that a LAUNCH admits. -/
def State.newKernel (s : State) (p : Pkt) : Kernel :=
  { id := s.nextKern, q := p.q, seq := p.seq, asc := s.fld .CFE_Q_CFG_asc p.q, acct := p.acct
    epoch := nextEpoch s.kepoch, priv := s.flag .CFE_Q_CFG_kernel p.q, prio := s.fld .CFE_Q_CFG_prio p.q
    budget := if s.fld .CFE_Q_BUDGET_budget_ms p.q = 0xFFFFFFFF then s.fld .CFE_SCHED_CFG_budget_default_ms 0
      else s.fld .CFE_Q_BUDGET_budget_ms p.q
    entry := p.b 8 8, args := p.b 16 8, gx := p.b 24 4, gy := p.b 28 2, gz := p.b 30 2, groups := p.b 32 1
    pages := p.b 33 1, tile := p.b 34 1 % 2 == 1, aEntry := p.b 40 8, xEntry := p.b 48 8, affin := p.b 56 8
    share := none, next := 0, retired := 0, due := s.now, passed := none, first := none, code := 0
    aborted := false, short := false, lost := false, cells := [] }

theorem exec_launch (h : s.taken q.val seq (isOp 0x01) = some (s1, p))
    (hnew : s1.kernels.any (fun k => k.q == p.q && k.seq == p.seq) = false) :
    exec (.launch q seq) s = .next { s1 with
      kernels := s1.kernels ++ [s1.newKernel p], nextKern := s1.nextKern + 1, kepoch := nextEpoch s1.kepoch } :=
  next_perform_taken h (if_neg (Bool.eq_false_iff.mp hnew))

/-! ### COPY and FILL given to their engine (R282) -/

/-- A step put behind those of its copy engine. -/
def State.copyJoined (s : State) (p : Pkt) : State :=
  { s with copyEng := mapSet [] s.copyEng p.eng (mapGet [] s.copyEng p.eng ++ [(p.q, p.seq)]) }

theorem exec_copyRow {r : (Fin 4096 → Nat → Instr) × Nat} (hr : r ∈ [(Instr.copyPkt, 0x02), (Instr.fill, 0x03)])
    (h : s.taken q.val seq (isOp r.2) = some (s1, p)) (hnew : s1.copyHas p.q p.seq = false) :
    exec (r.1 q seq) s = .next (s1.copyJoined p) := by
  have hgive : s1.giveCopy p = s1.copyJoined p := if_neg (Bool.eq_false_iff.mp hnew)
  rcases List.mem_cons.mp hr with rfl | hr
  · exact next_perform_taken h hgive
  · obtain rfl := List.mem_singleton.mp hr
    exact next_perform_taken h hgive

end

/-! ### The pieces of a copy (R153, R211, R275, R282, R287) -/

section
variable {s : State} {p : Pkt} {q seq : Nat}

/-- What follows the accesses of a piece. -/
def StepAns.pieceDone (q seq lim : Nat) : StepAns → State
  | .wait s =>
    (match s.pkt q seq with
      | some p => if s.qState q = qDraining ∧ p.held = 0 then s.pieceEnd p else s
      | none => s)
  | .fail s code => (match s.pkt q seq with | some p => s.copyFail p code p.pos | none => s)
  | .ok s =>
    (match s.pkt q seq with
      | none => s
      | some p => if p.pos < lim ∨ s.owed q seq then s else s.pieceEnd p)

/-- The end of the piece of 64 KiB that holds a step's position (R275). -/
def Pkt.pieceLim (p : Pkt) : Nat := min p.len ((p.pos / 65536 + 1) * 65536)

/-- The accesses of the next piece of a step. -/
def State.pieceMoves (s : State) (p : Pkt) (a : ReadOutcome) : StepAns :=
  s.copyTo 64 p p.pieceLim (p.pos + 128 * (readPlace a).1) (readPlace a).2

section
variable {e : Fin 8} {rest : List (Nat × Nat)} (ha : s.alive = true)
  (he : mapGet [] s.copyEng e.val = (q, seq) :: rest) (hp : s.pkt q seq = some p)
include ha he hp

theorem exec_copyPieceDone (a : ReadOutcome) : exec (.copyPieceDone e a) s = .next (
    if s.owed q seq = true then s else (s.pieceMoves p a).pieceDone q seq p.pieceLim) := by
  show execCopyPieceDone e a s = _
  simp only [execCopyPieceDone, he, hp, ha, Bool.not_true, Bool.false_or]
  rfl

/-- R282: a piece is not performed while a peer owes the step an answer. -/
theorem exec_copyPieceDone_owed (a : ReadOutcome) (h : s.owed q seq = true) :
    exec (.copyPieceDone e a) s = .next s := by
  rw [exec_copyPieceDone ha he hp, if_pos h]

theorem exec_copyPieceDone_moves (a : ReadOutcome) (h : s.owed q seq = false) :
    exec (.copyPieceDone e a) s = .next ((s.pieceMoves p a).pieceDone q seq p.pieceLim) := by
  rw [exec_copyPieceDone ha he hp, if_neg (Bool.eq_false_iff.mp h)]

end

theorem StepAns.pieceDone_wait {lim : Nat} (h : s.pkt q seq = some p) : (StepAns.wait s).pieceDone q seq lim =
    if s.qState q = qDraining ∧ p.held = 0 then s.pieceEnd p else s := by
  simp only [StepAns.pieceDone, h]

theorem StepAns.pieceDone_fail {lim code : Nat} (h : s.pkt q seq = some p) :
    (StepAns.fail s code).pieceDone q seq lim = s.copyFail p code p.pos := by
  simp only [StepAns.pieceDone, h]

theorem StepAns.pieceDone_ok {lim : Nat} (h : s.pkt q seq = some p) (hlim : lim ≤ p.pos) (ho : s.owed q seq = false) :
    (StepAns.ok s).pieceDone q seq lim = s.pieceEnd p := by
  have hdone : ¬ (p.pos < lim ∨ s.owed q seq = true) := by simp [ho, hlim]
  simp only [StepAns.pieceDone, h, if_neg hdone]

/-- R282: after its last piece a step leaves its engine and ends. -/
theorem State.pieceEnd_last (hq : s.qState p.q ≠ qDraining) (h : p.len ≤ p.pos) :
    s.pieceEnd p = (s.offEngine p.q p.seq).endPkt p 0 := (if_neg hq).trans (if_pos h)

/-- R282: an engine turns from a step to its next. -/
def State.engineTurned (s : State) (p : Pkt) : State :=
  let l := mapGet [] s.copyEng p.eng
  { s with copyEng := mapSet [] s.copyEng p.eng (l.filter (fun x => x != (p.q, p.seq)) ++ [(p.q, p.seq)]) }

/-- R233, R282: after any other piece the engine turns to its next step, and the step takes the limits now in force. -/
theorem State.pieceEnd_turns (hq : s.qState p.q ≠ qDraining) (h : p.pos < p.len) : s.pieceEnd p =
    (s.engineTurned p).modPkt p.q p.seq (fun x => { x with
      crcLim := s.fld .CFG_MEMORY_crc_retry_limit 0, cxlLim := s.fld .CFG_FAR_TIER_completion_timeout_ms 0 }) :=
  (if_neg hq).trans (if_neg (Nat.not_le.mpr h))

end

/-- Settles O38: a LAUNCH by the kernel it admits, COPY and FILL by the list of their engine, a piece by how its accesses
end, and the end of a piece by whether it was the last. -/
theorem kernelsAndCopies : Obligations.KernelsAndCopies := by
  refine ⟨fun q seq s s1 p => ⟨?launch, ?copy⟩, ?pieces⟩
  case launch =>
    intro h hnew
    refine ⟨_, s1.newKernel p, exec_launch h hnew, rfl, rfl, rfl, rfl, rfl, rfl, rfl, rfl, rfl, rfl,
      nextEpoch_ne_zero s1.kepoch, nextEpoch_of_lt, rfl, rfl, rfl, rfl, ?_, rfl, rfl⟩
    exact decide_eq_true_iff
  case copy =>
    intro r hr h hnew
    exact ⟨_, exec_copyRow hr h hnew, mapGet_mapSet_self _ _ _ _, rfl⟩
  case pieces =>
    intro e a s q seq rest p ha he hp lim moved
    refine ⟨exec_copyPieceDone_owed ha he hp a, fun ho => ?performed, fun hq => ⟨State.pieceEnd_last hq,
      State.pieceEnd_turns hq⟩⟩
    have hmoves : exec (.copyPieceDone e a) s = .next (moved.pieceDone q seq lim) := exec_copyPieceDone_moves ha he hp a ho
    refine ⟨fun s1 p1 hm hp1 => ?_, fun s1 p1 code hm hp1 => ?_, fun s1 p1 hm hp1 hlim ho1 => ?_⟩
    · rw [hmoves, hm, StepAns.pieceDone_wait hp1]
    · rw [hmoves, hm, StepAns.pieceDone_fail hp1]
    · rw [hmoves, hm, StepAns.pieceDone_ok hp1 hlim ho1]

end Sys2Proof.Machine

/-!
PROOFS. The heat scan (R246, R247) and the migration of pages: what a slice MID starts next (R230, R248 to R252) and what
the end of a pass does (R251, R253).
-/

namespace Sys2Proof.Machine

section
variable {s : State} {dpn : Nat}

/-! ### The heat scan (R246, R247) -/

/-- R246, R254: the heat by which the season of a page is judged, with its hint. -/
def State.hintedHeat (s : State) (e : LocEnt) : Nat :=
  if e.hint = 1 then max e.heat (s.fld .PLE_SEASON_warm_thr 0)
  else if e.hint = 2 then min e.heat (s.fld .PLE_SEASON_cool_thr 0 - 1) else e.heat

/-- R247: the season that a scan gives a page with a frame: that of a pinned page, and of one that migrates, stays. -/
def State.scannedSeason (s : State) (e : LocEnt) : Season :=
  if e.pin ≠ 0 ∨ e.state = .migrating then e.season else s.transition e.season (s.hintedHeat e) e.dwell

/-- R246, R247: a scan decays the heat of a page and counts its dwell in its season. -/
theorem State.scanEnt_eq {e : LocEnt} (h : e.state = .resident ∨ e.state = .migrating) : s.scanEnt e = { e with
    season := s.scannedSeason e
    heat := e.heat - ceilDiv e.heat (2 ^ s.fld .PLE_SEASON_decay_shift 0)
    dwell := min ((if s.scannedSeason e = e.season then e.dwell else 0) + 1) 255 } := by
  have hheat : (if e.hint = 2 then
      min (if e.hint = 1 then max e.heat (s.fld .PLE_SEASON_warm_thr 0) else e.heat) (s.fld .PLE_SEASON_cool_thr 0 - 1)
      else if e.hint = 1 then max e.heat (s.fld .PLE_SEASON_warm_thr 0) else e.heat) = s.hintedHeat e := by
    unfold State.hintedHeat
    by_cases h1 : e.hint = 1
    · simp [h1]
    · simp [h1]
  have hfixed : (e.pin = 0 ∧ e.state = .resident) ↔ ¬ (e.pin ≠ 0 ∨ e.state = .migrating) := by
    rcases h with h | h
    · simp [h]
    · simp [h]
  have hseason : (if e.pin = 0 ∧ e.state = .resident then s.transition e.season (s.hintedHeat e) e.dwell
      else e.season) = s.scannedSeason e := by
    simp only [State.scannedSeason, hfixed, ite_not]
  unfold State.scanEnt
  dsimp only
  rw [hheat, hseason]

/-- R247: the table of seasons, the dwell as a condition that `rested` states. -/
theorem State.transition_eq (x : Season) (h dwell : Nat) : s.transition x h dwell =
    (let rested := decide (s.fld .PLE_SEASON_min_dwell 0 ≤ dwell)
    match x with
    | .winter => if s.fld .PLE_SEASON_warm_thr 0 ≤ h ∧ rested then .spring else .winter
    | .spring => if h < s.fld .PLE_SEASON_cool_thr 0 then .winter else .spring
    | .summer => if h < s.fld .PLE_SEASON_cool_thr 0 ∧ rested then .autumn else .summer
    | .autumn => if s.fld .PLE_SEASON_warm_thr 0 ≤ h then .summer else .autumn) := by
  cases x with
  | winter => simp [State.transition]
  | spring => rfl
  | summer => simp [State.transition]
  | autumn => rfl

/-- R246: a page scanned; it joins its promotion queue or leaves it. -/
def State.scanned (s : State) (dpn : Nat) : State :=
  (State.setLoc { s with skip := mapSet 0 s.skip dpn (mapGet 0 s.skip dpn - 1) } dpn (s.scanEnt (s.loc dpn))).promoScan dpn

theorem exec_heatScan (hr : s.ready = true) : exec (.heatScan dpn) s = .next (
    if (s.loc dpn).state = .resident ∨ (s.loc dpn).state = .migrating then s.scanned dpn else s) := by
  have hgo : ¬ (!s.ready) = true := by simp [hr]
  exact congrArg Host.Outcome.next (if_neg hgo)

theorem State.loc_scanned (d : Nat) : (s.scanned dpn).loc d = if d = dpn then s.scanEnt (s.loc dpn) else s.loc d :=
  mapGet_mapSet LocEnt.init s.loct dpn d (s.scanEnt (s.loc dpn))

/-! ### The start of a migration (R230, R248 to R252) -/

/-- What a slice MID moves next: evacuations before pins before seasonal moves (log entry 23). -/
def State.nextMove (s : State) (k : Nat) : Move :=
  firstMove ([s.nextEvac k, s.nextPin k] ++ (if s.seasonal then [s.nextDemotion k, s.nextPromotion k] else []))

section
variable {mid : Fin 4}

theorem exec_migrationStart_full (h : 16 ≤ (s.migs.filter (fun m => m.dpn % 4 == mid.val)).length) :
    exec (.migrationStart mid) s = .next s := by
  have hnot : (!s.ready || decide ((s.migs.filter (fun m => m.dpn % 4 == mid.val)).length ≥ 16)) = true := by
    simp [h]
  exact congrArg Host.Outcome.next (if_pos hnot)

variable (hr : s.ready = true) (hfree : (s.migs.filter (fun m => m.dpn % 4 == mid.val)).length < 16)
include hr hfree

theorem exec_migrationStart_none (h : s.waterMark.nextMove mid.val = none) :
    exec (.migrationStart mid) s = .next s.waterMark := by
  have hgo : ¬ (!s.ready || decide ((s.migs.filter (fun m => m.dpn % 4 == mid.val)).length ≥ 16)) = true := by
    simp [hr, hfree]
  refine congrArg Host.Outcome.next ((if_neg hgo).trans ?_)
  unfold State.nextMove at h
  dsimp only
  rw [h]

theorem exec_migrationStart_some {l f : Nat} {kind : MigKind} {pair : Option Nat}
    (h : s.waterMark.nextMove mid.val = some (dpn, l, kind, pair)) (hl : s.waterMark.locPaced l = false)
    (hsrc : s.waterMark.locPaced (s.waterMark.loc dpn).loc = false)
    (hf : s.waterMark.lowestFrame l (s.waterMark.loc dpn).sync = some f) :
    exec (.migrationStart mid) s = .next (s.waterMark.beginMove dpn l f kind pair) := by
  have hgo : ¬ (!s.ready || decide ((s.migs.filter (fun m => m.dpn % 4 == mid.val)).length ≥ 16)) = true := by
    simp [hr, hfree]
  have hpace : ¬ (s.waterMark.locPaced l || s.waterMark.locPaced (s.waterMark.loc dpn).loc) = true := by simp [hl, hsrc]
  refine congrArg Host.Outcome.next ((if_neg hgo).trans ?_)
  unfold State.nextMove at h
  dsimp only
  rw [h]
  dsimp only
  rw [if_neg hpace, hf]

end

section
variable {l f : Nat} {kind : MigKind} {pair : Option Nat} {room : Bool}

/-- R251: a page that begins to migrate is MIGRATING where it is. -/
theorem State.loc_startMig :
    (s.startMig dpn l f kind pair room).loc dpn = { s.loc dpn with state := .migrating } :=
  mapGet_mapSet_self LocEnt.init s.loct dpn { s.loc dpn with state := .migrating }

theorem State.migs_startMig :
    (s.startMig dpn l f kind pair room).migs = s.migs ++ [⟨dpn, l, f, [], 1, kind, pair, s.now, room⟩] := rfl

/-- R249: a move that was chosen is a migration started, one owed headroom frame fewer where it gives one back. -/
theorem State.beginMove_eq : ∃ owed room, s.beginMove dpn l f kind pair =
    State.startMig { s with roomOwed := owed } dpn l f kind pair room := by
  unfold State.beginMove
  dsimp only
  split
  · exact ⟨_, _, rfl⟩
  · exact ⟨s.roomOwed, _, rfl⟩

end

/-! ### The end of a pass (R222, R251, R253) -/

section
variable {a : ReadOutcome} {m : Migration}

/-- R222, R253: whether the source of a page is uncorrectable as a pass reads it: found so now, or known to be bad. -/
def State.passBad (s : State) (dpn : Nat) (a : ReadOutcome) : Bool :=
  (s.lineRead dpn a).2 || (decide ((s.loc dpn).loc < 12) &&
    s.badLines.any (fun x => x / 512 == (s.loc dpn).loc * 2 ^ 26 + (s.loc dpn).frame))

/-- R251: the source of a page read in a pass, its dirty lines counted. -/
def State.passRead (s : State) (dpn : Nat) (a : ReadOutcome) (m : Migration) : State :=
  (s.lineRead dpn a).1.addFld .PLE_MIG_STAT_bytes 0 (128 * m.dirty.length)

/-- R251: the lines of a page made dirty since its last pass copied again. -/
def State.linesAgain (s : State) (e : LocEnt) (m : Migration) : State :=
  s.each m.dirty (fun x l => x.copyLine (e.loc * 2 ^ 26 + e.frame) (m.loc * 2 ^ 26 + m.frame) l)

/-- A migration that enters its next pass. -/
def Migration.passed (dpn : Nat) (x : Migration) : Migration :=
  if x.dpn = dpn then { x with dirty := [], pass := x.pass + 1 } else x

/-- A migration's next pass: the dirty lines copied again, and none dirty. -/
def State.nextPass (s : State) (dpn : Nat) (e : LocEnt) (m : Migration) : State :=
  { s.linesAgain e m with migs := (s.linesAgain e m).migs.map (Migration.passed dpn) }

variable (ha : s.alive = true) (hm : s.migs.find? (fun m => m.dpn == dpn) = some m) (hdst : s.locPaced m.loc = false)
  (hsrc : s.locPaced (s.loc dpn).loc = false)
include ha hm hdst hsrc

theorem exec_migrationPassEnd_good (hb : s.passBad dpn a = false) : exec (.migrationPassEnd dpn a) s = .next (
    if m.dirty.length ≤ 16 ∨ 4 ≤ m.pass then (s.passRead dpn a m).remap m
    else (s.passRead dpn a m).nextPass dpn (s.loc dpn) m) := by
  have hgo : ¬ (!s.alive || s.locPaced m.loc || s.locPaced (s.loc dpn).loc) = true := by simp [ha, hdst, hsrc]
  have hexec : exec (.migrationPassEnd dpn a) s = execMigrationPassEnd dpn a s := rfl
  rw [hexec, execMigrationPassEnd, hm]
  exact congrArg Host.Outcome.next ((if_neg hgo).trans (if_neg (Bool.eq_false_iff.mp hb)))

/-- R253: an uncorrectable source read abandons the migration. -/
theorem exec_migrationPassEnd_bad {m1 : Migration} (hb : s.passBad dpn a = true)
    (hm1 : (s.lineRead dpn a).1.migs.find? (fun m => m.dpn == dpn) = some m1) :
    exec (.migrationPassEnd dpn a) s = .next ((s.lineRead dpn a).1.abandonMig m1 true).pinCheck := by
  have hgo : ¬ (!s.alive || s.locPaced m.loc || s.locPaced (s.loc dpn).loc) = true := by simp [ha, hdst, hsrc]
  have hexec : exec (.migrationPassEnd dpn a) s = execMigrationPassEnd dpn a s := rfl
  rw [hexec, execMigrationPassEnd, hm]
  refine congrArg Host.Outcome.next ((if_neg hgo).trans ((if_pos hb).trans ?_))
  rw [hm1]

end
end

/-- Settles O30: the scan of an entry by the table of seasons, a move by what a slice MID chooses, the end of a pass by
what its source read and how many lines are dirty. -/
theorem heatAndMigrations : Obligations.HeatAndMigrations := by
  refine ⟨?scan, ?start, ?passEnd, fun s dpn loc frame kind pair room => ⟨_, rfl, State.loc_startMig, State.migs_startMig⟩⟩
  case scan =>
    intro dpn s hr e
    refine ⟨fun h1 h2 => ?passed, ?scanned⟩
    case passed => rw [exec_heatScan hr, if_neg (not_or.mpr ⟨h1, h2⟩)]
    case scanned =>
      intro h warm cool heat rested season
      have hseason : s.scannedSeason e = season := by
        rw [State.scannedSeason, State.transition_eq]
        rfl
      refine ⟨s.scanned dpn, ?_, ?_, fun d hd => ?_, rfl⟩
      · rw [exec_heatScan hr, if_pos h]
      · rw [State.loc_scanned, if_pos rfl, State.scanEnt_eq h, hseason]
      · rw [State.loc_scanned, if_neg hd]
  case start =>
    intro mid s hr k
    refine ⟨exec_migrationStart_full, ?_⟩
    intro hfree s1 move
    refine ⟨exec_migrationStart_none hr hfree, fun dpn l kind pair f hmove hl hsrc hf => ?_⟩
    obtain ⟨owed, room, hbegin⟩ := s1.beginMove_eq (dpn := dpn) (l := l) (f := f) (kind := kind) (pair := pair)
    refine ⟨_, exec_migrationStart_some hr hfree hmove hl hsrc hf, rfl, ?_, ⟨dpn, l, f, [], 1, kind, pair, s1.now, room⟩,
      ?_, rfl, rfl, rfl, rfl, rfl⟩
    · exact (congrArg (State.loc · dpn) hbegin).trans State.loc_startMig
    · exact (congrArg State.migs hbegin).trans State.migs_startMig
  case passEnd =>
    intro dpn a s m ha hm hdst hsrc r s1 bad
    refine ⟨fun hb hlast => ?_, fun hb hdirty hpass => ⟨(s.passRead dpn a m).nextPass dpn (s.loc dpn) m, ?_, rfl⟩,
      fun hb m1 hm1 => exec_migrationPassEnd_bad ha hm hdst hsrc hb hm1⟩
    · rw [exec_migrationPassEnd_good ha hm hdst hsrc hb, if_pos hlast]
      rfl
    · rw [exec_migrationPassEnd_good ha hm hdst hsrc hb, if_neg (by omega)]

end Sys2Proof.Machine

/-!
PROOFS. The events of the far-tier ports (R224, R228 to R230, R232, R379).
-/

namespace Sys2Proof.Machine

section
variable {s : State} {p : Fin 4}

/-! ### Far-tier ports: failures, timeouts, poison (R224, R228, R229) -/

theorem exec_farPortFailure (c : PortFailCause) (ha : s.alive = true) :
    exec (.farPortFailure p c) s = .next (s.portFail p.val) := congrArg Host.Outcome.next (if_pos ha)

theorem exec_memdata_poison (ha : s.alive = true) :
    exec (.memdata p true) s = .next ((s.satFld .FTP_ERR_poison p.val 1).portBad p.val) := by
  have hgo : (s.alive && true) = true := by rw [ha]; rfl
  exact congrArg Host.Outcome.next (if_pos hgo)

theorem exec_memdata_good : exec (.memdata p false) s = .next s := by
  have hnot : ¬ (s.alive && false) = true := by simp
  exact congrArg Host.Outcome.next (if_neg hnot)

theorem exec_expanderEventRecord (x : Nat) (ha : s.alive = true) : exec (.expanderEventRecord p x) s =
    .next ((s.satFld .FTP_ERR_poison p.val 1).portBad (4 + 8 * p.val + x % 8)) :=
  congrArg Host.Outcome.next (if_pos ha)

theorem exec_ndrCmp (l : DevLoad) (ha : s.alive = true) :
    exec (.ndrCmp p l) s = .next { s with devLoad := mapSet .light s.devLoad p.val l } :=
  congrArg Host.Outcome.next (if_pos ha)

section
variable {x : Nat}

/-- The requests at an expander that have waited to their limit (R228). -/
def State.lateAt (s : State) (p x : Nat) : List (Nat × Nat × Nat × Nat × Nat) :=
  (s.waitsAt p x).filter (fun w => decide (w.2.2.2.1 ≤ s.now))

/-- R228: the timeouts of an expander within the second that ends with the one noted now. -/
def State.timeoutsNow (s : State) (k : Nat) : List Nat :=
  (s.now :: mapGet [] s.ftTimes k).filter (fun t => decide (s.now ≤ t + 1000000000))

/-- R228: a timeout noted for its expander `k` and counted for its port. -/
def State.timedOut (s : State) (p k : Nat) : State :=
  ({ s with ftTimes := mapSet [] s.ftTimes k (s.timeoutsNow k) }).satFld .FTP_ERR_timeouts p 1

/-- Nothing that waits there has waited to its limit, and no step or migration may be what was not answered: there is no
timeout yet. -/
theorem exec_cxlMemTimeout_early (hw : s.waitsAt p.val (x % 8) ≠ []) (hl : s.lateAt p.val (x % 8) = [])
    (hb : s.farBusy p.val = false) : exec (.cxlMemTimeout p x) s = .next s := by
  have hearly : (!(s.waitsAt p.val (x % 8)).isEmpty && (s.lateAt p.val (x % 8)).isEmpty && !s.farBusy p.val) = true := by
    simp [hw, hl, hb]
  exact congrArg Host.Outcome.next (if_pos (Bool.or_eq_true_iff.mpr (.inr hearly)))

/-- R228: a timeout that is due is noted and counted; the third of a second fails the port, and another makes the oldest
late request, or else the next access, uncorrectable. -/
theorem exec_cxlMemTimeout_due (ha : s.alive = true)
    (hst : s.fld .FTP_STATUS_state p.val = ftpOnline ∨ s.fld .FTP_STATUS_state p.val = ftpEvacuating)
    (hdue : s.waitsAt p.val (x % 8) = [] ∨ s.lateAt p.val (x % 8) ≠ [] ∨ s.farBusy p.val = true) :
    exec (.cxlMemTimeout p x) s = .next (
      if 3 ≤ (s.timeoutsNow (8 * p.val + x % 8)).length then (s.timedOut p.val (8 * p.val + x % 8)).portFail p.val
      else match minBy (fun w => w.2.2.2.1) (s.lateAt p.val (x % 8)) with
        | some w => (s.timedOut p.val (8 * p.val + x % 8)).failLate w (s.lateAt p.val (x % 8))
        | none => (s.timedOut p.val (8 * p.val + x % 8)).portBad (4 + (8 * p.val + x % 8))) := by
  have hup : (s.fld .FTP_STATUS_state p.val == ftpOnline || s.fld .FTP_STATUS_state p.val == ftpEvacuating) = true := by
    simpa using hst
  have hdue' : (!(s.waitsAt p.val (x % 8)).isEmpty && (s.lateAt p.val (x % 8)).isEmpty && !s.farBusy p.val) = false := by
    rcases hdue with h | h | h
    · simp [h]
    · simp [h]
    · simp [h]
  have hgo : ¬ (!s.alive || !(s.fld .FTP_STATUS_state p.val == ftpOnline || s.fld .FTP_STATUS_state p.val == ftpEvacuating)
      || (!(s.waitsAt p.val (x % 8)).isEmpty && (s.lateAt p.val (x % 8)).isEmpty && !s.farBusy p.val)) = true := by
    rw [ha, hup, hdue']
    decide
  exact congrArg Host.Outcome.next (if_neg hgo)

end

/-! ### Far-tier ports: insertion, links, removal and return (R230, R232, R379) -/

variable {e : PortEnum}

theorem exec_expanderInsertion : exec (.expanderInsertion p e) s = .next (
    if s.alive && !s.january && !s.linksHeld && s.flag .CFG_FAR_TIER_hot_add 0 && s.canEnumerate p.val then
      s.enumerate p.val e else s) := rfl

theorem exec_farTierLinkUp (ha : s.alive = true) (hheld : s.linksHeld = false)
    (hst : s.fld .FTP_STATUS_state p.val = 1 ∨ s.fld .FTP_STATUS_state p.val = 2) :
    exec (.farTierLinkUp p e) s = .next (s.enumerate p.val e) := by
  have hgo : (s.alive && !s.linksHeld &&
      (s.fld .FTP_STATUS_state p.val == 1 || s.fld .FTP_STATUS_state p.val == 2)) = true := by simp [ha, hheld, hst]
  exact congrArg Host.Outcome.next (if_pos hgo)

theorem exec_offlineReq_busy (hb : s.ftpBusy p.val true = true) : exec (.offlineReq p) s = .next s := by
  have hnot : (!s.ready || s.ftpBusy p.val true || s.fld .FTP_STATUS_state p.val != ftpOnline) = true := by simp [hb]
  exact congrArg Host.Outcome.next (if_pos hnot)

theorem exec_offlineReq (hr : s.ready = true) (hb : s.ftpBusy p.val true = false)
    (hst : s.fld .FTP_STATUS_state p.val = ftpOnline) :
    exec (.offlineReq p) s = .next (s.beginEvac (.port p)) := by
  have hgo : ¬ (!s.ready || s.ftpBusy p.val true || s.fld .FTP_STATUS_state p.val != ftpOnline) = true := by
    simp [hr, hb, hst]
  exact congrArg Host.Outcome.next (if_neg hgo)

/-- R230: the fields of a port that an orderly removal begins to evacuate. -/
def evacuatingFlds : List (Fld × Nat) :=
  [(.FTP_STATUS_state, ftpEvacuating), (.FTP_CTL_offline_req, 1), (.FTP_STATUS_evac_failed, 0)]

theorem State.fld_beginEvac_port {f : Fld} {v : Nat} (h : (f, v) ∈ evacuatingFlds) :
    (s.beginEvac (.port p)).fld f p.val = v := by
  have hfits : ∀ e ∈ evacuatingFlds, e.2 % 2 ^ e.1.desc.width = e.2 := by decide
  exact (State.fld_setFlds_of_mem (by decide) h).trans (hfits _ h)

theorem State.mem_beginEvac (u : EvacUnit) : u ∈ (s.beginEvac u).evac := by
  have hevac : (s.beginEvac u).evac = if s.evac.contains u then s.evac else s.evac ++ [u] := by
    cases u with
    | site _ => rfl
    | port _ => rfl
  rw [hevac]
  split
  next h => exact List.contains_iff_mem.mp h
  next => exact List.mem_append_right _ List.mem_cons_self

theorem exec_onlineReq (hr : s.ready = true) (hc : s.canEnumerate p.val = true) :
    exec (.onlineReq p e) s = .next ((s.setFld .FTP_CTL_online_req p.val 1).enumerate p.val e) := by
  have hgo : ¬ (!s.ready || !s.canEnumerate p.val) = true := by simp [hr, hc]
  exact congrArg Host.Outcome.next (if_neg hgo)

theorem exec_onlineReq_refused (hc : s.canEnumerate p.val = false) : exec (.onlineReq p e) s = .next s := by
  have hnot : (!s.ready || !s.canEnumerate p.val) = true := by simp [hc]
  exact congrArg Host.Outcome.next (if_pos hnot)

end

/-- Settles O32: each event of a far-tier port by the one branch of its command that the port's state selects. -/
theorem farTierPorts : Obligations.FarTierPorts := by
  intro p s ha n st
  refine ⟨fun c => exec_farPortFailure c ha, ?timeout, exec_memdata_poison ha, exec_memdata_good, fun l => ?load,
    fun x => exec_expanderEventRecord x ha, fun _ _ => rfl, fun e hj => ?january, fun e hheld => ?links, fun hr => ?asked⟩
  case timeout =>
    intro x hst ts s1 ws late
    refine ⟨exec_cxlMemTimeout_early, fun hdue => ?_⟩
    have hexec := exec_cxlMemTimeout_due ha hst hdue
    exact ⟨fun h => hexec.trans (congrArg Host.Outcome.next (if_neg (Nat.not_le.mpr h))),
      fun h => hexec.trans (congrArg Host.Outcome.next (if_pos h))⟩
  case load => exact ⟨_, exec_ndrCmp l ha, mapGet_mapSet_self _ _ _ _, rfl⟩
  case january =>
    rw [exec_expanderInsertion, if_neg]
    simp [hj]
  case links =>
    refine ⟨fun hj hadd (hc : s.canEnumerate p.val = true) => ?_, fun hadd => ?_, exec_farTierLinkUp ha hheld⟩
    · rw [exec_expanderInsertion, if_pos]
      simp [ha, hj, hheld, State.flag, hadd, hc]
    · rw [exec_expanderInsertion, if_neg]
      simp [State.flag, hadd]
  case asked =>
    refine ⟨fun hb hst => ⟨_, exec_offlineReq hr hb hst, ?_, ?_, ?_, State.mem_beginEvac _⟩, exec_offlineReq_busy,
      fun e => ⟨exec_onlineReq hr, exec_onlineReq_refused⟩⟩
    all_goals exact State.fld_beginEvac_port (by simp [evacuatingFlds])

end Sys2Proof.Machine

/-!
PROOFS. What an action of RAS_PRESET_CTL under way rests on, and that traffic leaves it as it was: here the memory, its
shadows, the shared caches, translations and frames sent.
-/

namespace Sys2Proof.Machine

/-- The register fields that say which action of RAS_PRESET_CTL is under way (R426), and whether the engines run
(R430). -/
def actionFlds : List Fld :=
  [.RAS_PRESET_STATUS_busy, .RAS_PRESET_CTL_kind, .RAS_PRESET_CTL_index, .RAS_PRESET_CTL_action,
    .HIF_PROMPT_STATE_boot_state]

/-- What an action of RAS_PRESET_CTL under way rests on: the power of the package, the Silit ports without power, and
`actionFlds`. The traffic that a unit's reset sets off changes none of it. -/
def State.actionView (s : State) : PwrSt × List Nat × List Nat :=
  (s.pwr, s.siliOff, actionFlds.map (s.fld · 0))

namespace State

variable (s : State)

/-! ### The view under the primitive updates -/

variable {s} in
theorem actionView_congr {t : State} (hp : t.pwr = s.pwr) (ho : t.siliOff = s.siliOff)
    (hf : ∀ f ∈ actionFlds, t.fld f 0 = s.fld f 0) : t.actionView = s.actionView := by
  rw [actionView, hp, ho, List.map_congr_left hf, actionView]

variable {s} in
/-- An operation that leaves registers, power and Silit ports as they are. -/
theorem actionView_of_regs {t : State} (hp : t.pwr = s.pwr) (ho : t.siliOff = s.siliOff) (hr : t.regs = s.regs) :
    t.actionView = s.actionView := by
  refine actionView_congr hp ho fun f _ => ?_
  rw [fld, hr, fld]

theorem actionView_setFld {f : Fld} (h : f ∉ actionFlds) (i v : Nat) : (s.setFld f i v).actionView = s.actionView :=
  actionView_congr rfl rfl fun _ hg => s.fld_setFld_ne i 0 v (ne_of_mem_of_not_mem hg h)

theorem actionView_satFld {f : Fld} (h : f ∉ actionFlds) (i n : Nat) : (s.satFld f i n).actionView = s.actionView :=
  s.actionView_setFld h i _

theorem actionView_addFld {f : Fld} (h : f ∉ actionFlds) (i n : Nat) : (s.addFld f i n).actionView = s.actionView :=
  s.actionView_setFld h i _

theorem actionView_setFlds (i : Nat) {l : List (Fld × Nat)} (h : ∀ e ∈ l, e.1 ∉ actionFlds) :
    (s.setFlds i l).actionView = s.actionView := by
  refine actionView_congr ?_ ?_ fun f hf => s.fld_setFlds_ne i 0 l fun e he => (ne_of_mem_of_not_mem hf (h e he)).symm
  · rw [setFlds_only]
  · rw [setFlds_only]

variable {s} in
theorem actionView_each {α : Type} {f : State → α → State} (hf : ∀ s a, (f s a).actionView = s.actionView)
    (l : List α) : (s.each l f).actionView = s.actionView := each_same f l actionView hf

variable {s} in
theorem actionView_getD {o : Option State} (h : ∀ t, o = some t → t.actionView = s.actionView) :
    (o.getD s).actionView = s.actionView := by
  cases o with
  | none => rfl
  | some t => exact h t rfl

@[simp] theorem actionView_drew (n : Nat) : (s.drew n).actionView = s.actionView := rfl
@[simp] theorem actionView_modCell (c : Nat) (f : Cell → Cell) : (s.modCell c f).actionView = s.actionView := rfl
@[simp] theorem actionView_modPkt (q seq : Nat) (f : Pkt → Pkt) : (s.modPkt q seq f).actionView = s.actionView := rfl
@[simp] theorem actionView_setQueue (q : Nat) (x : Queue) : (s.setQueue q x).actionView = s.actionView := rfl
@[simp] theorem actionView_setLink (k : Nat) (l : Link) : (s.setLink k l).actionView = s.actionView := rfl
@[simp] theorem actionView_logHdr (k type : Nat) (f : Frame) : (s.logHdr k type f).actionView = s.actionView := by
  unfold logHdr
  exact actionView_of_regs rfl rfl rfl
@[simp] theorem actionView_setScd (j : Nat) (c : Cache) : (s.setScd j c).actionView = s.actionView := rfl
@[simp] theorem actionView_cancelResv (t : Target) (n : Nat) (w : Who) :
    (s.cancelResv t n w).actionView = s.actionView := rfl
@[simp] theorem actionView_dropResv (p : Resv → Bool) : (s.dropResv p).actionView = s.actionView := rfl
@[simp] theorem actionView_endReq (tid : Nat) (gone : Bool) : (s.endReq tid gone).actionView = s.actionView := rfl
@[simp] theorem actionView_l2Put (b key : Nat) (l : Option CLine) : (s.l2Put b key l).actionView = s.actionView := rfl
@[simp] theorem actionView_l1Drop (c va : Nat) : (s.l1Drop c va).actionView = s.actionView := rfl
@[simp] theorem actionView_setLane (c id lane : Nat) (st : LaneSt) :
    (s.setLane c id lane st).actionView = s.actionView := rfl
@[simp] theorem actionView_offEngine (q seq : Nat) : (s.offEngine q seq).actionView = s.actionView := rfl

/-! ### Counters and meters -/

@[simp] theorem actionView_pmc (r b ev n : Nat) : (s.pmc r b ev n).actionView = s.actionView := by
  have hne : ∀ f ∈ actionFlds, f ≠ .REG_PMC_VAL_count := by decide
  refine actionView_congr ?_ ?_ fun f hf => s.fld_pmc r b ev n 0 (hne f hf)
  · rw [pmc_only]
  · rw [pmc_only]

@[simp] theorem actionView_flits (r n : Nat) : (s.flits r n).actionView = s.actionView := s.actionView_pmc ..

theorem actionView_meter (tag : Option Nat) {f : Fld} (h : f ∉ actionFlds) (n : Nat) :
    (s.meter tag f n).actionView = s.actionView := by
  cases tag with
  | none => rfl
  | some t => exact s.actionView_addFld h t n

@[simp] theorem actionView_use (tag : Option Nat) (k n : Nat) : (s.use tag k n).actionView = s.actionView := by
  cases tag with
  | none => rfl
  | some t => rfl

/-! ### Frames sent -/

@[simp] theorem actionView_transmit (k : Nat) (x : TxFrame) : (s.transmit k x).actionView = s.actionView := by
  unfold transmit
  exact (actionView_setLink ..).trans (actionView_logHdr ..)

@[simp] theorem actionView_sendQueue (k : Nat) (native : Bool) (l : List TxFrame) (held : List Bool) (s : State) :
    (sendQueue k native l held s).actionView = s.actionView := by
  induction l generalizing held s with
  | nil => rfl
  | cons x l ih =>
    unfold sendQueue
    dsimp only
    split
    · exact ih ..
    · exact (ih ..).trans (actionView_transmit ..)

@[simp] theorem actionView_pump (k : Nat) : (s.pump k).actionView = s.actionView := by
  unfold pump
  dsimp only
  split
  · rfl
  · exact actionView_sendQueue ..

theorem actionView_putOnLink (p nbr type : Nat) (f : Frame) (step : Option (Nat × Nat)) :
    (s.putOnLink p nbr type f step).actionView = s.actionView := actionView_pump ..

variable {s} in
theorem actionView_sendFrame {t : State} {type : Nat} {f : Frame} (h : s.sendFrame type f = some t) :
    t.actionView = s.actionView := by
  unfold sendFrame at h
  split at h
  · cases h
  · split at h
    · cases h
    · cases h
      exact actionView_putOnLink ..

@[simp] theorem actionView_fabricBytes (tag : Option Nat) (dst n : Nat) :
    (s.fabricBytes tag dst n).actionView = s.actionView := by
  unfold fabricBytes
  dsimp only
  split
  · exact (actionView_use ..).trans (s.actionView_meter tag (by decide) n)
  · exact s.actionView_meter tag (by decide) n

@[simp] theorem actionView_sendOrDrop (type : Nat) (f : Frame) : (s.sendOrDrop type f).actionView = s.actionView := by
  unfold sendOrDrop
  split
  · exact actionView_sendFrame ‹_›
  · exact s.actionView_satFld (by decide) _ _

variable {s} in
theorem actionView_sendReq {t : State} {unit tag : Option Nat} {type : Nat} {f : Frame} {svc : RemFor} {tile : Bool}
    (h : s.sendReq unit tag type f svc tile = some t) : t.actionView = s.actionView := by
  unfold sendReq at h
  dsimp only at h
  split at h
  · cases h
  · rename_i s1 hsend
    cases h
    exact (s1.actionView_fabricBytes ..).trans (actionView_sendFrame hsend)

@[simp] theorem actionView_withdrawRemote (r : RemReq) : (s.withdrawRemote r).actionView = s.actionView :=
  s.actionView_sendOrDrop ..

/-! ### The location table and the shared caches -/

@[simp] theorem actionView_lookupLoc (d : Nat) : (s.lookupLoc d).actionView = s.actionView := by
  unfold lookupLoc
  dsimp only
  split
  · rfl
  · exact s.actionView_satFld (f := .PLE_MID_lcache_miss) (by decide) (d % 4) 1

@[simp] theorem actionView_heatTouch (d : Nat) : (s.heatTouch d).actionView = s.actionView := by
  unfold heatTouch
  dsimp only
  split
  · exact s.actionView_lookupLoc d
  · exact s.actionView_lookupLoc d

@[simp] theorem actionView_memBytes (tag : Option Nat) (d n : Nat) : (s.memBytes tag d n).actionView = s.actionView := by
  unfold memBytes
  dsimp only
  split
  · split
    · exact (actionView_use ..).trans (s.actionView_meter tag (by decide) n)
    · exact (actionView_use ..).trans (s.actionView_meter tag (by decide) n)
  · rfl

@[simp] theorem actionView_lineBack (tag : Option Nat) (l : Nat) : (s.lineBack tag l).actionView = s.actionView := by
  unfold lineBack
  split
  · rfl
  · exact (actionView_memBytes ..).trans (s.actionView_heatTouch _)
  · rfl

@[simp] theorem actionView_scdTouch (tag : Option Nat) (a : Target) (w : Bool) :
    (s.scdTouch tag a w).actionView = s.actionView := by
  have hvictim : ∀ v : Option CLine, actionView
      (match v with | some v => if v.dirty.isEmpty then s else s.lineBack tag v.addr | none => s) = s.actionView := by
    intro v
    split
    · split
      · rfl
      · exact s.actionView_lineBack ..
    · rfl
  unfold scdTouch
  split
  · rfl
  · dsimp only
    split
    · split
      · rfl
      · rfl
    · rw [actionView_setScd]
      split
      · rw [actionView_memBytes, actionView_heatTouch]
        exact hvictim _
      · exact hvictim _

@[simp] theorem actionView_touchLines (tag : Option Nat) (a : Target) (n : Nat) (w : Bool) :
    (s.touchLines tag a n w).actionView = s.actionView := by
  unfold touchLines
  split
  · rfl
  · exact actionView_each (fun _ _ => actionView_scdTouch ..) _

@[simp] theorem actionView_touchSpan (tag : Option Nat) (a : Target) (n : Nat) (w : Bool) :
    (s.touchSpan tag a n w).actionView = s.actionView := actionView_each (fun _ _ => actionView_scdTouch ..) _

@[simp] theorem actionView_takeBad1 (a : Target) : (s.takeBad1 a).1.actionView = s.actionView := by
  unfold takeBad1
  split
  · rfl
  · dsimp only
    split
    · refine (actionView_setFlds _ _ ?_).trans (actionView_satFld _ (by decide) _ _)
      simp [actionFlds]
    · split
      · rfl
      · rfl

@[simp] theorem actionView_takeBad (a : Target) (n : Nat) : (s.takeBad a n).1.actionView = s.actionView := by
  unfold takeBad
  refine List.foldlRecOn (motive := fun x : State × Bool => x.1.actionView = s.actionView) _ _ rfl fun x hx i _ => ?_
  exact (actionView_takeBad1 ..).trans hx

/-- A line read where a part of it has to be filled (R222). -/
@[simp] theorem actionView_fillRead (p : Prop) [Decidable p] (a : Target) (n : Nat) :
    (if p then s.takeBad a n else (s, false)).1.actionView = s.actionView := by
  split
  · exact s.actionView_takeBad a n
  · rfl

/-! ### Bytes and their shadows -/

@[simp] theorem actionView_migTouch (d n : Nat) : (s.migTouch d n).actionView = s.actionView := by
  rw [migTouch_only]
  rfl

@[simp] theorem actionView_putDev (d : Nat) (bs : List Byte) (w : Who) : (s.putDev d bs w).actionView = s.actionView := by
  unfold putDev
  split
  · rfl
  · split
    · rw [actionView_cancelResv, actionView_migTouch]
      rfl
    · rfl

@[simp] theorem actionView_putHost (a : Nat) (bs : List Byte) (w : Who) : (s.putHost a bs w).actionView = s.actionView := by
  unfold putHost
  split
  · rfl
  · rfl

@[simp] theorem actionView_wrCur (a : Nat) (bs : List Byte) : (s.wrCur a bs).actionView = s.actionView := by
  unfold wrCur
  split
  · rfl
  · rfl

@[simp] theorem actionView_setChk (d e : Nat) : (s.setChk d e).actionView = s.actionView := by
  unfold setChk
  dsimp only
  split
  · split
    · rfl
    · exact s.actionView_lookupLoc (d / 65536)
  · rfl

@[simp] theorem actionView_chkNonTile (d : Nat) : (s.chkNonTile d).actionView = s.actionView := by
  unfold chkNonTile
  dsimp only
  split
  · exact actionView_setChk ..
  · split
    · exact actionView_setChk ..
    · rfl

@[simp] theorem actionView_chkNonTiles (d n : Nat) : (s.chkNonTiles d n).actionView = s.actionView :=
  actionView_each actionView_chkNonTile _

@[simp] theorem actionView_chkAbandon (d r : Nat) : (s.chkAbandon d r).actionView = s.actionView := by
  unfold chkAbandon
  split
  · rfl
  · exact actionView_setChk ..

@[simp] theorem actionView_chkWhole (d : Nat) (crc : Option Nat) : (s.chkWhole d crc).actionView = s.actionView := by
  unfold chkWhole
  dsimp only
  split
  · exact actionView_setChk ..
  · split
    · exact actionView_setChk ..
    · exact actionView_setChk ..

variable {s} in
theorem actionView_place {t : State} {d : Nat} (h : s.place d = some t) : t.actionView = s.actionView := by
  unfold place at h
  dsimp only at h
  split at h
  · split at h
    · cases h
    · split at h
      · cases h
      · cases h
        rfl
  · cases h
    rfl
  · cases h
    rfl
  · cases h

variable {s} in
theorem actionView_homeWrite {t : State} {tag : Option Nat} {a : Target} {bs : List Byte} {w : Who}
    (h : s.homeWrite tag a bs w = some t) : t.actionView = s.actionView := by
  unfold homeWrite at h
  split at h
  · split at h
    · cases h
    · rename_i u hplace
      cases h
      rw [actionView_chkNonTiles, actionView_putDev, actionView_scdTouch, actionView_place hplace]
  · cases h
    rw [actionView_putHost, actionView_scdTouch]
  · cases h

variable {s} in
theorem actionView_spanPut {t : State} {tag : Option Nat} {a : Target} {bs : List Byte} {whole : Option (Option Nat)}
    (h : s.spanPut tag a bs whole = some t) : t.actionView = s.actionView := by
  unfold spanPut at h
  split at h
  · obtain ⟨u, hplace, rfl⟩ := Option.map_eq_some_iff.mp h
    dsimp only
    split
    · rw [actionView_chkWhole, actionView_putDev, actionView_touchSpan, actionView_place hplace]
    · rw [actionView_chkNonTiles, actionView_putDev, actionView_touchSpan, actionView_place hplace]
  · cases h
    rw [actionView_putHost, actionView_touchSpan]
  · cases h

@[simp] theorem actionView_hostDrop (q : Option Nat) (a : Target) : (s.hostDrop q a).actionView = s.actionView := by
  unfold hostDrop
  split
  · split
    · exact s.actionView_satFld (by decide) _ _
    · rfl
  · rfl

@[simp] theorem actionView_biSnoop (a : Target) (w : Bool) : (s.biSnoop a w).actionView = s.actionView := by
  unfold biSnoop
  split
  · split
    · rfl
    · rfl
  · rfl

/-! ### Translations -/

@[simp] theorem actionView_readPte (m d : Nat) : (s.readPte m d).2.actionView = s.actionView := by
  unfold readPte
  split
  · rfl
  · split
    · rfl
    · split
      · dsimp only
        rw [actionView_flits, actionView_scdTouch, actionView_takeBad]
      · rfl
      · rfl
      · rfl

theorem actionView_of_readPte {m d : Nat} {r : Except MFault Nat} {t : State} (h : s.readPte m d = (r, t)) :
    t.actionView = s.actionView := by
  rw [← actionView_readPte s m d, h]

@[simp] theorem actionView_walkFrom (m asc va n : Nat) (s : State) (table : Nat) :
    (walkFrom m asc va n s table).2.actionView = s.actionView := by
  induction n generalizing s table with
  | zero =>
    unfold walkFrom
    split
    · rename_i h
      exact s.actionView_of_readPte h
    · rename_i e t h
      have ht := s.actionView_of_readPte h
      split
      · exact ht
      · split
        · exact ht
        · exact ht
  | succ n ih =>
    unfold walkFrom
    split
    · rename_i h
      exact s.actionView_of_readPte h
    · rename_i e t h
      have ht := s.actionView_of_readPte h
      split
      · exact ht
      · split
        · split
          · exact ht
          · exact ht
        · split
          · exact (ih ..).trans ht
          · exact ht

@[simp] theorem actionView_walk (m asc va : Nat) : (s.walk m asc va).2.actionView = s.actionView := by
  unfold walk
  dsimp only
  split
  · rfl
  · split
    · exact actionView_walkFrom ..
    · exact actionView_walkFrom ..

theorem actionView_of_walk {m asc va : Nat} {r : Except MFault (Nat × Leaf)} {t : State} (h : s.walk m asc va = (r, t)) :
    t.actionView = s.actionView := by
  rw [← actionView_walk s m asc va, h]

@[simp] theorem actionView_translate (m asc va : Nat) : (s.translate m asc va).2.actionView = s.actionView := by
  unfold translate
  split
  · rfl
  · split
    · rename_i t h
      exact (rfl : _ = t.actionView).trans (s.actionView_of_walk h)
    · rename_i h
      exact (actionView_biSnoop ..).trans (s.actionView_of_walk h)
    · rename_i h
      exact s.actionView_of_walk h

theorem actionView_of_translate {m asc va : Nat} {r : Except MFault (Nat × Leaf)} {t : State}
    (h : s.translate m asc va = (r, t)) : t.actionView = s.actionView := by
  rw [← actionView_translate s m asc va, h]

@[simp] theorem actionView_access (m asc va : Nat) (n : Need) : (s.access m asc va n).2.actionView = s.actionView := by
  unfold access
  split
  · rename_i h
    have ht := s.actionView_of_translate h
    dsimp only
    rw [apply_ite (fun r : Except MFault Target × State => r.2), ite_self]
    exact ht
  · rename_i h
    exact s.actionView_of_translate h

variable {s} in
theorem actionView_of_access {m asc va : Nat} {n : Need} {r : Except MFault Target} {t : State}
    (h : s.access m asc va n = (r, t)) : t.actionView = s.actionView := by
  rw [← actionView_access s m asc va n, h]

end State

end Sys2Proof.Machine

/-!
PROOFS. The same of lost stores, the caches of blocks and cells, a cell that halts, and the requests and streams that
wait in it.
-/

namespace Sys2Proof.Machine

namespace State

variable (s : State)

/-! ### Lost stores and lines written back (R187, R240) -/

@[simp] theorem actionView_lostUnit (cs : List Nat) (gs : List (Nat × Nat)) :
    (s.lostUnit cs gs).actionView = s.actionView := by
  unfold lostUnit
  refine (actionView_each (fun s p => ?_) gs).trans (actionView_each (fun s c => ?_) cs)
  · rfl
  · exact s.actionView_satFld (f := .CEL_STORE_LOST_count) (by decide) c 1

@[simp] theorem actionView_landed (a : Target) (bs : List Byte) : (s.landed a bs).actionView = s.actionView := by
  unfold landed
  split
  · split
    · exact (actionView_chkNonTiles ..).trans (actionView_putDev ..)
    · rfl
  · exact actionView_wrCur ..
  · rfl

@[simp] theorem actionView_mayLand (m : NMap Byte) : (s.mayLand m).actionView = s.actionView := by
  unfold mayLand
  refine (actionView_drew ..).trans (actionView_each (fun s e => ?_) _)
  dsimp only
  split
  · exact actionView_each (fun _ _ => actionView_landed ..) _
  · rfl

theorem actionView_foldl_bind {α : Type} (f : State → α → Option State)
    (hf : ∀ (s t : State) a, f s a = some t → t.actionView = s.actionView) (l : List α) {s t : State}
    (h : l.foldl (fun x a => x.bind (fun y => f y a)) (some s) = some t) : t.actionView = s.actionView := by
  have hall : ∀ u, l.foldl (fun x a => x.bind (fun y => f y a)) (some s) = some u → u.actionView = s.actionView := by
    refine List.foldlRecOn (motive := fun x : Option State => ∀ u, x = some u → u.actionView = s.actionView) l _
      (fun u hu => ?_) fun x hx a _ u hu => ?_
    · cases hu
      rfl
    · obtain ⟨y, hy, hyu⟩ := Option.bind_eq_some_iff.mp hu
      exact (hf y u a hyu).trans (hx y hy)
  exact hall t h

@[simp] theorem actionView_lineOut (b : Nat) (tag : Option Nat) (l : CLine) :
    (s.lineOut b tag l).state.actionView = s.actionView := by
  have hread := s.actionView_fillRead (l.dirty.length < 128) (lineTarget l.addr) 128
  unfold lineOut
  dsimp only
  revert hread
  generalize (if l.dirty.length < 128 then s.takeBad (lineTarget l.addr) 128 else (s, false)) = x
  intro hread
  split
  · rfl
  · split
    · exact actionView_biSnoop ..
    · split
      · exact (actionView_lostUnit ..).trans (actionView_mayLand ..)
      · split
        · exact (actionView_lostUnit ..).trans hread
        · split
          · rename_i u hu
            refine (actionView_flits ..).trans ((actionView_hostDrop ..).trans (Eq.trans ?_ hread))
            exact actionView_foldl_bind _ (fun _ _ _ h => actionView_homeWrite h) _ hu
          · exact hread

variable {s} in
theorem actionView_of_done {t : State} {o : WbAns} (h : o.state.actionView = s.actionView) (e : o = .done t) :
    t.actionView = s.actionView := by
  subst e
  exact h

variable {s} in
theorem actionView_of_wait {t : State} {o : WbAns} (h : o.state.actionView = s.actionView) (e : o = .wait t) :
    t.actionView = s.actionView := by
  subst e
  exact h

@[simp] theorem actionView_l2Evict (c : Nat) (a : Target) : (s.l2Evict c a).state.actionView = s.actionView := by
  unfold l2Evict
  split
  · rfl
  · rename_i key l _
    split
    · exact actionView_of_wait (actionView_lineOut ..) ‹_›
    · rename_i t h
      exact (t.actionView_l2Put (blockOf c) key none).trans (actionView_of_done (actionView_lineOut ..) h)

@[simp] theorem actionView_l2Clean (b mask : Nat) (l : List (Nat × CLine)) (s : State) :
    (s.l2Clean b mask l).1.actionView = s.actionView := by
  induction l generalizing s with
  | nil => rfl
  | cons e l ih =>
    unfold l2Clean
    dsimp only
    split
    · exact ih s
    · split
      · exact (ih _).trans (actionView_of_wait (actionView_lineOut ..) ‹_›)
      · exact ((ih _).trans (actionView_l2Put ..)).trans (actionView_of_done (actionView_lineOut ..) ‹_›)

@[simp] theorem actionView_l2CleanCell (c : Nat) : (s.l2CleanCell c).1.actionView = s.actionView :=
  actionView_l2Clean ..

@[simp] theorem actionView_l2Poke (c w : Nat) (a : Target) (bs : List Byte) (d : Bool) :
    (s.l2Poke c w a bs d).actionView = s.actionView := by
  unfold l2Poke
  split
  · rfl
  · exact actionView_l2Put ..

@[simp] theorem actionView_tilePut (tag : Option Nat) (a : Target) (bs : List Byte) :
    (s.tilePut tag a bs).actionView = s.actionView := by
  unfold tilePut
  split
  · exact (actionView_putDev ..).trans (actionView_touchLines ..)
  · exact (actionView_putHost ..).trans (actionView_touchLines ..)
  · rfl

@[simp] theorem actionView_tileLinePut (c va : Nat) (a : Target) (bs : List Byte) :
    (s.tileLinePut c va a bs).actionView = s.actionView := by
  have hevict : ((s.l1Drop c va).l2Evict c a).state.actionView = s.actionView := actionView_l2Evict ..
  unfold tileLinePut
  split
  · exact actionView_of_wait hevict ‹_›
  · refine Eq.trans ?_ (actionView_of_done hevict ‹_›)
    split
    · exact actionView_biSnoop ..
    · exact (actionView_flits ..).trans (actionView_tilePut ..)

@[simp] theorem actionView_abandonStore (c : Nat) (p : InProg) (partly : Bool) :
    (s.abandonStore c p partly).actionView = s.actionView := by
  refine actionView_each (fun s tb => ?_) _
  dsimp only
  have hpart : (if partly = true then
      (s.each (List.range (if partly = true then s.freeAt 0 % 33 else 0)) fun s i =>
        s.tileLinePut c (tb.1.1 + 128 * i) (tb.1.2.plus (128 * i)) ((tb.2.drop (128 * i)).take 128)).drew 1
        else s).actionView = s.actionView := by
    split
    · exact (actionView_drew ..).trans (actionView_each (fun _ _ => actionView_tileLinePut ..) _)
    · rfl
  split
  · exact (actionView_chkAbandon ..).trans hpart
  · exact hpart

variable {s} in
theorem actionView_combFlush {t : State} {c : Nat} {e : CombEnt} (h : s.combFlush c e = some t) :
    t.actionView = s.actionView := by
  have hread := s.actionView_fillRead (e.bytes.length < 128) e.tgt 128
  unfold combFlush at h
  dsimp only at h
  split at h
  case h_1 =>
    split at h
    · cases h
    · split at h
      · cases h
        exact actionView_lostUnit ..
      · cases h
        refine actionView_each (fun s r => ?_) _
        split
        · exact (actionView_flits ..).trans (actionView_sendReq ‹_›)
        · rfl
  case h_2 =>
    revert hread h
    generalize (if e.bytes.length < 128 then s.takeBad e.tgt 128 else (s, false)) = x
    intro hread h
    split at h
    · cases h
      exact (actionView_lostUnit ..).trans (actionView_mayLand ..)
    · split at h
      · cases h
      · split at h
        · cases h
          exact (actionView_lostUnit ..).trans hread
        · refine (actionView_foldl_bind _ (fun y z r hz => ?_) _ h).trans hread
          obtain ⟨v, hv, rfl⟩ := Option.map_eq_some_iff.mp hz
          rw [actionView_flits, actionView_hostDrop, actionView_homeWrite hv, actionView_l2Poke]

@[simp] theorem actionView_combFlushAll (c : Nat) : (s.combFlushAll c).1.actionView = s.actionView := by
  unfold combFlushAll
  refine List.foldlRecOn (motive := fun x : State × Bool => x.1.actionView = s.actionView) _ _ rfl fun x hx e _ => ?_
  split
  · exact (actionView_combFlush ‹_›).trans hx
  · exact (actionView_biSnoop ..).trans hx

/-! ### A cell that halts -/

@[simp] theorem actionView_stopStream (c : Nat) (x : StreamSt) (partly : Bool) :
    (s.stopStream c x partly).actionView = s.actionView := actionView_each (fun _ _ => actionView_abandonStore ..) _

@[simp] theorem actionView_withdrawCell (c : Nat) : (s.withdrawCell c).actionView = s.actionView :=
  actionView_each (s := s.feWithdraw _) (fun _ _ => actionView_withdrawRemote ..) _

@[simp] theorem actionView_haltCell (c : Nat) (h : HaltArg) : (s.haltCell c h).actionView = s.actionView := by
  unfold haltCell
  dsimp only
  split
  · rfl
  · rw [actionView_combFlushAll, actionView_modCell, actionView_dropResv, actionView_withdrawCell, actionView_stopStream]

@[simp] theorem actionView_haltStream (c : Nat) (st : Stream) (pc reason : Nat) (addr : Option Nat) (more : Bool) :
    (s.haltStream c st pc reason addr more).actionView = s.actionView := actionView_haltCell ..

/-! ### Requests of a cell that end (R69, R187, R463) -/

@[simp] theorem actionView_undefDests (c k : Nat) (r : ReqKind) : (s.undefDests c k r).actionView = s.actionView := by
  unfold undefDests
  split
  · rfl
  · rfl

@[simp] theorem actionView_failReq (c : Nat) (r : Req) : (s.failReq c r).actionView = s.actionView := by
  unfold failReq
  split
  · rfl
  · exact (actionView_haltCell ..).trans (actionView_undefDests ..)

@[simp] theorem actionView_loseReq (c size : Nat) (r : Req) : (s.loseReq c size r).actionView = s.actionView :=
  (actionView_each (fun _ _ => actionView_lostUnit ..) _).trans (actionView_mayLand ..)

@[simp] theorem actionView_settle (c id : Nat) : (s.settle c id).actionView = s.actionView := by
  unfold settle
  split
  · rfl
  · rename_i r _
    have hfailed : (if r.hasFailed && !r.bad then (s.failReq c r).markBad c id else s).actionView = s.actionView := by
      split
      · exact actionView_failReq ..
      · rfl
    dsimp only
    split
    · split
      · exact actionView_loseReq ..
      · rfl
    · split
      · exact actionView_loseReq ..
      · rfl
    · split
      · exact hfailed
      · split
        · exact hfailed
        · exact hfailed

@[simp] theorem actionView_setLanes (c id : Nat) (l : List Nat) (st : LaneSt) :
    (s.setLanes c id l st).actionView = s.actionView := actionView_each (fun _ _ => actionView_setLane ..) l

/-! ### Streams and groups that wait -/

@[simp] theorem actionView_release (c slot scope upto : Nat) :
    (s.release c slot scope upto).1.actionView = s.actionView := by
  unfold release
  dsimp only
  split
  · exact actionView_combFlushAll ..
  · split
    · exact actionView_combFlushAll ..
    · exact (actionView_l2CleanCell ..).trans (actionView_combFlushAll ..)

@[simp] theorem actionView_acquire (c scope : Nat) : (s.acquire c scope).actionView = s.actionView := by
  unfold acquire
  split
  · rfl
  · rfl

@[simp] theorem actionView_membarTry (c slot scope upto : Nat) :
    (s.membarTry c slot scope upto).actionView = s.actionView := by
  have hrel := s.actionView_release c slot scope upto
  unfold membarTry
  split
  · rename_i h
    rw [h] at hrel
    exact (actionView_acquire ..).trans hrel
  · rename_i h
    rw [h] at hrel
    exact hrel

@[simp] theorem actionView_membarPoll (c : Nat) : (s.membarPoll c).actionView = s.actionView := by
  refine actionView_each (fun s e => ?_) _
  split
  · exact actionView_membarTry ..
  · rfl

@[simp] theorem actionView_twaitPoll (c : Nat) : (s.twaitPoll c).actionView = s.actionView := by
  refine actionView_each (fun s e => ?_) _
  split
  · split
    · rfl
    · rfl
  · rfl

@[simp] theorem actionView_pushLoop (n : Nat) (s : State) (c : Nat) (st : Stream) :
    (pushLoop n s c st).actionView = s.actionView := by
  induction n generalizing s with
  | zero => rfl
  | succ n ih =>
    unfold pushLoop
    split
    · rfl
    · dsimp only
      split
      · exact ih _
      · rfl

@[simp] theorem actionView_retireOp (c : Nat) (st : Stream) (p : InProg) :
    (s.retireOp c st p).actionView = s.actionView := by
  unfold retireOp
  dsimp only
  exact (actionView_pmc ..).trans (actionView_addFld _ (by decide) _ _)

@[simp] theorem actionView_flushPush (c : Nat) (st : Stream) : (s.flushPush c st).actionView = s.actionView :=
  (actionView_each (fun _ _ => actionView_retireOp ..) _).trans (actionView_pushLoop ..)

variable {s} in
theorem actionView_qpStarved {t : State} {c : Nat} (h : s.qpStarved c = some t) : t.actionView = s.actionView := by
  unfold qpStarved at h
  dsimp only at h
  split at h
  · cases h
  · split at h
    · cases h
      exact actionView_haltStream ..
    · split at h
      · cases h
        exact actionView_haltStream ..
      · cases h

@[simp] theorem actionView_qpCheck (pl : PlanOf) (c : Nat) : (s.qpCheck pl c).actionView = s.actionView := by
  have hstarved : ((s.qpStarved c).getD s).actionView = s.actionView := actionView_getD fun _ h => actionView_qpStarved h
  unfold qpCheck
  dsimp only
  split
  · rfl
  · split
    · exact actionView_haltStream ..
    · split
      · exact actionView_haltStream ..
      · exact hstarved
    · split
      · exact actionView_haltStream ..
      · exact hstarved
    · split
      · exact actionView_qpStarved ‹_›
      · split
        · exact actionView_haltStream ..
        · rfl

@[simp] theorem actionView_streamPoll (pl : PlanOf) (c : Nat) : (s.streamPoll pl c).actionView = s.actionView := by
  unfold streamPoll
  dsimp only
  rw [actionView_qpCheck, actionView_membarPoll, actionView_twaitPoll, actionView_flushPush, actionView_flushPush]

/-! ### Requests of a cell sent to peers (R187, R360, R362) -/

@[simp] theorem actionView_sendFor (c : Nat) (r : Req) (type dev : Nat) (f : Frame) (len : Nat) (lanes : List Nat) :
    (s.sendFor c r type dev f len lanes).actionView = s.actionView := by
  unfold sendFor
  dsimp only
  split
  · rfl
  · split
    · exact ((actionView_setLanes ..).trans (actionView_flits ..)).trans (actionView_sendReq ‹_›)
    · split
      · exact (actionView_setLanes ..).trans (actionView_lostUnit ..)
      · exact actionView_setLanes ..

@[simp] theorem actionView_sendStores (c : Nat) (r : Req) (size : Nat) :
    (s.sendStores c r size).actionView = s.actionView := by
  refine actionView_each (fun s dev => ?_) _
  refine actionView_each (fun s run => ?_) _
  exact (actionView_sendFor ..).trans (actionView_each (fun _ _ => actionView_l1Drop ..) _)

@[simp] theorem actionView_sendLoads (c : Nat) (r : Req) (n : Nat) : (s.sendLoads c r n).actionView = s.actionView := by
  refine (actionView_each (fun s k => ?_) _).trans (actionView_each (fun s l => ?_) _)
  · exact (actionView_sendFor ..).trans (actionView_pmc ..)
  · split
    · rfl
    · rfl

@[simp] theorem actionView_sendAtoms (c : Nat) (r : Req) (op size : Nat) (sign : Bool) :
    (s.sendAtoms c r op size sign).actionView = s.actionView := by
  refine actionView_each (fun s k => ?_) _
  exact (actionView_sendFor ..).trans (actionView_each (fun _ _ => actionView_l1Drop ..) _)

@[simp] theorem actionView_sendFes (c : Nat) (r : Req) (op : Nat) : (s.sendFes c r op).actionView = s.actionView := by
  refine actionView_each (fun s l => ?_) _
  have hlane : ∀ (t : State) (rs : List RemReq), t.actionView = s.actionView →
      (if (t.cell c).state == .running then t else (t.each rs withdrawRemote).dropLane c r.id l.lane).actionView =
        s.actionView := by
    intro t rs ht
    split
    · exact ht
    · exact (actionView_each (fun _ _ => actionView_withdrawRemote ..) rs).trans ht
  exact hlane _ _ (actionView_sendFor ..)

@[simp] theorem actionView_sendReqs (c id : Nat) : (s.sendReqs c id).actionView = s.actionView := by
  unfold sendReqs
  split
  · rfl
  · split
    · rfl
    · unfold sendReq1
      split
      · exact actionView_sendLoads ..
      · exact actionView_sendLoads ..
      · exact actionView_sendStores ..
      · rfl
      · rfl
      · rfl
      · exact actionView_sendAtoms ..
      · exact actionView_sendFes ..

@[simp] theorem actionView_cellPoll (c : Nat) : (s.cellPoll c).actionView = s.actionView :=
  (actionView_streamPoll ..).trans
    (actionView_each (fun _ _ => (actionView_settle ..).trans (actionView_sendReqs ..)) _)

@[simp] theorem actionView_cellAnswered (c : Nat) : (s.cellAnswered c).actionView = s.actionView :=
  actionView_cellPoll ..

end State

end Sys2Proof.Machine

/-!
PROOFS. The same of packets that end, queues that drain, collectives and the parts of a step, and so of a port that is
reset (R427) and of one that trains (R345).
-/

namespace Sys2Proof.Machine

/-- The state that a write to a completion area leaves, however it went. -/
def AreaAns.state : AreaAns → State
  | .sent s => s
  | .dropped s => s
  | .wait s => s

/-- The state that a part of a step leaves, however it went. -/
def StepAns.state : StepAns → State
  | .ok s => s
  | .wait s => s
  | .fail s _ => s

/-- The state that a step's access leaves, however it went. -/
def StepTgt.state : StepTgt → State
  | .tgt s _ => s
  | .wait s => s
  | .fail s _ => s

/-- The state that an answer leaves, whether it was taken or waits. -/
def Took.state : Took → State
  | .ok s => s
  | .error s => s

namespace State

variable (s : State)

/-! ### Completion areas (R304, R306) -/

@[simp] theorem actionView_raiseQ (q : Nat) : (s.raiseQ q).actionView = s.actionView := by
  unfold raiseQ
  split
  · rfl
  · rfl

@[simp] theorem actionView_areaOut (host : Bool) (a : Nat) (bs : List Byte) :
    (s.areaOut host a bs).state.actionView = s.actionView := by
  unfold areaOut
  split
  · split
    · exact actionView_wrCur ..
    · rfl
  · split
    · split
      · split
        · exact actionView_homeWrite ‹_›
        · rfl
      · exact actionView_each (fun _ _ => actionView_biSnoop ..) _
    · rfl

variable {s} in
theorem actionView_of_areaOut {host : Bool} {a : Nat} {bs : List Byte} {r : AreaAns} (h : s.areaOut host a bs = r) :
    r.state.actionView = s.actionView := h ▸ s.actionView_areaOut host a bs

@[simp] theorem actionView_areaPump (n : Nat) (s : State) (q : Nat) : (areaPump n s q).actionView = s.actionView := by
  induction n generalizing s with
  | zero => rfl
  | succ n ih =>
    unfold areaPump
    split
    · rfl
    · split
      · rfl
      · split
        · rw [ih]
          dsimp only
          split
          · exact actionView_raiseQ ..
          · rfl
        · split
          · rename_i h
            exact actionView_of_areaOut h
          · rename_i t h
            rw [ih]
            exact (t.actionView_satFld (f := .CFE_Q_IRQ_records_lost) (by decide) q 1).trans (actionView_of_areaOut h)
          · rename_i h
            exact actionView_of_areaOut h

@[simp] theorem actionView_areaPut (q : Nat) (ws : List (Nat × List Byte)) (irq : Bool) :
    (s.areaPut q ws irq).actionView = s.actionView := by
  unfold areaPut
  split
  · rfl
  · unfold areaNext
    split
    · exact actionView_areaPump ..
    · rfl

@[simp] theorem actionView_writeRecord (d : DonePkt) : (s.writeRecord d).actionView = s.actionView :=
  actionView_areaPut ..

@[simp] theorem actionView_recordsOut (q : Nat) : (s.recordsOut q).actionView = s.actionView := by
  refine actionView_each (fun s _ => ?_) _
  unfold recordOut
  split
  · rfl
  · exact actionView_writeRecord ..

/-! ### Packets that end (R267, R286, R301) -/

@[simp] theorem actionView_seqDone (q seq : Nat) : (s.seqDone q seq).actionView = s.actionView :=
  actionView_setFld _ (by decide) _ _

@[simp] theorem actionView_countLaunch (p : Pkt) : (s.countLaunch p).actionView = s.actionView := by
  unfold countLaunch
  split
  · exact s.actionView_meter _ (by decide) 1
  · rfl

@[simp] theorem actionView_finishPkt (p : Pkt) (code fstep : Nat) (stale cap : Bool) :
    (s.finishPkt p code fstep stale cap).actionView = s.actionView := by
  unfold finishPkt
  exact (actionView_seqDone ..).trans (actionView_countLaunch ..)

@[simp] theorem actionView_capture (q : Nat) (p : Option Pkt) (code : Nat) (budget : Bool) (epoch : Nat)
    (entries : List (List Byte)) : (s.capture q p code budget epoch entries).1.actionView = s.actionView := by
  unfold capture
  dsimp only
  rw [actionView_satFld _ (by decide), actionView_setFld _ (by decide), actionView_setFld _ (by decide)]

@[simp] theorem actionView_stopQueue (q : Nat) (p : Option Pkt) (code step epoch : Nat) (entries : List (List Byte)) :
    (s.stopQueue q p code step epoch entries).actionView = s.actionView := by
  unfold stopQueue
  dsimp only
  rw [actionView_areaPut, actionView_capture, actionView_satFld _ (by decide), apply_ite actionView]
  simp [actionView_setFlds, actionFlds]

@[simp] theorem actionView_failPkt (p : Pkt) (code epoch : Nat) (entries : List (List Byte)) :
    (s.failPkt p code epoch entries).actionView = s.actionView := by
  unfold failPkt
  dsimp only
  split
  · exact actionView_stopQueue ..
  · exact actionView_finishPkt ..

@[simp] theorem actionView_endPkt (p : Pkt) (code : Nat) : (s.endPkt p code).actionView = s.actionView := by
  unfold endPkt
  split
  · exact actionView_finishPkt ..
  · exact actionView_failPkt ..

/-! ### Queues that drain (R287, R313) -/

@[simp] theorem actionView_dropPkt (p : Pkt) : (s.dropPkt p).actionView = s.actionView :=
  (actionView_seqDone ..).trans (actionView_countLaunch ..)

@[simp] theorem actionView_drainRecord (q : Nat) : (s.drainRecord q).actionView = s.actionView :=
  (actionView_writeRecord ..).trans (actionView_recordsOut ..)

@[simp] theorem actionView_endAwaiting (p : Pkt → Bool) : (s.endAwaiting p).actionView = s.actionView :=
  actionView_each (fun _ _ => actionView_endPkt ..) _

@[simp] theorem actionView_queueOff (q : Nat) : (s.queueOff q).actionView = s.actionView := by
  unfold queueOff
  rw [actionView_setQueue, actionView_setFlds _ _ (by simp [actionFlds]), actionView_setFld _ (by decide)]

@[simp] theorem actionView_ascCheck (a : Nat) : (s.ascCheck a).actionView = s.actionView := by
  unfold ascCheck
  dsimp only
  split
  · rfl
  · rw [actionView_endAwaiting, actionView_each (fun _ _ => actionView_endAwaiting ..),
      actionView_setFlds _ _ (by simp [actionFlds]), actionView_setFld _ (by decide),
      actionView_each (fun _ _ => (actionView_queueOff ..).trans (actionView_drainRecord ..))]
    rfl

@[simp] theorem actionView_drainCheck (q : Nat) : (s.drainCheck q).actionView = s.actionView := by
  unfold drainCheck
  dsimp only
  split
  · rfl
  · split
    · rfl
    · exact actionView_ascCheck ..
    · rw [actionView_endAwaiting, actionView_queueOff, actionView_drainRecord]
    · rw [actionView_endAwaiting, actionView_setQueue, actionView_setFlds _ _ (by simp [actionFlds]),
        actionView_drainRecord]

/-! ### Collectives that end (R370) -/

@[simp] theorem actionView_collSend (tag : Option Nat) (type dst g cseq arg : Nat) (data : List Byte) :
    (s.collSend tag type dst g cseq arg data).actionView = s.actionView :=
  (actionView_fabricBytes ..).trans (actionView_sendOrDrop ..)

@[simp] theorem actionView_collStop (q seq : Nat) : (s.collStop q seq).actionView = s.actionView := by
  unfold collStop
  split
  · rfl
  · unfold collAbortOut
    dsimp only
    split
    · exact actionView_collSend ..
    · exact (actionView_collSend ..).trans (actionView_collSend ..)

@[simp] theorem actionView_collFail (q seq code : Nat) (tell : Bool) :
    (s.collFail q seq code tell).actionView = s.actionView := by
  unfold collFail
  split
  · dsimp only
    rw [actionView_failPkt]
    split
    · exact actionView_collStop ..
    · rfl
  · rfl

@[simp] theorem actionView_collLost (g c : Nat) : (s.collLost g c).actionView = s.actionView := by
  unfold collLost
  split
  · exact actionView_collFail ..
  · rfl

/-! ### The parts of a step (R153, R186, R308) -/

@[simp] theorem actionView_holdMark (p : Pkt) : (s.holdMark p).actionView = s.actionView := by
  unfold holdMark
  split
  · rfl
  · rfl

@[simp] theorem actionView_stepAccess (p : Pkt) (va n : Nat) (need : Need) :
    (s.stepAccess p va n need).state.actionView = s.actionView := by
  unfold stepAccess
  dsimp only
  split
  · rename_i h
    exact (actionView_biSnoop ..).trans (actionView_of_access h)
  · rename_i h
    exact actionView_of_access h
  · rename_i t u h
    have hu := actionView_of_access h
    split
    · exact hu
    · split
      · rename_i x _
        have hheld : ∀ w over_ : Bool, (if w && over_ then StepTgt.tgt u t else
            .wait (if w then (u.biSnoop x w).holdMark p else u.biSnoop x w)).state.actionView = u.actionView := by
          intro w over_
          rw [apply_ite StepTgt.state, apply_ite actionView]
          dsimp only [StepTgt.state]
          rw [apply_ite actionView, actionView_holdMark, actionView_biSnoop, ite_self, ite_self]
        exact (hheld _ _).trans hu
      · exact hu

variable {s} in
theorem actionView_of_stepAccess {p : Pkt} {va n : Nat} {need : Need} {r : StepTgt} (h : s.stepAccess p va n need = r) :
    r.state.actionView = s.actionView := h ▸ s.actionView_stepAccess p va n need

@[simp] theorem actionView_stepSend (p : Pkt) (dev a : Nat) (bs : List Byte) (off : Nat) (crc : Option Nat) :
    (s.stepSend p dev a bs off crc).state.actionView = s.actionView := by
  unfold stepSend
  refine List.foldlRecOn (motive := fun x : StepAns => x.state.actionView = s.actionView) _ _ rfl fun x hx c _ => ?_
  split
  · dsimp only
    split
    · exact (actionView_sendReq ‹_›).trans hx
    · exact hx
  · exact hx

@[simp] theorem actionView_linesPut (tag : Option Nat) (t : Target) (bs : List Byte) :
    (s.linesPut tag t bs).actionView = s.actionView := by
  refine actionView_each (fun s c => ?_) _
  have hread : (if c.2 < 128 then s.takeBad1 (t.plus c.1) else (s, false)).1.actionView = s.actionView := by
    split
    · exact actionView_takeBad1 ..
    · rfl
  dsimp only
  rw [apply_ite actionView, actionView_mayLand, hread, actionView_getD fun _ h => actionView_spanPut h, ite_self]

@[simp] theorem actionView_stepPut (p : Pkt) (t : Target) (bs : List Byte) (off : Nat) (whole : Option (Option Nat)) :
    (s.stepPut p t bs off whole).state.actionView = s.actionView := by
  have hspan : ∀ u : State, ((u.spanPut p.tag t bs whole).getD u).actionView = u.actionView :=
    fun u => actionView_getD fun _ h => actionView_spanPut h
  unfold stepPut
  split
  · exact actionView_stepSend ..
  · rw [apply_ite StepAns.state]
    dsimp only [StepAns.state]
    rw [apply_ite actionView, actionView_hostDrop, actionView_hostDrop, actionView_wrCur, hspan, ite_self]
  · split
    · rfl
    · rename_i u hplace
      refine Eq.trans ?_ (actionView_place hplace)
      split
      · exact actionView_linesPut ..
      · exact hspan u

@[simp] theorem actionView_copyIn (p : Pkt) (off : Nat) (data : List Byte) :
    (s.copyIn p off data).state.actionView = s.actionView := by
  unfold copyIn
  split
  · split
    · rename_i h
      exact actionView_of_stepAccess h
    · rename_i h
      exact actionView_of_stepAccess h
    · rename_i h
      exact (actionView_stepPut ..).trans (actionView_of_stepAccess h)
  · dsimp only
    split
    · rfl
    · split
      · rename_i h
        exact actionView_of_stepAccess h
      · rename_i h
        exact actionView_of_stepAccess h
      · rename_i h
        exact (actionView_stepPut ..).trans (actionView_of_stepAccess h)

variable {s} in
theorem actionView_of_copyIn {p : Pkt} {off : Nat} {data : List Byte} {r : StepAns} (h : s.copyIn p off data = r) :
    r.state.actionView = s.actionView := h ▸ s.actionView_copyIn p off data

@[simp] theorem actionView_dropOwed (q seq : Nat) : (s.dropOwed q seq).actionView = s.actionView :=
  actionView_each (fun _ _ => actionView_endReq ..) _

@[simp] theorem actionView_copyFail (p : Pkt) (code off : Nat) : (s.copyFail p code off).actionView = s.actionView := by
  unfold copyFail
  dsimp only
  split
  · rw [actionView_drainCheck, actionView_dropPkt, actionView_offEngine, actionView_dropOwed]
  · rw [actionView_failPkt, actionView_offEngine, actionView_dropOwed]

@[simp] theorem actionView_pieceEnd (p : Pkt) : (s.pieceEnd p).actionView = s.actionView := by
  unfold pieceEnd
  split
  · rw [actionView_drainCheck, actionView_dropPkt, actionView_offEngine, actionView_dropOwed]
  · split
    · rw [actionView_endPkt, actionView_offEngine]
    · rfl

/-! ### FE_WAIT performed (R275) -/

@[simp] theorem actionView_feDst (p : Pkt) : (s.feDst p).2.actionView = s.actionView := by
  unfold feDst
  dsimp only
  split
  · rfl
  · exact actionView_access ..

variable {s} in
theorem actionView_of_feDst {p : Pkt} {r : Option (Except MFault Target)} {t : State} (h : s.feDst p = (r, t)) :
    t.actionView = s.actionView := by
  rw [← s.actionView_feDst p, h]

@[simp] theorem actionView_feDstSnoop (p : Pkt) : (s.feDstSnoop p).actionView = s.actionView := by
  unfold feDstSnoop
  split
  · rename_i h
    exact (actionView_biSnoop ..).trans (actionView_of_feDst h)
  · rename_i h
    exact (actionView_biSnoop ..).trans (actionView_of_feDst h)
  · rename_i h
    exact actionView_of_feDst h

@[simp] theorem actionView_feWaitDone (p : Pkt) (v : Nat) : (s.feWaitDone p v).actionView = s.actionView := by
  unfold feWaitDone
  split
  · rename_i h
    exact (actionView_endPkt ..).trans (actionView_of_feDst h)
  · rename_i h
    exact (actionView_failPkt ..).trans (actionView_of_feDst h)
  · rename_i h
    refine Eq.trans ?_ (actionView_of_feDst h)
    split
    · exact actionView_failPkt ..
    · split
      · rw [actionView_endPkt, actionView_hostDrop, actionView_wrCur]
      · dsimp only
        split
        · exact (actionView_modPkt ..).trans (actionView_sendReq ‹_›)
        · exact actionView_failPkt ..
      · split
        · exact (actionView_endPkt ..).trans (actionView_homeWrite ‹_›)
        · exact actionView_endPkt ..

/-! ### Answers of peers (R360) -/

theorem actionView_stepReply (r : RemReq) (q seq off status : Nat) (data : List Byte) :
    (Took.state (s.stepReply r q seq off status data)).actionView = s.actionView := by
  unfold stepReply
  split
  · rfl
  · dsimp only
    split
    · dsimp only [Took.state]
      split
      · exact actionView_copyFail ..
      · exact (actionView_failPkt ..).trans (actionView_dropOwed ..)
    · split
      · split
        · exact actionView_feWaitDone ..
        · exact actionView_feDstSnoop ..
      · split
        · split
          · rename_i h
            exact actionView_of_copyIn h
          · rename_i h
            exact (actionView_copyFail ..).trans (actionView_of_copyIn h)
          · rename_i h
            refine Eq.trans ?_ (actionView_of_copyIn h)
            dsimp only [Took.state]
            split
            · rfl
            · exact actionView_pieceEnd ..
        · split
          · dsimp only [Took.state]
            split
            · rfl
            · exact actionView_pieceEnd ..
          · dsimp only [Took.state]
            split
            · rfl
            · exact actionView_endPkt ..

/-! ### What a lost link answers (R358, R360, R408, R427) -/

@[simp] theorem actionView_laneReply (r : RemReq) (c id status : Nat) (data : List Byte) :
    (s.laneReply r c id status data).actionView = s.actionView := by
  unfold laneReply
  split
  · rfl
  · dsimp only
    rw [actionView_cellAnswered, actionView_settle]
    split
    · split
      · rw [actionView_setLanes, actionView_lostUnit]
      · exact actionView_setLanes ..
    · split
      · split
        · split
          · exact actionView_each (fun _ _ => actionView_setLane ..) _
          · exact actionView_each (fun _ _ => actionView_setLane ..) _
        · exact actionView_each (fun _ _ => actionView_setLane ..) _
      · exact actionView_each (fun _ _ => actionView_setLane ..) _
      · exact actionView_each (fun _ _ => actionView_setLane ..) _
      · exact actionView_setLanes ..
      · exact (actionView_setLanes ..).trans (actionView_each (fun _ _ => actionView_l1Drop ..) _)

@[simp] theorem actionView_probed (dst since k : Nat) : (s.probed dst since k).actionView = s.actionView := by
  unfold probed judgeRoute
  dsimp only
  rw [actionView_setLink, actionView_setFld _ (by decide), actionView_setFld _ (by decide)]
  rfl

theorem actionView_remAnswer (r : RemReq) (status arg : Nat) (data : List Byte) :
    (Took.state (s.remAnswer r status arg data)).actionView = s.actionView := by
  refine Eq.trans ?_ (s.actionView_endReq r.tid (status == 4))
  unfold remAnswer
  dsimp only
  split
  · exact actionView_laneReply ..
  · dsimp only [Took.state]
    rw [actionView_cellAnswered, apply_ite actionView, actionView_lostUnit, ite_self]
  · split
    · exact actionView_stepReply ..
    · rfl
  · split
    · rfl
    · dsimp only [Took.state]
      rw [apply_ite actionView, actionView_finishPkt, actionView_failPkt, ite_self]
  · dsimp only [Took.state]
    rw [apply_ite actionView, actionView_probed, ite_self]

/-- Of an answer that has to wait only the wait is kept: the host's side and the packets' marks. -/
theorem actionView_or {r : Took} (h : r.state.actionView = s.actionView) : (r.or s).actionView = s.actionView := by
  cases r with
  | ok t => exact h
  | error t => rfl

@[simp] theorem actionView_frameLost (x : TxFrame) : (s.frameLost x).actionView = s.actionView := by
  unfold frameLost
  dsimp only
  split
  · split
    · exact actionView_collLost ..
    · rfl
  · split
    · rfl
    · split
      · split
        · exact actionView_or _ (actionView_remAnswer ..)
        · rfl
      · split
        · exact actionView_sendOrDrop ..
        · rfl

@[simp] theorem actionView_relayPoll : s.relayPoll.actionView = s.actionView := by
  unfold relayPoll
  split
  · rfl
  · dsimp only
    refine (actionView_each (fun s x => ?_) _).trans rfl
    split
    · exact actionView_endPkt ..
    · rfl

@[simp] theorem actionView_linkLost (k : Nat) (l : Link) : (s.linkLost k l).actionView = s.actionView := by
  unfold linkLost
  dsimp only
  rw [actionView_relayPoll, actionView_satFld _ (by decide), actionView_each fun _ _ => actionView_frameLost ..,
    actionView_setLink]

theorem actionView_portLost (p st : Nat) : (s.portLost p st).actionView = s.actionView := by
  unfold portLost
  refine (actionView_each (fun _ _ => actionView_linkLost ..) _).trans ?_
  exact actionView_setFlds s p (l := [(.FAB_PORT_STATUS_state, st), (.FAB_PORT_STATUS_lanes_up, 0)]) (by simp [actionFlds])

theorem actionView_bumpEpoch (u : Nat) : (s.bumpEpoch u).actionView = s.actionView := by
  unfold bumpEpoch
  rw [actionView_satFld _ (by decide), actionView_setFld _ (by decide)]

/-- R427: whatever the reset of a Silit port answers, drops or ends, no action of RAS_PRESET_CTL begins or ends by it,
and the engines run on. -/
theorem actionView_portReset (p : Nat) : (s.portReset p).actionView = s.actionView :=
  (actionView_portLost ..).trans (actionView_bumpEpoch ..)

/-! ### A port that trains (R343 to R345, R355, R358) -/

@[simp] theorem actionView_replayAll (p k : Nat) : (s.replayAll p k).actionView = s.actionView := by
  unfold replayAll
  dsimp only
  split
  · rfl
  · rw [actionView_each fun _ _ => actionView_logHdr .., actionView_satFld _ (by decide), actionView_setLink]

@[simp] theorem actionView_sendProbe (dst : Nat) : (s.sendProbe dst).actionView = s.actionView := by
  unfold sendProbe
  split
  · rfl
  · split
    · rfl
    · dsimp only
      refine (actionView_of_regs rfl rfl rfl).trans ((actionView_putOnLink ..).trans ?_)
      exact actionView_each (fun _ _ => actionView_endReq ..) _

theorem actionView_portResult (p : Nat) (t : Training) : (s.portResult p t).actionView = s.actionView := by
  have hset : ∀ st lanes, (s.setFlds p [(.FAB_PORT_STATUS_state, st), (.FAB_PORT_STATUS_lanes_up, lanes)]).actionView =
      s.actionView := fun st lanes => actionView_setFlds s p (by simp [actionFlds])
  unfold portResult
  generalize (if s.linksHeld then (portDown, 0) else s.trainResult p t) = r
  dsimp only
  split
  · rfl
  · split
    · rw [actionView_pump, actionView_replayAll]
      exact hset _ _
    · exact hset _ _

theorem actionView_portTrained (p : Nat) (t : Training) : (s.portTrained p t).actionView = s.actionView := by
  refine Eq.trans ?_ (s.actionView_portResult p t)
  unfold portTrained probeVia
  split
  · exact actionView_each actionView_sendProbe _
  · rfl

end State

end Sys2Proof.Machine

/-!
PROOFS. The actions of RAS_PRESET_CTL on sites, far-tier ports and Silit ports (R229, R230, R425 to R427).
-/

namespace Sys2Proof.Machine

section
variable {s t : State} {kind i act : Nat}

/-! ### What an action under way rests on (R426, R430) -/

theorem State.fld_of_actionView (h : t.actionView = s.actionView) {f : Fld} (hf : f ∈ actionFlds) :
    t.fld f 0 = s.fld f 0 := by
  have hmap : actionFlds.map (t.fld · 0) = actionFlds.map (s.fld · 0) := congrArg (·.2.2) h
  exact List.map_inj_left.mp hmap f hf

theorem State.alive_of_actionView (h : t.actionView = s.actionView) : t.alive = s.alive := by
  have hpwr : t.pwr = s.pwr := congrArg (·.1) h
  rw [State.alive, State.serves, hpwr, State.fld_of_actionView h (by decide), State.alive, State.serves]

theorem State.presetOn_of_actionView (h : t.actionView = s.actionView) : t.presetOn kind i act = s.presetOn kind i act := by
  have hflag : t.flag .RAS_PRESET_STATUS_busy 0 = s.flag .RAS_PRESET_STATUS_busy 0 := by
    rw [State.flag, State.fld_of_actionView h (by decide), State.flag]
  rw [State.presetOn, State.presetIs, hflag, State.fld_of_actionView (f := .RAS_PRESET_CTL_kind) h (by decide),
    State.fld_of_actionView (f := .RAS_PRESET_CTL_index) h (by decide),
    State.fld_of_actionView (f := .RAS_PRESET_CTL_action) h (by decide), State.presetOn, State.presetIs]

theorem State.siliOff_of_actionView (h : t.actionView = s.actionView) : t.siliOff = s.siliOff := congrArg (·.2.1) h

/-- A field set to what it holds. -/
theorem State.actionView_setFld_same {f : Fld} {v : Nat} (h : s.fld f 0 = v % 2 ^ f.desc.width) :
    (s.setFld f 0 v).actionView = s.actionView := by
  refine State.actionView_congr rfl rfl fun g _ => ?_
  by_cases hg : g = f
  · rw [hg, State.fld_setFld_self, h]
  · rw [State.fld_setFld_ne _ _ _ _ hg]

/-! ### An action begins (R426) -/

/-- The fields that note an action of RAS_PRESET_CTL as it begins. -/
def notedFlds (kind i act : Nat) : List (Fld × Nat) :=
  [(.RAS_PRESET_CTL_kind, kind), (.RAS_PRESET_CTL_index, i), (.RAS_PRESET_CTL_action, act), (.RAS_PRESET_STATUS_busy, 1),
    (.RAS_PRESET_STATUS_failed, 0)]

/-- R426: an action noted, in progress. -/
def State.presetNoted (s : State) (kind i act : Nat) : State :=
  let t := s.setFlds 0 (notedFlds kind i act)
  if act = actEvacuate then t.setFld .RAS_PRESET_STATUS_evac_failed 0 0 else t

/-- The state in which an action has begun. -/
def State.presetBegun (s : State) (kind i act : Nat) : State := (s.presetNoted kind i act).presetFirst kind i act

theorem State.presetBegin_eq : s.presetBegin kind i act =
    if s.flag .RAS_PRESET_STATUS_busy 0 || !s.presetLegal kind i act then none else some (s.presetBegun kind i act) := rfl

theorem State.presetBegin_none (h : s.fld .RAS_PRESET_STATUS_busy 0 ≠ 0 ∨ s.presetLegal kind i act = false) :
    s.presetBegin kind i act = none := by
  rw [State.presetBegin_eq, if_pos]
  simpa [State.flag] using h

theorem State.presetBegin_some (hb : s.fld .RAS_PRESET_STATUS_busy 0 = 0) (hl : s.presetLegal kind i act = true) :
    s.presetBegin kind i act = some (s.presetBegun kind i act) := by
  rw [State.presetBegin_eq, if_neg]
  simp [State.flag, hb, hl]

theorem State.presetNoted_only : s.presetNoted kind i act = { s with regs := (s.presetNoted kind i act).regs } := by
  unfold State.presetNoted
  dsimp only
  split
  · rw [State.setFlds_only]
    rfl
  · exact State.setFlds_only ..

theorem State.fld_presetNoted {f : Fld} {v : Nat} (h : (f, v) ∈ notedFlds kind i act) :
    (s.presetNoted kind i act).fld f 0 = v % 2 ^ f.desc.width := by
  have hset : (s.setFlds 0 (notedFlds kind i act)).fld f 0 = v % 2 ^ f.desc.width :=
    State.fld_setFlds_of_mem (by simp [notedFlds]) h
  have hne : f ≠ .RAS_PRESET_STATUS_evac_failed := by
    have hall : ∀ e ∈ notedFlds kind i act, e.1 ≠ .RAS_PRESET_STATUS_evac_failed := by simp [notedFlds]
    exact hall _ h
  unfold State.presetNoted
  dsimp only
  split
  · rw [State.fld_setFld_ne _ _ _ _ hne, hset]
  · exact hset

/-- The fields of RAS_PRESET_CTL and RAS_PRESET_STATUS. -/
def presetFlds : List Fld :=
  [.RAS_PRESET_CTL_kind, .RAS_PRESET_CTL_index, .RAS_PRESET_CTL_action, .RAS_PRESET_STATUS_busy,
    .RAS_PRESET_STATUS_failed, .RAS_PRESET_STATUS_evac_failed]

theorem State.fld_presetNoted_ne {f : Fld} (h : f ∉ presetFlds) (j : Nat) :
    (s.presetNoted kind i act).fld f j = s.fld f j := by
  have hne : ∀ g ∈ presetFlds, g ≠ f := fun g hg => ne_of_mem_of_not_mem hg h
  have hset : (s.setFlds 0 (notedFlds kind i act)).fld f j = s.fld f j := by
    refine State.fld_setFlds_ne _ _ _ _ fun e he => hne e.1 ?_
    have hall : ∀ e ∈ notedFlds kind i act, e.1 ∈ presetFlds := by simp [notedFlds, presetFlds]
    exact hall e he
  unfold State.presetNoted
  dsimp only
  split
  · rw [State.fld_setFld_ne _ _ _ _ (hne _ (by decide)).symm, hset]
  · exact hset

theorem State.busy_presetNoted : (s.presetNoted kind i act).fld .RAS_PRESET_STATUS_busy 0 = 1 :=
  State.fld_presetNoted (v := 1) (by simp [notedFlds])

theorem State.alive_presetNoted : (s.presetNoted kind i act).alive = s.alive := by
  have hboot : (s.presetNoted kind i act).fld .HIF_PROMPT_STATE_boot_state 0 = s.fld .HIF_PROMPT_STATE_boot_state 0 :=
    State.fld_presetNoted_ne (by decide) 0
  have hpwr : (s.presetNoted kind i act).pwr = s.pwr := by rw [State.presetNoted_only]
  rw [State.alive, State.serves, hboot, hpwr, State.alive, State.serves]

theorem State.presetOn_presetNoted (hk : kind < 4) (hi : i < 16) (ha : act < 8) :
    (s.presetNoted kind i act).presetOn kind i act = true := by
  have hkind : (s.presetNoted kind i act).fld .RAS_PRESET_CTL_kind 0 = kind :=
    (State.fld_presetNoted (by simp [notedFlds])).trans (Nat.mod_eq_of_lt hk)
  have hindex : (s.presetNoted kind i act).fld .RAS_PRESET_CTL_index 0 = i :=
    (State.fld_presetNoted (by simp [notedFlds])).trans (Nat.mod_eq_of_lt hi)
  have haction : (s.presetNoted kind i act).fld .RAS_PRESET_CTL_action 0 = act :=
    (State.fld_presetNoted (by simp [notedFlds])).trans (Nat.mod_eq_of_lt ha)
  simp [State.presetOn, State.presetIs, State.flag, State.busy_presetNoted, hkind, hindex, haction]

/-! ### Commands that begin an action, and commands that end it too (R426; log entry 29) -/

theorem State.presetGo_none (h : s.presetBegin kind i act = none) : s.presetGo kind i act = s := by
  rw [State.presetGo, h, Option.getD_none, ite_self]

theorem State.presetGo_some (hr : s.ready = true) (h : s.presetBegin kind i act = some t) :
    s.presetGo kind i act = t := by
  rw [State.presetGo, if_pos hr, h, Option.getD_some]

theorem State.presetGo_runs (hr : s.ready = true) (hb : s.fld .RAS_PRESET_STATUS_busy 0 = 0)
    (hl : s.presetLegal kind i act = true) :
    (.next (s.presetGo kind i act) : Out) = .next (s.presetBegun kind i act) :=
  congrArg Host.Outcome.next (State.presetGo_some hr (State.presetBegin_some hb hl))

/-- The end of an action with the outcome of training: `busy` 0, and `failed` where the unit did not return to
service. -/
def State.presetEnded (r : State × Bool) : State :=
  r.1.setFlds 0 [(.RAS_PRESET_STATUS_busy, 0), (.RAS_PRESET_STATUS_failed, b2n (!r.2))]

section
variable {fin : State → State × Bool}

theorem State.presetDo_none (hon : s.presetOn kind i act = false) (h : s.presetBegin kind i act = none) :
    s.presetDo kind i act fin = s := by
  rw [State.presetDo, hon, if_neg Bool.false_ne_true, h]
  exact ite_self s

theorem State.presetDo_ends (hr : s.ready = true)
    (h : (if s.presetOn kind i act then some s else s.presetBegin kind i act) = some t) (ha : t.alive = true)
    (hon : t.presetOn kind i act = true) : s.presetDo kind i act fin = State.presetEnded (fin t) := by
  have hready : ¬ (!s.ready) = true := by simp [hr]
  have hgo : ¬ (!t.alive || !t.presetOn kind i act) = true := by simp [ha, hon]
  rw [State.presetDo, if_neg hready, h]
  exact if_neg hgo

theorem State.busy_presetEnded (r : State × Bool) : (State.presetEnded r).fld .RAS_PRESET_STATUS_busy 0 = 0 :=
  State.fld_setFlds_of_mem (v := 0) (by simp) (by simp)

theorem State.failed_presetEnded (r : State × Bool) :
    (State.presetEnded r).fld .RAS_PRESET_STATUS_failed 0 = if r.2 then 0 else 1 := by
  refine (State.fld_setFlds_of_mem (v := b2n (!r.2)) (by simp) (by simp)).trans ?_
  cases r.2 with
  | true => rfl
  | false => rfl

theorem State.presetEnded_only (r : State × Bool) :
    State.presetEnded r = { r.1 with regs := (State.presetEnded r).regs } := State.setFlds_only ..

theorem State.fld_presetEnded_ne (r : State × Bool) {f : Fld} (h : f ∉ presetFlds) (j : Nat) :
    (State.presetEnded r).fld f j = r.1.fld f j := by
  refine State.fld_setFlds_ne _ _ _ _ fun e he => ?_
  have hall : ∀ e ∈ ([(.RAS_PRESET_STATUS_busy, 0), (.RAS_PRESET_STATUS_failed, b2n (!r.2))] : List (Fld × Nat)),
      e.1 ∈ presetFlds := by simp [presetFlds]
  exact ne_of_mem_of_not_mem (hall e he) h

theorem State.siliOff_presetEnded (r : State × Bool) : (State.presetEnded r).siliOff = r.1.siliOff := by
  rw [State.presetEnded_only]

/-- An action that is legal, and that leaves the engines running and itself under way as it begins, ends at once. -/
theorem State.presetDo_runs (hr : s.ready = true) (hb : s.fld .RAS_PRESET_STATUS_busy 0 = 0)
    (hl : s.presetLegal kind i act = true) (hk : kind < 4) (hi : i < 16) (hact : act < 8)
    (hview : (s.presetBegun kind i act).actionView = (s.presetNoted kind i act).actionView) :
    (.next (s.presetDo kind i act fin) : Out) = .next (State.presetEnded (fin (s.presetBegun kind i act))) := by
  have hoff : s.presetOn kind i act = false := by simp [State.presetOn, State.presetIs, State.flag, hb]
  refine congrArg Host.Outcome.next (State.presetDo_ends hr ?_ ?_ ?_)
  · rw [hoff, if_neg Bool.false_ne_true, State.presetBegin_some hb hl]
  · rw [State.alive_of_actionView hview, State.alive_presetNoted, State.alive_of_ready hr]
  · rw [State.presetOn_of_actionView hview, State.presetOn_presetNoted hk hi hact]

end
end

/-! ### The eleven commands of the units (R425 to R427) -/

section
variable (site : Fin 12) (p : Fin 4) (q : Fin 12) (ok : Bool) (e : PortEnum) (l : Training)

/-- The commands that only begin an action, each with its kind of unit, index and action. -/
def beginCommands : List (Instr × Nat × Nat × Nat) :=
  [(.siteEvacuate site, 0, site.val, actEvacuate), (.sitePowerDown site, 0, site.val, actDown),
    (.farPortEvacuate p, 1, p.val, actEvacuate), (.farPortPowerDown p, 1, p.val, actDown),
    (.silitPortPowerDown q, 2, q.val, actDown)]

/-- The commands that end an action, too, each with its kind of unit, index, action and outcome. -/
def endCommands : List (Instr × Nat × Nat × Nat × (State → State × Bool)) :=
  [(.siteReset site ok, 0, site.val, actReset, fun s => (s.siteTrained site.val ok, ok)),
    (.sitePowerUp site ok, 0, site.val, actUp, fun s => (s.siteTrained site.val ok, ok)),
    (.farPortReset p e, 1, p.val, actReset, fun s => (s.enumerate p.val e, e.trained && !s.linksHeld)),
    (.farPortPowerUp p e, 1, p.val, actUp, fun s => (s.enumerate p.val e, e.trained && !s.linksHeld)),
    (.silitPortReset q l, 2, q.val, actReset, fun s => s.siliFin q.val l),
    (.silitPortPowerUp q l, 2, q.val, actUp, fun s => s.siliFin q.val l)]

variable {site p q ok e l}

theorem exec_beginCommand {r : Instr × Nat × Nat × Nat} (h : r ∈ beginCommands site p q) (s : State) :
    exec r.1 s = .next (s.presetGo r.2.1 r.2.2.1 r.2.2.2) := by
  simp only [beginCommands, List.mem_cons, List.not_mem_nil, or_false] at h
  obtain rfl | rfl | rfl | rfl | rfl := h
  · rfl
  · rfl
  · rfl
  · rfl
  · rfl

theorem exec_endCommand {r : Instr × Nat × Nat × Nat × (State → State × Bool)} (h : r ∈ endCommands site p q ok e l)
    (s : State) : exec r.1 s = .next (s.presetDo r.2.1 r.2.2.1 r.2.2.2.1 r.2.2.2.2) := by
  simp only [endCommands, List.mem_cons, List.not_mem_nil, or_false] at h
  obtain rfl | rfl | rfl | rfl | rfl | rfl := h
  · rfl
  · rfl
  · rfl
  · rfl
  · rfl
  · rfl

end

section
variable {s : State} {site : Fin 12} {p : Fin 4} {q : Fin 12} {i : Nat}

/-! ### Actions on sites -/

theorem State.presetLegal_siteUp (hi : i < 12) (h : s.fld .MEM_SITE_STATUS_state i = siteOff) :
    s.presetLegal 0 i actUp = true := by simp [State.presetLegal, actUp, hi, h]

theorem State.presetLegal_siteReset (hi : i < 12) (h : s.fld .MEM_SITE_STATUS_state i = siteFailed) :
    s.presetLegal 0 i actReset = true := by simp [State.presetLegal, actReset, hi, h]

theorem State.presetLegal_siteEvacuate (hi : i < 12) (h : s.fld .MEM_SITE_STATUS_state i = siteOnline) :
    s.presetLegal 0 i actEvacuate = true := by simp [State.presetLegal, actEvacuate, hi, h]

theorem State.presetLegal_siteDown (h : s.fld .MEM_SITE_STATUS_state site.val = siteOnline)
    (he : s.evac.contains (.site site) = true) (hp : s.pagesAt site.val = 0) :
    s.presetLegal 0 site.val actDown = true := by
  have hevac : s.evac.any (fun u => match u with | .site x => x.val == site.val | .port _ => false) = true :=
    List.any_eq_true.mpr ⟨_, List.contains_iff_mem.mp he, beq_self_eq_true _⟩
  have hi : decide (site.val < 12) = true := decide_eq_true site.isLt
  have hcond : (s.fld .MEM_SITE_STATUS_state site.val == siteOnline && s.evac.any (fun u => match u with
      | .site x => x.val == site.val | .port _ => false) && s.pagesAt site.val == 0) = true := by
    rw [h, hevac, hp]
    rfl
  exact Bool.and_eq_true_iff.mpr ⟨hi, hcond⟩

theorem State.fld_siteTrained (ok : Bool) :
    (s.siteTrained i ok).fld .MEM_SITE_STATUS_state i = if ok then siteOnline else siteFailed := by
  cases ok with
  | true => exact State.fld_setFlds_of_mem (v := siteOnline) (by decide) (by decide)
  | false => exact State.fld_setFld_self ..

theorem State.fld_siteEnded (ok : Bool) : (State.presetEnded (s.siteTrained i ok, ok)).fld .MEM_SITE_STATUS_state i =
    if ok then siteOnline else siteFailed := by
  rw [State.fld_presetEnded_ne _ (by decide)]
  exact State.fld_siteTrained ok

/-- R426: a FAILED site that resets is RESETTING. -/
theorem State.presetBegun_siteReset (hr : s.ready = true) (h : s.fld .MEM_SITE_STATUS_state i = siteFailed) :
    s.presetBegun 0 i actReset = ((s.presetNoted 0 i actReset).setFld .MEM_SITE_STATUS_state i
      siteResetting).setFld .RAS_PRESET_STATUS_busy 0 1 := by
  have hstate : (s.presetNoted 0 i actReset).fld .MEM_SITE_STATUS_state i = siteFailed := by
    rw [State.fld_presetNoted_ne (by decide), h]
  have hrun : (s.presetNoted 0 i actReset).alive = true := by rw [State.alive_presetNoted, State.alive_of_ready hr]
  have hbegun : s.presetBegun 0 i actReset =
      (let t := if (s.presetNoted 0 i actReset).fld .MEM_SITE_STATUS_state i = siteFailed then s.presetNoted 0 i actReset
        else (s.presetNoted 0 i actReset).siteFail i
      if t.alive then (t.setFld .MEM_SITE_STATUS_state i siteResetting).setFld .RAS_PRESET_STATUS_busy 0 1 else t) := rfl
  rw [hbegun, if_pos hstate]
  exact if_pos hrun

theorem State.actionView_siteReset (hr : s.ready = true) (h : s.fld .MEM_SITE_STATUS_state i = siteFailed) :
    (s.presetBegun 0 i actReset).actionView = (s.presetNoted 0 i actReset).actionView := by
  rw [State.presetBegun_siteReset hr h, State.actionView_setFld_same, State.actionView_setFld _ (by decide)]
  rw [State.fld_setFld_ne _ _ _ _ (by decide), State.busy_presetNoted]
  rfl

theorem State.presetBegun_siteUp : s.presetBegun 0 i actUp =
    (s.presetNoted 0 i actUp).setFld .MEM_SITE_STATUS_state i siteTraining := rfl

theorem State.actionView_siteUp : (s.presetBegun 0 i actUp).actionView = (s.presetNoted 0 i actUp).actionView := by
  rw [State.presetBegun_siteUp, State.actionView_setFld _ (by decide)]

theorem State.presetBegun_siteEvacuate : s.presetBegun 0 site.val actEvacuate =
    (s.presetNoted 0 site.val actEvacuate).beginEvac (.site site) := dif_pos site.isLt

theorem State.fld_setFlds_other {f : Fld} {j : Nat} (h : j ≠ i) (l : List (Fld × Nat)) :
    (s.setFlds i l).fld f j = s.fld f j := by
  induction l generalizing s with
  | nil => rfl
  | cons e l ih => exact ih.trans (s.fld_setFld_other _ _ _ _ _ fun hg => h hg.2)

/-- R425: a site that leaves service, another site of its MID in service: the package runs on. -/
theorem State.fld_siteGone {st j : Nat} (hst : st % 2 ^ Fld.MEM_SITE_STATUS_state.desc.width = st) (hj : j < 12)
    (hij : j ≠ i) (hmid : j / 3 = i / 3) (hup : s.locUp j = true) :
    (s.siteGone i st).fld .MEM_SITE_STATUS_state i = st := by
  have hother : (s.setFlds i [(.MEM_SITE_STATUS_state, st), (.MEM_SITE_STATUS_dump_region, 0)]).locUp j = true := by
    rw [State.locUp, if_pos hj] at hup ⊢
    rw [State.fld_setFlds_other hij, hup]
  have hany : (List.range 3).any (fun k => (s.setFlds i [(.MEM_SITE_STATUS_state, st),
      (.MEM_SITE_STATUS_dump_region, 0)]).locUp (3 * (i / 3) + k)) = true := by
    refine List.any_eq_true.mpr ⟨j % 3, List.mem_range.mpr (Nat.mod_lt _ (by decide)), ?_⟩
    rw [← hmid, Nat.div_add_mod]
    exact hother
  have hset : (s.setFlds i [(.MEM_SITE_STATUS_state, st), (.MEM_SITE_STATUS_dump_region, 0)]).fld
      .MEM_SITE_STATUS_state i = st := (State.fld_setFlds_of_mem (v := st) (by simp) (by simp)).trans hst
  exact (congrArg (State.fld · .MEM_SITE_STATUS_state i) (if_pos hany)).trans hset

theorem State.fld_bumpEpoch_ne {f : Fld} (u j : Nat) (hepoch : f ≠ .RAS_UNIT_epoch) (hresets : f ≠ .RAS_UNIT_resets) :
    (s.bumpEpoch u).fld f j = s.fld f j :=
  (State.fld_satFld_ne _ _ _ _ hresets).trans (State.fld_setFld_ne _ _ _ _ hepoch)

theorem State.presetBegun_siteDown : s.presetBegun 0 i actDown =
    (((s.presetNoted 0 i actDown).bumpEpoch (unitSite i)).siteGone i siteOff).setFld .RAS_PRESET_STATUS_busy 0 0 := rfl

theorem State.fld_siteDown {j : Nat} (hj : j < 12) (hij : j ≠ i) (hmid : j / 3 = i / 3) (hup : s.locUp j = true) :
    (s.presetBegun 0 i actDown).fld .MEM_SITE_STATUS_state i = siteOff := by
  have hstays : ((s.presetNoted 0 i actDown).bumpEpoch (unitSite i)).fld .MEM_SITE_STATUS_state j =
      s.fld .MEM_SITE_STATUS_state j := by
    rw [State.fld_bumpEpoch_ne _ _ (by decide) (by decide), State.fld_presetNoted_ne (by decide)]
  rw [State.presetBegun_siteDown, State.fld_setFld_ne _ _ _ _ (by decide)]
  refine State.fld_siteGone (by decide) hj hij hmid ?_
  rw [State.locUp, if_pos hj] at hup ⊢
  rw [hstays, hup]

/-! ### Actions on far-tier ports -/

theorem State.fld_enumerate (e : PortEnum) (j : Nat) : (s.enumerate j e).fld .FTP_STATUS_state j =
    if e.trained && !s.linksHeld then ftpOnline else 1 := by
  unfold State.enumerate
  cases e.trained with
  | false => exact State.fld_setFld_self ..
  | true =>
    cases s.linksHeld with
    | true => exact State.fld_setFld_self ..
    | false => exact State.fld_setFlds_of_mem (v := ftpOnline) (by simp) (by simp)

theorem State.presetLegal_portEvacuate (h : s.fld .FTP_STATUS_state p.val = ftpOnline) :
    s.presetLegal 1 p.val actEvacuate = true := by simp [State.presetLegal, actEvacuate, h]

theorem State.presetLegal_portDown (h : s.fld .FTP_STATUS_state p.val = ftpOnline) :
    s.presetLegal 1 p.val actDown = true := by simp [State.presetLegal, actDown, h]

theorem State.presetLegal_portReset (h : s.fld .FTP_STATUS_state p.val = ftpFailed) :
    s.presetLegal 1 p.val actReset = true := by simp [State.presetLegal, actReset, h]

theorem State.presetLegal_portUp (h : s.fld .FTP_STATUS_state p.val = ftpOffline) :
    s.presetLegal 1 p.val actUp = true := by simp [State.presetLegal, actUp, h]

/-- R426: a port that is to leave service begins to be evacuated. -/
theorem State.portLeaves {t u : State} {act : Nat} (h : t = (u.presetNoted 1 p.val act).beginEvac (.port p)) :
    .port p ∈ t.evac ∧ t.fld .FTP_STATUS_state p.val = ftpEvacuating ∧ t.fld .RAS_PRESET_STATUS_busy 0 = 1 := by
  subst h
  refine ⟨State.mem_beginEvac _, State.fld_beginEvac_port (by simp [evacuatingFlds]), ?_⟩
  exact (State.fld_setFlds_ne _ _ _ _ (by simp)).trans State.busy_presetNoted

theorem State.presetBegun_portReset (h : s.fld .FTP_STATUS_state i = ftpFailed) : s.presetBegun 1 i actReset =
    (s.presetNoted 1 i actReset).setFld .FTP_STATUS_state i 1 := by
  have hstate : (s.presetNoted 1 i actReset).fld .FTP_STATUS_state i = ftpFailed := by
    rw [State.fld_presetNoted_ne (by decide), h]
  exact congrArg (State.setFld · .FTP_STATUS_state i 1) (if_pos hstate)

theorem State.presetBegun_portUp : s.presetBegun 1 i actUp =
    (s.presetNoted 1 i actUp).setFlds i [(.FTP_CTL_online_req, 1), (.FTP_STATUS_state, 1)] := rfl

theorem State.actionView_farUp : (s.presetBegun 1 i actUp).actionView = (s.presetNoted 1 i actUp).actionView := by
  rw [State.presetBegun_portUp, State.actionView_setFlds _ _ (by simp [actionFlds])]

theorem State.actionView_farReset (h : s.fld .FTP_STATUS_state i = ftpFailed) :
    (s.presetBegun 1 i actReset).actionView = (s.presetNoted 1 i actReset).actionView := by
  rw [State.presetBegun_portReset h, State.actionView_setFld _ (by decide)]

/-- R230: how an action on a port ends: ONLINE where it trained on links that are not held down, else training on. -/
theorem State.portEnded {e : PortEnum} {held : Bool} (h : s.linksHeld = held) :
    let t := State.presetEnded (s.enumerate i e, e.trained && !s.linksHeld)
    t.fld .FTP_STATUS_state i = (if e.trained && !held then ftpOnline else 1) ∧
      t.fld .RAS_PRESET_STATUS_busy 0 = 0 ∧
      t.fld .RAS_PRESET_STATUS_failed 0 = if e.trained && !held then 0 else 1 := by
  subst h
  refine ⟨?_, State.busy_presetEnded _, State.failed_presetEnded _⟩
  rw [State.fld_presetEnded_ne _ (by decide)]
  exact State.fld_enumerate e i

theorem State.linksHeld_presetNoted {kind act : Nat} : (s.presetNoted kind i act).linksHeld = s.linksHeld := by
  rw [State.presetNoted_only]
  rfl

/-! ### Actions on Silit ports -/

theorem State.presetLegal_silitReset (h : s.fld .FAB_PORT_CFG_mode q.val ≠ modeOff) :
    s.presetLegal 2 q.val actReset = true := by simp [State.presetLegal, actReset, h]

theorem State.presetLegal_silitDown (h : s.fld .FAB_PORT_CFG_mode q.val ≠ modeOff) :
    s.presetLegal 2 q.val actDown = true := by simp [State.presetLegal, actDown, h]

theorem State.presetLegal_silitUp (h : q.val ∈ s.siliOff) : s.presetLegal 2 q.val actUp = true := by
  simp [State.presetLegal, actUp, h]

theorem State.presetBegun_silitReset : s.presetBegun 2 i actReset = (s.presetNoted 2 i actReset).portReset i := rfl

theorem State.actionView_silitReset :
    (s.presetBegun 2 i actReset).actionView = (s.presetNoted 2 i actReset).actionView := by
  rw [State.presetBegun_silitReset, State.actionView_portReset]

theorem State.presetBegun_silitUp : s.presetBegun 2 i actUp =
    (s.presetNoted 2 i actUp).setFld .FAB_PORT_STATUS_state i portTraining := rfl

theorem State.actionView_silitUp : (s.presetBegun 2 i actUp).actionView = (s.presetNoted 2 i actUp).actionView := by
  rw [State.presetBegun_silitUp, State.actionView_setFld _ (by decide)]

/-- R426: a Silit port powered down is DOWN, and its action is over at once. -/
theorem State.silitDown : i ∈ (s.presetBegun 2 i actDown).siliOff ∧
    (s.presetBegun 2 i actDown).fld .FAB_PORT_STATUS_state i = portDown ∧
    (s.presetBegun 2 i actDown).fld .RAS_PRESET_STATUS_busy 0 = 0 := by
  have hregs : ∀ f j, (s.presetBegun 2 i actDown).fld f j = ((((s.presetNoted 2 i actDown).portReset i).setFld
      .FAB_PORT_STATUS_state i portDown).setFld .RAS_PRESET_STATUS_busy 0 0).fld f j := fun _ _ => rfl
  have hoff : (s.presetBegun 2 i actDown).siliOff = if ((s.presetNoted 2 i actDown).portReset i).siliOff.contains i then
      ((s.presetNoted 2 i actDown).portReset i).siliOff else i :: ((s.presetNoted 2 i actDown).portReset i).siliOff := rfl
  refine ⟨?_, ?_, ?_⟩
  · rw [hoff]
    split
    next h => exact List.contains_iff_mem.mp h
    next => exact List.mem_cons_self
  · rw [hregs, State.fld_setFld_ne _ _ _ _ (by decide), State.fld_setFld_self]
    rfl
  · rw [hregs, State.fld_setFld_self]
    rfl

/-- A port that trained under an action has power, and came back unless it is DOWN. -/
theorem State.notMem_siliOff_siliFin (l : Training) : i ∉ (State.presetEnded (s.siliFin i l)).siliOff := by
  rw [State.siliOff_presetEnded]
  have hoff : (s.siliFin i l).1.siliOff = s.siliOff.filter (fun x => x != i) :=
    State.siliOff_of_actionView (State.actionView_portTrained ..)
  simp [hoff]

theorem State.failed_siliFin (l : Training) :
    (State.presetEnded (s.siliFin i l)).fld .RAS_PRESET_STATUS_failed 0 = 1 ↔
      (State.presetEnded (s.siliFin i l)).fld .FAB_PORT_STATUS_state i = portDown := by
  have hback : (s.siliFin i l).2 = ((s.siliFin i l).1.fld .FAB_PORT_STATUS_state i != portDown) := rfl
  rw [State.failed_presetEnded, State.fld_presetEnded_ne _ (by decide), hback]
  simp

end

/-- Settles O33: a command only begins its action, or begins and ends it, by `presetBegin`; each of the eleven on its unit,
where the reset of a Silit port leaves its action under way whatever the lost traffic answers. -/
theorem unitActions : Obligations.UnitActions := by
  intro site p q ok e l s hr
  refine ⟨fun r hmem => ⟨fun h => ?discarded, fun t h => ?begins⟩, fun r hmem => ⟨fun hoff h => ?discardedToo,
    fun s1 h ha hon => ?ends⟩, fun i hi hb hst => ?powersUp, ?units⟩
  case discarded => rw [exec_beginCommand hmem, State.presetGo_none (State.presetBegin_none h)]
  case begins => rw [exec_beginCommand hmem, State.presetGo_some hr h]
  case discardedToo => rw [exec_endCommand hmem, State.presetDo_none hoff (State.presetBegin_none h)]
  case ends =>
    exact ⟨_, (exec_endCommand hmem s).trans (congrArg Host.Outcome.next (State.presetDo_ends hr h ha hon)),
      State.busy_presetEnded _, State.failed_presetEnded _, State.presetEnded_only _⟩
  case powersUp =>
    refine ⟨_, State.presetBegin_some hb (State.presetLegal_siteUp hi hst), ?_, ?_, ?_⟩
    · rw [State.presetBegun_siteUp, State.fld_setFld_ne _ _ _ _ (by decide), State.busy_presetNoted]
    · rw [State.presetBegun_siteUp, State.fld_setFld_self]
      rfl
    · rw [State.presetBegun_siteUp, State.presetOn_of_actionView (State.actionView_setFld _ (by decide) _ _),
        State.presetOn_presetNoted (by decide) (by omega) (by decide)]
  case units =>
    intro hb st ft up ends
    have hsite : site.val < 16 := by omega
    have hport : p.val < 16 := by omega
    have hsilit : q.val < 16 := by omega
    refine ⟨fun h => ?siteEvacuate, fun h he hp hmid => ?siteDown, fun h => ?siteReset, fun h => ?siteUp,
      fun h c hc => ?portLeaves, fun h => ?portReset, fun h => ?portUp, fun h => ?silitDown, fun h => ?silitReset,
      fun h => ?silitUp⟩
    case siteEvacuate =>
      refine ⟨_, State.presetGo_runs hr hb (State.presetLegal_siteEvacuate site.isLt h), ?_, ?_⟩
      · rw [State.presetBegun_siteEvacuate]
        exact State.mem_beginEvac _
      · rw [State.presetBegun_siteEvacuate]
        exact State.busy_presetNoted
    case siteDown =>
      obtain ⟨j, hj, hij, hmid, hup⟩ := hmid
      exact ⟨_, State.presetGo_runs hr hb (State.presetLegal_siteDown h he hp), State.fld_siteDown hj hij hmid hup,
        State.fld_setFld_self ..⟩
    case siteReset =>
      exact ⟨_, State.presetDo_runs hr hb (State.presetLegal_siteReset site.isLt h) (by decide) hsite (by decide)
        (State.actionView_siteReset hr h), State.fld_siteEnded ok, State.busy_presetEnded _, State.failed_presetEnded _⟩
    case siteUp =>
      exact ⟨_, State.presetDo_runs hr hb (State.presetLegal_siteUp site.isLt h) (by decide) hsite (by decide)
        State.actionView_siteUp, State.fld_siteEnded ok, State.busy_presetEnded _,
        State.failed_presetEnded _⟩
    case portLeaves =>
      simp only [List.mem_cons, List.not_mem_nil, or_false] at hc
      obtain rfl | rfl := hc
      · exact ⟨_, State.presetGo_runs hr hb (State.presetLegal_portEvacuate h), State.portLeaves (dif_pos p.isLt)⟩
      · exact ⟨_, State.presetGo_runs hr hb (State.presetLegal_portDown h), State.portLeaves (dif_pos p.isLt)⟩
    case portReset =>
      have hheld : (s.presetBegun 1 p.val actReset).linksHeld = s.linksHeld := by
        rw [State.presetBegun_portReset h]
        exact State.linksHeld_presetNoted
      exact ⟨_, State.presetDo_runs hr hb (State.presetLegal_portReset h) (by decide) hport (by decide)
        (State.actionView_farReset h), State.portEnded hheld⟩
    case portUp =>
      have hheld : (s.presetBegun 1 p.val actUp).linksHeld = s.linksHeld := by
        rw [State.presetBegun_portUp, State.setFlds_only]
        exact State.linksHeld_presetNoted
      exact ⟨_, State.presetDo_runs hr hb (State.presetLegal_portUp h) (by decide) hport (by decide)
        State.actionView_farUp, State.portEnded hheld⟩
    case silitDown =>
      exact ⟨_, State.presetGo_runs hr hb (State.presetLegal_silitDown h), State.silitDown⟩
    case silitReset =>
      exact ⟨_, State.presetDo_runs hr hb (State.presetLegal_silitReset h.1) (by decide) hsilit (by decide)
        State.actionView_silitReset, State.busy_presetEnded _, State.failed_siliFin l⟩
    case silitUp =>
      exact ⟨_, State.presetDo_runs hr hb (State.presetLegal_silitUp h) (by decide) hsilit (by decide)
        State.actionView_silitUp, State.busy_presetEnded _, State.notMem_siliOff_siliFin l,
        State.failed_siliFin l⟩

end Sys2Proof.Machine

/-!
PROOFS. The packets on address spaces: MAP_UPDATE, ASC_CREATE, ASC_DESTROY (R237, R241, R276, R279, R313, R335).
-/

namespace Sys2Proof.Machine

section
variable {s s1 : State} {p : Pkt} {q : Fin 4096} {seq : Nat}

theorem State.onAsc_of_active (h : s.fld .CFE_ASC_STATE_state (p.b 9 1) = 1) (go : State → State) :
    s.onAsc p go = go s := if_pos h

theorem State.onAsc_of_other (h : s.fld .CFE_ASC_STATE_state (p.b 9 1) ≠ 1) (go : State → State) :
    s.onAsc p go = s.failPkt p fcAscState 0 [] := if_neg h

/-! ### MAP_UPDATE (R237, R241, R276, R335) -/

/-- R279: every action of MAP_UPDATE fails on an ASC that is not ACTIVE. -/
theorem exec_mapUpdate_of_other {r : (Fin 4096 → Nat → Instr) × Nat}
    (hr : r ∈ [(Instr.mapUpdateInvalidate, 0), (.dpnAlloc, 1), (.dpnFree, 2), (.setRoot, 3)])
    (h : s.taken q.val seq (isAct 0x80 r.2) = some (s1, p)) (hst : s1.fld .CFE_ASC_STATE_state (p.b 9 1) ≠ 1) :
    exec (r.1 q seq) s = .next (s1.failPkt p fcAscState 0 []) := by
  simp only [List.mem_cons, List.not_mem_nil, or_false] at hr
  obtain rfl | rfl | rfl | rfl := hr
  all_goals exact next_perform_taken h (State.onAsc_of_other hst _)

theorem State.allocPkt_of_active (h : s.fld .CFE_ASC_STATE_state (p.b 9 1) = 1) :
    let r := s.allocPages (p.b 16 8) (p.b 24 8) (p.b 10 1 % 2 == 1)
    s.allocPkt p = if r.2 = 0 then r.1.endPkt p 0 else if r.2 = allocWaits then r.1 else r.1.failPkt p r.2 0 [] :=
  State.onAsc_of_active h _

/-- R335: DPN_FREE takes the pages once the host holds no line of them. -/
theorem State.freePkt_of_unheld (h : s.fld .CFE_ASC_STATE_state (p.b 9 1) = 1)
    (hheld : s.pagesHeld (p.b 16 8) (p.b 24 8) = []) :
    s.freePkt p = (s.freePages (p.b 16 8) (p.b 24 8)).endPkt p 0 :=
  (State.onAsc_of_active h _).trans (if_pos (List.isEmpty_iff.mpr hheld))

theorem State.freePkt_of_held (h : s.fld .CFE_ASC_STATE_state (p.b 9 1) = 1)
    (hheld : s.pagesHeld (p.b 16 8) (p.b 24 8) ≠ []) :
    s.freePkt p = s.snoopLines (s.pagesHeld (p.b 16 8) (p.b 24 8)) :=
  (State.onAsc_of_active h _).trans (if_neg (mt List.isEmpty_iff.mp hheld))

/-- R276: SET_ROOT sets the root and drops every translation of the ASC. -/
theorem State.rootPkt_of_active (h : s.fld .CFE_ASC_STATE_state (p.b 9 1) = 1) :
    s.rootPkt p = ((s.setRoot (p.b 9 1) (p.b 16 8)).tlbInval (p.b 9 1) 0 0).endPkt p 0 := State.onAsc_of_active h _

theorem b2n_bne_zero (n : Nat) : b2n (n != 0) = if n = 0 then 0 else 1 := by
  by_cases h : n = 0 <;> simp [b2n, h]

theorem State.fld_setRoot_root (a root : Nat) :
    (s.setRoot a root).fld .CFE_ASC_ROOT_root a = root % 2 ^ Fld.CFE_ASC_ROOT_root.desc.width :=
  State.fld_setFlds_of_mem (by simp) List.mem_cons_self

theorem State.fld_setRoot_state (a root j : Nat) :
    (s.setRoot a root).fld .CFE_ASC_STATE_state j = s.fld .CFE_ASC_STATE_state j := State.fld_setFlds_ne _ _ _ _ (by simp)

/-! ### ASC_CREATE and ASC_DESTROY (R279, R313) -/

/-- The fault record of a context, empty. -/
def ascNoFault : List (Fld × Nat) :=
  [(.CFE_ASC_FAULT_first_code, 0), (.CFE_ASC_FAULT_first_queue, 0), (.CFE_ASC_FAULT_count, 0), (.CFE_ASC_FAULT_valid, 0)]

/-- R279: a context ACTIVE with its root and no fault. -/
def State.ascCreated (s : State) (a root : Nat) : State :=
  ((s.setFld .CFE_ASC_STATE_state a 1).setRoot a root).setFlds a ascNoFault

theorem State.ascCreatePkt_of_free (h : s.fld .CFE_ASC_STATE_state (p.b 9 1) = 0) :
    s.ascCreatePkt p = (s.ascCreated (p.b 9 1) (p.b 16 8)).endPkt p 0 := if_neg (not_not.mpr h)

theorem State.ascCreatePkt_of_used (h : s.fld .CFE_ASC_STATE_state (p.b 9 1) ≠ 0) :
    s.ascCreatePkt p = s.failPkt p fcAscState 0 [] := if_pos h

theorem State.ascCreated_state (a root : Nat) : (s.ascCreated a root).fld .CFE_ASC_STATE_state a = 1 := by
  rw [State.ascCreated, State.fld_setFlds_ne _ _ _ _ (by simp [ascNoFault]), State.fld_setRoot_state,
    State.fld_setFld_self]
  rfl

theorem State.ascCreated_root (a root : Nat) :
    (s.ascCreated a root).fld .CFE_ASC_ROOT_root a = root % 2 ^ Fld.CFE_ASC_ROOT_root.desc.width := by
  rw [State.ascCreated, State.fld_setFlds_ne _ _ _ _ (by simp [ascNoFault]), State.fld_setRoot_root]

theorem State.ascCreated_noFault {f : Fld} (a root : Nat) (h : (f, 0) ∈ ascNoFault) :
    (s.ascCreated a root).fld f a = 0 :=
  (State.fld_setFlds_of_mem (by simp [ascNoFault]) h).trans (Nat.zero_mod _)

theorem State.ascCreated_only (a root : Nat) :
    s.ascCreated a root = { s with regs := (s.ascCreated a root).regs } := by
  rw [State.ascCreated, State.setFlds_only, State.setRoot, State.setFlds_only]
  rfl

/-- R279: neither ASC 0, nor the packet's own, nor one that is not ACTIVE is destroyed. -/
theorem State.ascDestroyPkt_refused (hpos : p.pos ≠ 1)
    (h : s.fld .CFE_ASC_STATE_state (p.b 9 1) ≠ 1 ∨ p.b 9 1 = 0 ∨ p.b 9 1 = s.fld .CFE_Q_CFG_asc p.q) :
    s.ascDestroyPkt p = s.failPkt p fcAscState 0 [] := (if_neg hpos).trans (if_pos h)

theorem State.ascDestroyPkt_begins (hpos : p.pos ≠ 1) (hst : s.fld .CFE_ASC_STATE_state (p.b 9 1) = 1)
    (hzero : p.b 9 1 ≠ 0) (hown : p.b 9 1 ≠ s.fld .CFE_Q_CFG_asc p.q) :
    s.ascDestroyPkt p = (s.modPkt p.q p.seq (fun x => { x with pos := 1 })).ascDrain (p.b 9 1) :=
  (if_neg hpos).trans (if_neg (not_or.mpr ⟨not_not.mpr hst, not_or.mpr ⟨hzero, hown⟩⟩))

end

/-- Settles O42: each packet, once taken, acts by the state of the ASC that it names. -/
theorem contextPackets : Obligations.ContextPackets := by
  intro q seq s s1 p a
  refine ⟨fun r hr h hst => exec_mapUpdate_of_other hr h hst, fun hst => ⟨?inval, ?alloc, ?free, ?root⟩,
    fun h => ?create, fun h hpos => ?destroy⟩
  case inval => exact fun h => next_perform_taken h (State.onAsc_of_active hst _)
  case alloc => exact fun h => next_perform_taken h (State.allocPkt_of_active hst)
  case free =>
    exact fun h => ⟨fun hheld => next_perform_taken h (State.freePkt_of_unheld hst hheld),
      fun hheld => next_perform_taken h (State.freePkt_of_held hst hheld)⟩
  case root =>
    intro h
    rw [← b2n_bne_zero]
    exact next_perform_taken h (State.rootPkt_of_active hst)
  case create =>
    exact ⟨fun hst => next_perform_taken h (State.ascCreatePkt_of_used hst), fun hst =>
      ⟨_, next_perform_taken h (State.ascCreatePkt_of_free hst), State.ascCreated_state .., State.ascCreated_root ..,
        State.ascCreated_noFault _ _ (by simp [ascNoFault]), State.ascCreated_noFault _ _ (by simp [ascNoFault]),
        State.ascCreated_only ..⟩⟩
  case destroy =>
    exact ⟨fun hst => next_perform_taken h (State.ascDestroyPkt_refused hpos hst),
      fun hst hzero hown => next_perform_taken h (State.ascDestroyPkt_begins hpos hst hzero hown)⟩

end Sys2Proof.Machine

/-!
PROOFS. The packets that set accounts, priorities, pins, registers and the power cap (R255, R276, R278, R317, R443), and
the sync dump (R436).
-/

namespace Sys2Proof.Machine

section
variable {s : State} {p : Pkt}

theorem State.onLive_of_disabled (h : s.qState p.names = qDisabled) (go : State → State) :
    s.onLive p go = s.failPkt p fcQueueState 0 [] := if_pos h

theorem State.onLive_of_live (h : s.qState p.names ≠ qDisabled) (go : State → State) : s.onLive p go = go s := if_neg h

/-! ### ACCT_SET CLEAR (R317) -/

/-- Updates that each change registers alone change, one after another, registers alone. -/
theorem State.each_only {α : Type} {f : State → α → State} (hf : ∀ s a, f s a = { s with regs := (f s a).regs })
    (s : State) (l : List α) : s.each l f = { s with regs := (s.each l f).regs } := by
  induction l generalizing s with
  | nil => rfl
  | cons a l ih =>
    have hcons : s.each (a :: l) f = (f s a).each l f := rfl
    rw [hcons, ih, hf]

theorem State.each_range_succ (s : State) (n : Nat) (f : State → Nat → State) :
    s.each (List.range (n + 1)) f = f (s.each (List.range n) f) n := by
  simp only [State.each, List.range_succ, List.foldl_append, List.foldl_cons, List.foldl_nil]

/-- R317: the eight meters of an account. -/
def acctMeters : List Fld :=
  [.CFE_ACCT_cell_ns, .CFE_ACCT_matrix_tokens, .CFE_ACCT_vector_ops, .CFE_ACCT_close_bytes, .CFE_ACCT_far_bytes,
    .CFE_ACCT_fabric_bytes, .CFE_ACCT_energy_mj, .CFE_ACCT_kernels]

theorem State.clearTag_eq (s : State) (t : Nat) : s.clearTag t = s.setFlds t (acctMeters.map (·, 0)) := rfl

theorem State.clearTag_only (s : State) (t : Nat) : s.clearTag t = { s with regs := (s.clearTag t).regs } :=
  State.setFlds_only ..

theorem State.fld_clearTag {f : Fld} (hf : f ∈ acctMeters) (s : State) (i t : Nat) :
    (s.clearTag i).fld f t = if t = i then 0 else s.fld f t := by
  rw [State.clearTag_eq]
  split
  · next h =>
    subst h
    exact (State.fld_setFlds_of_mem (by decide) (List.mem_map.mpr ⟨f, hf, rfl⟩)).trans (Nat.zero_mod _)
  · next h => exact State.fld_setFlds_other h _

/-- R317: the meters of `n` tags from `b` on, cleared one after another. -/
def State.clearTags (s : State) (b n : Nat) : State := s.each (List.range n) (fun s i => s.clearTag (b + i))

theorem State.clearTags_only (s : State) (b n : Nat) : s.clearTags b n = { s with regs := (s.clearTags b n).regs } :=
  State.each_only (fun s i => s.clearTag_only (b + i)) s _

theorem State.fld_clearTags {f : Fld} (hf : f ∈ acctMeters) (s : State) (b n t : Nat) :
    (s.clearTags b n).fld f t = if b ≤ t ∧ t < b + n then 0 else s.fld f t := by
  induction n with
  | zero => exact (if_neg (by omega)).symm
  | succ n ih =>
    have hlast : s.clearTags b (n + 1) = (s.clearTags b n).clearTag (b + n) := State.each_range_succ ..
    rw [hlast, State.fld_clearTag hf, ih, ← ite_or]
    exact if_congr (by omega) rfl rfl

theorem State.clearPkt_eq (s : State) (p : Pkt) : s.clearPkt p = (s.clearTags (p.b 12 2) (p.b 14 2)).endPkt p 0 := rfl

/-! ### PLACE_PIN and REG_WRITE (R255, R276, R278) -/

/-- R255: a PLACE_PIN that starts sets the pins of its pages and waits with those before it. -/
theorem State.pinStart_first (h : s.pinWait.contains (p.q, p.seq) = false) :
    let s2 := s.setPins (p.b 8 4) (p.b 12 4) (p.b 16 1) (p.b 17 1)
    s.pinStart p = State.pinPkt { s2 with pinWait := s2.pinWait ++ [(p.q, p.seq)] } p :=
  if_neg (Bool.eq_false_iff.mp h)

theorem State.regWritePkt_bad (h : badAccess (p.b 8 4) (p.b 12 1) = true) : s.regWritePkt p = s.endPkt p 0 := if_pos h

theorem State.regWritePkt_good (h : badAccess (p.b 8 4) (p.b 12 1) = false) :
    let w := 2 ^ (8 * p.b 12 1)
    let r := s.write0 (p.b 8 4) (p.b 16 8 % w) (p.b 24 8 % w) true
    s.regWritePkt p = if r.2 then s.failPkt p fcRegisterState 0 [] else r.1.endPkt p 0 :=
  if_neg (Bool.eq_false_iff.mp h)

/-! ### DUMP_SYNC (R436) -/

/-- R436: the numbers of the other dumps under way, 0 of one that has none yet. -/
def State.dumpTurns (s : State) (p : Pkt) : List Nat := (s.otherDumps p).map (·.pos)

/-- R436: the number of a dump in the order of their starts: its own, or the next one where it starts. -/
def State.dumpTurn (s : State) (p : Pkt) : Nat := if p.pos = 0 then (s.dumpTurns p).foldl max 0 + 1 else p.pos

/-- A dump that has its number. -/
def State.dumpNumbered (s : State) (p : Pkt) : State :=
  s.modPkt p.q p.seq (fun x => { x with pos := s.dumpTurn p })

/-- R436: sync dumps are written one at a time: one waits while a dump that started before it is under way. -/
theorem State.dumpPkt_eq (s : State) (p : Pkt) : s.dumpPkt p =
    if ∃ m ∈ s.dumpTurns p, m ≠ 0 ∧ m < s.dumpTurn p then s.dumpNumbered p
    else ((s.dumpNumbered p).stepWrite p (p.b 8 8) ((s.dumpNumbered p).syncDump p.start) true).finish p := by
  refine if_congr ?_ rfl rfl
  simp only [List.any_eq_true, Bool.and_eq_true, bne_iff_ne, decide_eq_true_eq]
  rfl

theorem State.dumpPkt_waits (h : ∃ m ∈ s.dumpTurns p, m ≠ 0 ∧ m < s.dumpTurn p) : s.dumpPkt p = s.dumpNumbered p :=
  (State.dumpPkt_eq s p).trans (if_pos h)

theorem State.dumpPkt_writes (h : ∀ m ∈ s.dumpTurns p, m = 0 ∨ s.dumpTurn p ≤ m) : s.dumpPkt p =
    ((s.dumpNumbered p).stepWrite p (p.b 8 8) ((s.dumpNumbered p).syncDump p.start) true).finish p := by
  refine (State.dumpPkt_eq s p).trans (if_neg ?_)
  rintro ⟨m, hm, hne, hlt⟩
  exact (h m hm).elim hne hlt.not_ge

end

/-- Settles O44: each packet, once taken, acts by its own function; the cleared meters by the tags in turn, a dump by
the numbers of those before it. -/
theorem settingPackets : Obligations.SettingPackets := by
  intro q seq s s1 p n
  refine ⟨fun h => ?assign, fun h => ?clear, fun h => ?prio, fun h hnew => ?pin, fun h => ?cap, fun h => ?regWrite,
    fun h => ?dump⟩
  case assign =>
    exact ⟨fun hst => next_perform_taken h (State.onLive_of_disabled hst _),
      fun hst => next_perform_taken h (State.onLive_of_live hst _)⟩
  case clear =>
    exact ⟨s1.clearTags (p.b 12 2) (p.b 14 2), next_perform_taken h (State.clearPkt_eq s1 p),
      fun f hf t => State.fld_clearTags hf s1 _ _ t, State.clearTags_only ..⟩
  case prio =>
    exact ⟨fun hst => next_perform_taken h (State.onLive_of_disabled hst _),
      fun hst => next_perform_taken h (State.onLive_of_live hst _)⟩
  case pin => exact next_perform_taken h (State.pinStart_first hnew)
  case cap => exact next_perform_taken h rfl
  case regWrite =>
    exact ⟨fun hbad => next_perform_taken h (State.regWritePkt_bad hbad),
      fun hgood => next_perform_taken h (State.regWritePkt_good hgood)⟩
  case dump =>
    exact ⟨fun hwait => next_perform_taken h (State.dumpPkt_waits hwait),
      fun hfirst => next_perform_taken h (State.dumpPkt_writes hfirst)⟩

end Sys2Proof.Machine

/-!
PROOFS. Packets that do not start (R269, R270, R281).
-/

namespace Sys2Proof.Machine

section
variable {s : State} {p : Pkt} {q seq : Nat}

/-- R281: a packet with the time since which it has been startable. -/
def State.marked (s : State) (p : Pkt) : Pkt :=
  { p with since := if s.startable p then some (p.since.getD s.now) else none }

theorem State.markStartable_eq (s : State) : s.markStartable = { s with pool := s.pool.map s.marked } := rfl

/-- R270: whether a packet may start does not depend on the times noted in the pool. -/
theorem State.startable_markStartable (s : State) (p : Pkt) :
    s.markStartable.startable (s.marked p) = s.startable p := by
  have hpkt : ∀ d, (s.markStartable.pkt p.q d).isNone = (s.pkt p.q d).isNone := fun d => by
    rw [State.markStartable_eq, State.pkt, List.find?_map, Option.isNone_map]
    rfl
  unfold State.startable
  simp only [State.marked, hpkt]
  rw [State.markStartable_eq]
  simp only [List.all_map]
  rfl

/-- R281: an engine chooses among the startable packets. -/
theorem State.choose_startable {c : EngClass} {e : Nat} {x : Pkt} (h : s.choose c e = some x) :
    x ∈ s.pool ∧ s.startable x = true := by
  obtain ⟨hpool, hfit⟩ := List.mem_filter.mp (List.mem_filter.mp (minBy_least h).1).1
  exact ⟨hpool, (Bool.and_eq_true_iff.mp hfit).2⟩

/-- R281: no engine chooses a packet that is not startable. -/
theorem State.choose_of_not_startable (hno : ∀ x ∈ s.pool, x.q = q → x.seq = seq → s.startable x = false)
    (c : EngClass) (e : Nat) : (s.markStartable.choose c e).map (fun x => (x.q, x.seq)) ≠ some (q, seq) := by
  intro h
  obtain ⟨x, hx, hid⟩ := Option.map_eq_some_iff.mp h
  obtain ⟨hmem, hstart⟩ := State.choose_startable hx
  obtain ⟨y, hy, hxy⟩ := List.mem_map.mp (State.markStartable_eq s ▸ hmem)
  subst hxy
  obtain ⟨hq, hseq⟩ := Prod.mk.inj hid
  rw [State.startable_markStartable, hno y hy hq hseq] at hstart
  exact Bool.false_ne_true hstart

/-- R270, R281: a packet whose dependences have not failed, and that is not startable, does not start: its command
marks what is startable and changes nothing else. -/
theorem State.perform_not_startable {kind : Pkt → Bool} (h : s.pkt q seq = some p) (hr : s.ready = true)
    (hk : kind p = true) (hc : s.carriesOn p = false) (hs : p.st = .fetched) (hq : s.qState q = qActive)
    (hf : s.depFailed p = none) (hno : ∀ x ∈ s.pool, x.q = q → x.seq = seq → s.startable x = false)
    (go : State → Pkt → State) : s.perform q seq kind go = s.markStartable := by
  simp only [State.perform, h, hr, hk, hc, hs, hq, hf, Bool.not_true, Bool.or_self, bne_self_eq_false,
    Bool.false_eq_true, if_false]
  split
  · rfl
  · exact if_pos (bne_iff_ne.mpr (State.choose_of_not_startable hno _ _))

end

/-- R272: the command of each packet performs the packets of its kind, each by its own operation. -/
theorem exec_pktRow {e : FlashEnv} {r : (Fin 4096 → Nat → Instr) × (Pkt → Bool)} (hr : r ∈ pktRows e) :
    ∃ go, ∀ q seq s, exec (r.1 q seq) s = .next (s.perform q.val seq r.2 go) := by
  simp only [pktRows] at hr
  fin_cases hr <;> exact ⟨_, fun _ _ _ => rfl⟩

/-- Settles O37: a packet's command performs it, and what the performing does where the packet does not start has a
lemma for each case. -/
theorem packetStarts : Obligations.PacketStarts := by
  intro e r hr q seq s
  obtain ⟨go, hexec⟩ := exec_pktRow hr
  rw [hexec]
  refine ⟨fun hnone => ?_, fun p hp => ⟨fun hother => ?_,
    fun hready hkind hnew hst hq => ⟨fun f hf => ?_, fun hf hno => ?_⟩⟩⟩
  · rw [State.perform_none hnone]
  · rw [State.perform_other hp hother]
  · rw [State.perform_depFailed hp hready hkind hnew hst hq hf]
  · rw [State.perform_not_startable hp hready hkind hnew hst hq hf hno]

end Sys2Proof.Machine

/-!
PROOFS. QUEUE_CTL (R276, R285, R287, R313).
-/

namespace Sys2Proof.Machine

section
variable {s s1 : State} {p : Pkt} {q : Fin 4096} {seq : Nat}

/-! ### The queues that an action may name (R285, R287) -/

theorem State.onQueue_of_legal {legal : Nat → Bool} (hother : p.names ≠ p.q) (h : legal (s.qState p.names) = true)
    (go : State → State) : s.onQueue p legal go = go s := if_pos ⟨hother, h⟩

theorem State.onQueue_refused {legal : Nat → Bool} (h : p.names = p.q ∨ legal (s.qState p.names) = false)
    (go : State → State) : s.onQueue p legal go = s.failPkt p fcQueueState 0 [] := by
  refine if_neg ?_
  rintro ⟨hother, hlegal⟩
  exact h.elim hother (ne_true_of_eq_false · hlegal)

/-- An action that one state allows. -/
theorem State.onQueue_of_state {st : Nat} (hother : p.names ≠ p.q) (h : s.qState p.names = st) (go : State → State) :
    s.onQueue p (· == st) go = go s := State.onQueue_of_legal (legal := (· == st)) hother (beq_iff_eq.mpr h) go

theorem State.onQueue_of_other {st : Nat} (h : p.names = p.q ∨ s.qState p.names ∉ [st]) (go : State → State) :
    s.onQueue p (· == st) go = s.failPkt p fcQueueState 0 [] :=
  State.onQueue_refused (legal := (· == st)) (h.imp_right fun hst => beq_false_of_ne (mt List.mem_singleton.mpr hst)) go

theorem State.canDrain_iff (n : Nat) : s.canDrain n = true ↔ s.qState n ∈ [qActive, qStopped, qFaulted] := by
  simp only [State.canDrain, Bool.or_eq_true, beq_iff_eq, or_assoc, List.mem_cons, List.not_mem_nil, or_false]

/-! ### CREATE, DESTROY and RESET (R276, R287, R300) -/

/-- R276: the fields that a CREATE packet names. -/
def Pkt.queueCfg (p : Pkt) : QueueCfg :=
  { kernel := (p.b 12 1).testBit 0, ringHost := (p.b 12 1).testBit 1, size := p.b 13 1, asc := p.b 9 1, prio := p.b 14 1
    acct := p.b 24 2, base := p.b 16 8, cmpl := p.b 32 8 % 2 ^ 52, cmplHost := (p.b 32 8).testBit 63
    vector := if p.b 40 2 = 0xFFFF then none else some (p.b 40 2), budget := p.b 28 4 }

/-- A packet's queue created; the packet waits for the completion area. -/
def State.queueMade (s : State) (p : Pkt) : State :=
  (s.createQueue p.names p.queueCfg).modPkt p.q p.seq (fun x => { x with pos := 1 })

theorem State.createPkt_refused (hpos : p.pos ≠ 1) (h : p.names = p.q ∨ s.qState p.names ∉ [qDisabled]) :
    s.createPkt p = s.failPkt p fcQueueState 0 [] := (if_neg hpos).trans (State.onQueue_of_other h _)

/-- R300: CREATE completes once the completion area is written. -/
theorem State.createPkt_of_disabled (hpos : p.pos ≠ 1) (hother : p.names ≠ p.q) (hst : s.qState p.names = qDisabled)
    (hasc : s.fld .CFE_ASC_STATE_state (p.b 9 1) = 1) : s.createPkt p =
      if (s.queueMade p).areaIdle p.names then (s.queueMade p).endPkt p 0 else s.queueMade p :=
  (if_neg hpos).trans ((State.onQueue_of_state hother hst _).trans (State.onAsc_of_active hasc _))

theorem State.drainPkt_refused (hpos : p.pos ≠ 1) (d : Drain)
    (h : p.names = p.q ∨ s.qState p.names ∉ [qActive, qStopped, qFaulted]) :
    s.drainPkt p d = s.failPkt p fcQueueState 0 [] :=
  (if_neg hpos).trans (State.onQueue_refused (legal := fun _ => s.canDrain p.names)
    (h.imp_right fun hst => eq_false_of_ne_true (mt (State.canDrain_iff _).mp hst)) _)

/-- R287: the packet of a DESTROY or RESET waits for the end of the drain that it begins. -/
theorem State.drainPkt_of_canDrain (hpos : p.pos ≠ 1) (hother : p.names ≠ p.q) (d : Drain)
    (hst : s.qState p.names ∈ [qActive, qStopped, qFaulted]) :
    s.drainPkt p d = (s.modPkt p.q p.seq (fun x => { x with pos := 1 })).startDrain p.names d :=
  (if_neg hpos).trans (State.onQueue_of_legal (legal := fun _ => s.canDrain p.names) hother
    ((State.canDrain_iff _).mpr hst) _)

/-! ### The commands -/

/-- R285, R287: no action acts on the packet's own queue, or on one in a state that does not allow it. -/
theorem exec_queueCtl_refused {r : (Fin 4096 → Nat → Instr) × Nat × List Nat}
    (hr : r ∈ [(Instr.queueCreate, 0, [qDisabled]), (.queueDestroy, 1, [qActive, qStopped, qFaulted]),
      (.queueStop, 2, [qActive]), (.queueStart, 3, [qStopped]), (.queueResume, 4, [qFaulted]),
      (.queueReset, 5, [qActive, qStopped, qFaulted])])
    (h : s.taken q.val seq (isAct 0x83 r.2.1) = some (s1, p)) (hpos : p.pos ≠ 1)
    (hst : p.names = p.q ∨ s1.qState p.names ∉ r.2.2) :
    exec (r.1 q seq) s = .next (s1.failPkt p fcQueueState 0 []) := by
  simp only [List.mem_cons, List.not_mem_nil, or_false] at hr
  obtain rfl | rfl | rfl | rfl | rfl | rfl := hr
  · exact next_perform_taken h (State.createPkt_refused hpos hst)
  · exact next_perform_taken h (State.drainPkt_refused hpos .destroy hst)
  · exact next_perform_taken h (State.onQueue_of_other hst _)
  · exact next_perform_taken h (State.onQueue_of_other hst _)
  · exact next_perform_taken h (State.onQueue_of_other hst _)
  · exact next_perform_taken h (State.drainPkt_refused hpos .reset hst)

theorem testBit_zero_eq_beq (n : Nat) : n.testBit 0 = (n % 2 == 1) := (Nat.testBit_zero n).trans rfl

theorem testBit_one_eq_beq (n : Nat) : n.testBit 1 = (n / 2 % 2 == 1) :=
  (Nat.testBit_succ n 0).trans (testBit_zero_eq_beq _)

end

/-- Settles O43: each action, once taken, acts by the state of the queue that it names. -/
theorem queuePackets : Obligations.QueuePackets := by
  intro q seq s s1 p n st
  refine ⟨fun r hr h hpos hst => exec_queueCtl_refused hr h hpos hst, fun hother => ⟨fun h hpos hst hasc => ?create,
    fun r hr h hpos hst => ?drain, fun h hst => ?stop, fun h hst => ?start, fun h hst => ?resume⟩⟩
  case create =>
    rw [← testBit_zero_eq_beq, ← testBit_one_eq_beq]
    exact next_perform_taken h (State.createPkt_of_disabled hpos hother hst hasc)
  case drain =>
    have hdrain : st ∈ [qActive, qStopped, qFaulted] := by simpa using hst
    simp only [List.mem_cons, List.not_mem_nil, or_false] at hr
    obtain rfl | rfl := hr
    all_goals exact next_perform_taken h (State.drainPkt_of_canDrain hpos hother _ hdrain)
  case stop => exact next_perform_taken h (State.onQueue_of_state hother hst _)
  case start => exact next_perform_taken h (State.onQueue_of_state hother hst _)
  case resume => exact next_perform_taken h (State.onQueue_of_state hother hst _)

end Sys2Proof.Machine

/-!
PROOFS. REGION_CTL (R277, R421, R422, R424, R440).
-/

namespace Sys2Proof.Machine

section
variable {s s1 : State} {p x : Pkt} {q : Fin 4096} {seq act : Nat} {t : SelfTest}

/-! ### Which packet acts on a region (R277) -/

theorem Pkt.pos_of_midAction (h : x.midAction = true) : x.pos ≠ 0 :=
  bne_iff_ne.mp (Bool.and_eq_true_iff.mp h).2

/-- A packet that `taken` names is in its queue. -/
theorem State.pkt_of_taken {n : Nat} {kind : Pkt → Bool} (h : s.taken n seq kind = some (s1, p)) :
    ∃ x, s.pkt n seq = some x := by
  unfold State.taken at h
  split at h
  · cases h
  · exact ⟨_, ‹_›⟩

/-- R277: an action in progress goes on by itself. -/
theorem State.regionCtl_midAction {n : Nat} (ha : s.alive = true) (h : s.pkt n seq = some x)
    (hmid : x.midAction = true) (hact : isAct 0x87 act x = true) (go : State → Pkt → State) :
    s.regionCtl n seq act go = go s x := by
  simp only [State.regionCtl, h, ha, hact, hmid, Bool.and_self, if_true]

/-- R277: an action not in progress is performed once its packet is taken. -/
theorem State.regionCtl_taken {n : Nat} (hmid : ∀ x, s.pkt n seq = some x → x.midAction = false)
    (h : s.taken n seq (isAct 0x87 act) = some (s1, p)) (go : State → Pkt → State) :
    s.regionCtl n seq act go = s1.onRegion p (fun s => go s p) := by
  obtain ⟨x, hx⟩ := State.pkt_of_taken h
  simp only [State.regionCtl, hx, hmid x hx, Bool.and_false, Bool.false_eq_true, if_false]
  exact State.perform_taken h _

/-- R277: whether no other packet's action on a packet's region is in progress. -/
def State.sole (s : State) (p : Pkt) : Prop :=
  s.pool.any (fun x => x.onRegion p.rgn && !(x.q == p.q && x.seq == p.seq)) = false

theorem next_regionCtl_refused (hmid : ∀ x, s.pkt q.val seq = some x → x.midAction = false)
    (h : s.taken q.val seq (isAct 0x87 act) = some (s1, p)) (hother : ¬ s1.sole p) (go : State → Pkt → State) :
    (.next (s.regionCtl q.val seq act go) : Out) = .next (s1.failPkt p fcRegionState 0 []) :=
  congrArg Host.Outcome.next ((State.regionCtl_taken hmid h go).trans (if_pos (eq_true_of_ne_false hother)))

theorem next_regionCtl_sole {u : State} (hmid : ∀ x, s.pkt q.val seq = some x → x.midAction = false)
    (hsole : s1.sole p) (h : s.taken q.val seq (isAct 0x87 act) = some (s1, p)) {go : State → Pkt → State}
    (hu : go s1 p = u) : (.next (s.regionCtl q.val seq act go) : Out) = .next u :=
  congrArg Host.Outcome.next ((State.regionCtl_taken hmid h go).trans
    ((if_neg (ne_true_of_eq_false hsole)).trans hu))

theorem next_regionCtl_midAction {u : State} (ha : s.alive = true) (h : s.pkt q.val seq = some x)
    (hmid : x.midAction = true) (hact : isAct 0x87 act x = true) {go : State → Pkt → State} (hu : go s x = u) :
    (.next (s.regionCtl q.val seq act go) : Out) = .next u :=
  congrArg Host.Outcome.next ((State.regionCtl_midAction ha h hmid hact go).trans hu)

/-! ### The end of a reset (R421, R424) -/

/-- The blocks and counts of a region at the end of its reset (R22, R23, R33, R424 step 7). -/
def State.rebuilt (s : State) (r : Nat) (t : SelfTest) : State :=
  let s := s.regionRegs r true
  let s := s.each (List.range 12) (fun s b => s.blockReset (12 * r + b) (selfCells t b) (selfL2 t b))
  let s := s.each t.cells (fun s x => s.setFld .CEL_CACHE_MODE_selftest_failed ((12 * r + x.1.val) * 9 + x.2.val) 1)
  let s := (s.countRegion r).satFld .REG_STATUS_reset_count r 1
  { s with normRgn := if s.normRgn.contains r then s.normRgn else r :: s.normRgn }

theorem State.rebuildRegion_of_blocks {r : Nat} (h : (s.rebuilt r t).fld .REG_STATUS_enabled_blocks r ≠ 0) :
    s.rebuildRegion r t false = (s.rebuilt r t).setFld .REG_STATUS_state r rgnOnline := if_neg h

theorem State.rebuildRegion_of_none {r : Nat} (h : (s.rebuilt r t).fld .REG_STATUS_enabled_blocks r = 0) :
    s.rebuildRegion r t false = ((s.rebuilt r t).bumpEpoch (unitRgn r)).quarantined r 4 :=
  (if_pos h).trans (if_neg Bool.false_ne_true)

/-- A quarantine sets a region's state and cause, and counts it; it is a fatal stop for the last region, where the
fields of a fatal stop and the ports change. -/
theorem State.fld_quarantined {f : Fld} {r cause j : Nat} (hstop : f ∉ stopFlds)
    (hboot : f ≠ .HIF_PROMPT_STATE_boot_state)
    (hrec : ∀ e ∈ fatalRecord 0x0205 r (s.markQuarantined r cause).now, e.1 ≠ f) :
    (s.quarantined r cause).fld f j = (s.markQuarantined r cause).fld f j := by
  unfold State.quarantined
  dsimp only
  split
  · exact State.fld_fatalStop_other hstop hboot hrec
  · rfl

/-- R420: a region quarantined is QUARANTINED. -/
theorem State.quarantined_state (r cause : Nat) :
    (s.quarantined r cause).fld .REG_STATUS_state r = rgnQuarantined :=
  (State.fld_quarantined (by decide) (by decide) (by simp [fatalRecord])).trans (State.markQuarantined_state r cause)

theorem State.quarantined_blocks (r cause j : Nat) :
    (s.quarantined r cause).fld .REG_STATUS_enabled_blocks j = s.fld .REG_STATUS_enabled_blocks j := by
  rw [State.fld_quarantined (by decide) (by decide) (by simp [fatalRecord]), State.markQuarantined,
    State.fld_satFld_ne _ _ _ _ (by decide), State.fld_setFld_ne _ _ _ _ (by decide),
    State.fld_setFld_ne _ _ _ _ (by decide)]

/-- R421, R424: a region rebuilt is ONLINE with an enabled block. -/
theorem State.rebuildRegion_online {r : Nat}
    (h : (s.rebuildRegion r t false).fld .REG_STATUS_enabled_blocks r ≠ 0) :
    (s.rebuildRegion r t false).fld .REG_STATUS_state r = rgnOnline := by
  by_cases hb : (s.rebuilt r t).fld .REG_STATUS_enabled_blocks r = 0
  · rw [State.rebuildRegion_of_none hb, State.quarantined_blocks,
      State.fld_bumpEpoch_ne _ _ (by decide) (by decide)] at h
    exact absurd hb h
  · rw [State.rebuildRegion_of_blocks hb, State.fld_setFld_self]
    rfl

/-- R420, R421: a region rebuilt without an enabled block is QUARANTINED. -/
theorem State.rebuildRegion_quarantined {r : Nat}
    (h : (s.rebuildRegion r t false).fld .REG_STATUS_enabled_blocks r = 0) :
    (s.rebuildRegion r t false).fld .REG_STATUS_state r = rgnQuarantined := by
  by_cases hb : (s.rebuilt r t).fld .REG_STATUS_enabled_blocks r = 0
  · rw [State.rebuildRegion_of_none hb, State.quarantined_state]
  · rw [State.rebuildRegion_of_blocks hb, State.fld_setFld_ne _ _ _ _ (by decide)] at h
    exact absurd h hb

/-- R424: the packet of a reset completes with it, in a queue that does not drain. -/
theorem State.endReset_of_alive (ha : (s.rebuildRegion x.rgn t false).alive = true)
    (hq : (s.rebuildRegion x.rgn t false).qState x.q ≠ qDraining) :
    s.endReset x t = (s.rebuildRegion x.rgn t false).endPkt x 0 := (if_pos ha).trans (if_neg hq)

/-! ### The actions (R277, R440) -/

theorem State.ctlIsolate_eq (s : State) (p : Pkt) : let st := s.fld .REG_STATUS_state p.rgn
    let c := (12 * p.rgn + p.rblk) * 9 + p.rcell
    s.ctlIsolate p =
      if (st = rgnOnline ∨ st = rgnQuarantined) ∧ s.cellEnabled c = true then (s.markIsolate c).endPkt p 0
      else s.failPkt p fcRegionState 0 [] := by
  intro st c
  rw [← ite_not (p := _ ∧ _)]
  refine if_congr ?_ rfl rfl
  rw [not_and_or, not_or, Bool.not_eq_true', Bool.not_eq_true]

theorem State.ctlReset_first (hpos : p.pos = 0) : let st := s.fld .REG_STATUS_state p.rgn
    s.ctlReset p t = if st = rgnOnline ∨ st = rgnQuarantined then
      (s.isolateRegion p.rgn rgnResetting fcRegionReset).modPkt p.q p.seq (fun x => { x with pos := 1 })
      else s.failPkt p fcRegionState 0 [] := if_neg (not_not.mpr hpos)

theorem State.ctlReset_midAction (h : x.midAction = true) : s.ctlReset x t = s.endReset x t :=
  if_pos (Pkt.pos_of_midAction h)

/-- R277, R185: POWER_DOWN with the drain `d` of its region's stores. -/
theorem State.ctlDown_of_drain {r : Nat} {d : State × Bool} (hr : p.rgn = r)
    (hd : d = (s.drainBegin r).drainRegion r) : s.ctlDown p =
      if s.fld .REG_STATUS_state r = rgnOnline ∨ s.fld .REG_STATUS_state r = rgnQuarantined then
        (if d.2 then (d.1.regionOff r).endPkt p 0
          else if mapGet 0 d.1.drainAt r ≤ d.1.now + 1 then
            (((regionCells r).foldl State.drainLose d.1).regionOff r).endPkt p 0
          else d.1)
      else s.failPkt p fcRegionState 0 [] := by
  subst hr hd
  rfl

theorem State.ctlUp_first (hpos : p.pos = 0) : s.ctlUp p t =
    if s.fld .REG_STATUS_state p.rgn = rgnOffline then s.modPkt p.q p.seq (fun x => { x with pos := 1 })
    else s.failPkt p fcRegionState 0 [] := if_pos hpos

theorem State.ctlUp_ramped (hpos : x.pos = 1) : s.ctlUp x t =
    ((s.setFld .REG_SPEED_vcore_mv x.rgn 750).isolateRegion x.rgn rgnResetting fcRegionReset).modPkt x.q x.seq
      (fun y => { y with pos := 2 }) := (if_neg (by omega)).trans (if_pos hpos)

theorem State.ctlUp_midAction (h : x.midAction = true) (hpos : x.pos ≠ 1) : s.ctlUp x t = s.endReset x t :=
  (if_neg (Pkt.pos_of_midAction h)).trans (if_neg hpos)

end

/-- R277: the commands of REGION_CTL with the number and the operation of each. -/
theorem exec_regionCtl {q : Fin 4096} {seq : Nat} {t : SelfTest} {k : Instr × Nat}
    (hk : k ∈ [(Instr.isolate q seq, 0), (.regionReset q seq t, 1), (.selftest q seq t, 2), (.quarantine q seq, 3),
      (.regionPowerDown q seq, 4), (.regionPowerUp q seq t, 5)]) :
    ∃ go, ∀ s, exec k.1 s = .next (s.regionCtl q.val seq k.2 go) := by
  fin_cases hk <;> exact ⟨_, fun _ => rfl⟩

theorem exec_resets {q : Fin 4096} {seq : Nat} {t : SelfTest} {k : Instr × Nat}
    (hk : k ∈ [(Instr.regionReset q seq t, 1), (.selftest q seq t, 2)]) (s : State) :
    exec k.1 s = .next (s.regionCtl q.val seq k.2 (fun s p => s.ctlReset p t)) := by
  fin_cases hk <;> rfl

/-- Settles O45: an action in progress goes on by itself to the end of its reset; any other, once taken, fails where
another is in progress on its region, and else acts by the region's state. -/
theorem regionPackets : Obligations.RegionPackets := by
  intro q seq t s s1 p r st sole c
  refine ⟨fun x ha hx hmid => ⟨fun k hk hact => ?reset, fun hact => ⟨fun hpos => ?ramp, fun hpos => ?up⟩,
    fun u hu hualive hq hqu => ?ended⟩, fun hmid => ⟨fun k hk h hother => ?refused, fun hsole hpos =>
    ⟨fun h => ?isolate, fun k hk h => ?resetBegins, fun h => ?quarantine, fun h => ?powerDown, fun h => ?powerUp⟩⟩⟩
  case reset =>
    rw [exec_resets hk]
    exact next_regionCtl_midAction ha hx hmid hact (State.ctlReset_midAction hmid)
  case ramp => exact next_regionCtl_midAction ha hx hmid hact (State.ctlUp_ramped hpos)
  case up => exact next_regionCtl_midAction ha hx hmid hact (State.ctlUp_midAction hmid hpos)
  case ended =>
    subst hu
    exact ⟨State.endReset_of_alive hualive (hqu.trans_ne hq), State.rebuildRegion_online,
      State.rebuildRegion_quarantined⟩
  case refused =>
    obtain ⟨go, hexec⟩ := exec_regionCtl hk
    rw [hexec]
    exact next_regionCtl_refused hmid h hother go
  case isolate => exact next_regionCtl_sole hmid hsole h (State.ctlIsolate_eq s1 p)
  case resetBegins =>
    rw [exec_resets hk]
    exact next_regionCtl_sole hmid hsole h (State.ctlReset_first hpos)
  case quarantine => exact next_regionCtl_sole hmid hsole h rfl
  case powerDown =>
    intro d
    exact next_regionCtl_sole hmid hsole h (State.ctlDown_of_drain rfl rfl)
  case powerUp => exact next_regionCtl_sole hmid hsole h (State.ctlUp_first hpos)

end Sys2Proof.Machine

/-!
PROOFS. The fetcher: a run of one packet, idleness, CHAIN (R262, R264, R265, R267, R269, R271, R273).
-/

namespace Sys2Proof.Machine

section
variable {s s2 : State} {n addr : Nat} {ind : Bool} {bs : List Byte} {p : Pkt}

/-! ### A packet read (R267, R269) -/

/-- R267, R269: the packet of 64 bytes read at an address, as it enters the pool under a sequence number. -/
def State.poolPkt (s : State) (n addr : Nat) (ind : Bool) (bs : List Byte) (seq : Nat) : Pkt :=
  let x : Pkt :=
    { q := n, seq := seq, addr := addr, ind := ind, words := pktWords bs, deps := [], st := .fetched, since := none
      start := 0, acct := s.fld .CFE_Q_CFG_acct n, pos := 0, eng := 0, fault := 0, lim := 0, crcLim := 0, cxlLim := 0
      held := 0, buf := [] }
  { x with deps := x.waits.map (stepBack (s.queue n).skips 2048 seq) }

/-- R262, R267: the fetcher past a packet, which is in the pool. -/
def State.pooled (s : State) (n : Nat) (p : Pkt) : State :=
  let t := (s.passPkt n p.ind).setFld .CFE_Q_SEQ_fetched_seq n p.seq
  State.setQueue { t with pool := t.pool ++ [p] } n ((t.queue n).after p)

theorem State.passPkt_only (s : State) (n : Nat) (ind : Bool) :
    s.passPkt n ind = { s with regs := (s.passPkt n ind).regs } := by
  cases ind with
  | true => exact State.setFlds_only ..
  | false => rfl

theorem State.pooled_pool (s : State) (n : Nat) (p : Pkt) : (s.pooled n p).pool = s.pool ++ [p] := by
  have hpass : (s.passPkt n p.ind).pool = s.pool := by rw [State.passPkt_only]
  exact congrArg (· ++ [p]) hpass

theorem State.pooled_only (s : State) (n : Nat) (p : Pkt) :
    let t := s.pooled n p
    t = { s with pool := t.pool, regs := t.regs, queues := t.queues } := by
  unfold State.pooled
  rw [State.passPkt_only]
  rfl

theorem State.pooled_seq (s : State) (n : Nat) (p : Pkt) :
    (s.pooled n p).fld .CFE_Q_SEQ_fetched_seq n = p.seq % 2 ^ Fld.CFE_Q_SEQ_fetched_seq.desc.width :=
  State.fld_setFld_self ..

/-- R262: the fetcher past a packet of the ring. -/
theorem State.pooled_rptr (hp : p.ind = false) : (s.pooled n p).fld .CFE_Q_RPTR_rptr n =
    (s.fld .CFE_Q_RPTR_rptr n + 1) % 2 ^ Fld.CFE_Q_RPTR_rptr.desc.width := by
  have hpass : s.passPkt n p.ind = s.setFld .CFE_Q_RPTR_rptr n (s.fld .CFE_Q_RPTR_rptr n + 1) := by
    rw [hp]
    rfl
  have hseq : (s.pooled n p).fld .CFE_Q_RPTR_rptr n = (s.passPkt n p.ind).fld .CFE_Q_RPTR_rptr n :=
    State.fld_setFld_ne _ _ _ _ (by decide)
  rw [hseq, hpass, State.fld_setFld_self]

/-- R267, R273: a packet read that passes the checks enters the pool. -/
theorem State.fetchPkt_of_ok (h : s.readPkt n addr ind = .ok s2 bs)
    (hp : s2.poolPkt n addr ind bs (s2.fld .CFE_Q_SEQ_fetched_seq n + 1) = p) (hcheck : s2.checkPkt p = 0) :
    (s.fetchPkt n addr ind false).1 = s2.pooled n p := by
  subst hp
  unfold State.fetchPkt
  rw [h]
  exact congrArg Prod.fst (if_pos hcheck)

/-! ### Turns of the fetcher (R264, R265) -/

/-- R264: a run of one packet ends with it, whether or not the checks let a run go on. -/
theorem State.fetchRun_one (h : s.mayFetch n = true) :
    State.fetchRun n 1 s = ((s.roomTaken n).fetchPkt n (s.nextAddr n).1 (s.nextAddr n).2 false).1 := by
  simp only [State.fetchRun, h, Bool.not_true, Bool.false_eq_true, if_false]
  generalize (s.roomTaken n).fetchPkt n (s.nextAddr n).1 (s.nextAddr n).2 false = r
  obtain ⟨t, goesOn⟩ := r
  cases goesOn
  · rfl
  · rfl

theorem State.fetchRun_no_room (h : s.mayFetch n = false) (k : Nat) : State.fetchRun n k s = s := by
  cases k with
  | zero => rfl
  | succ k => exact if_pos (by rw [h]; rfl)

theorem State.fetches_of_mayFetch (h : s.mayFetch n = true) : s.fetches n = true :=
  (Bool.and_eq_true_iff.mp (Bool.and_eq_true_iff.mp h).1).1

theorem State.fetchTurn_of_not_fetches (h : s.fetches n = false) : s.fetchTurn n = s := if_pos (by rw [h]; rfl)

/-- R264: a queue whose fetcher runs, with no packet to fetch again, fetches its next run. -/
theorem State.fetchTurn_of_run (h : s.fetches n = true) (hre : (s.queue n).refetch = none) (hrun : s.runLength n ≠ 0) :
    s.fetchTurn n = State.fetchRun n (s.runLength n) s := by
  simp only [State.fetchTurn, h, hre, hrun, Bool.not_true, Bool.false_eq_true, if_false]

/-- R264: with no packet left up to `q.w` the write pointer is read again before the run. -/
theorem State.fetchTurn_of_empty (h : s.fetches n = true) (hre : (s.queue n).refetch = none)
    (hrun : s.runLength n = 0) :
    s.fetchTurn n = State.fetchRun n ((s.reread n).runLength n) (s.reread n) := by
  simp only [State.fetchTurn, h, hre, hrun, Bool.not_true, Bool.false_eq_true, if_false, if_true]

/-- R265: without room nothing is fetched. -/
theorem State.fetchTurn_of_no_room (h : s.fetches n = true) (hroom : s.mayFetch n = false)
    (hwork : (s.queue n).refetch ≠ none ∨ s.runLength n ≠ 0) : s.fetchTurn n = s := by
  cases hre : (s.queue n).refetch with
  | some a => simp only [State.fetchTurn, h, hre, hroom, Bool.not_true, Bool.false_eq_true, if_false]
  | none =>
    rw [State.fetchTurn_of_run h hre (hwork.resolve_left (not_not.mpr hre)), State.fetchRun_no_room hroom]

/-! ### An idle fetcher (R264) -/

/-- R264: a fetcher without work: the latch clear, the fetcher idle. -/
def State.idled (s : State) (n : Nat) : State :=
  (s.setFld .CFE_Q_STATUS_doorbell_latch n 0).setFld .CFE_Q_STATUS_idle n 1

theorem State.fld_idled {f : Fld} (j : Nat) (hlatch : f ≠ .CFE_Q_STATUS_doorbell_latch)
    (hidle : f ≠ .CFE_Q_STATUS_idle) : (s.idled n).fld f j = s.fld f j :=
  (State.fld_setFld_ne _ _ _ _ hidle).trans (State.fld_setFld_ne _ _ _ _ hlatch)

theorem State.reread_of_done (h : s.fld .CFE_Q_WPTR_wptr n = (s.queue n).w) : s.reread n = s.idled n :=
  if_pos ((State.fld_setFld_ne _ _ _ _ (by decide)).trans h)

/-- R264: a ring with nothing below the write pointer has no run. -/
theorem State.runLength_of_done (hchain : s.fld .CFE_Q_STATUS_in_chain n = 0)
    (hw : (s.queue n).w ≤ s.fld .CFE_Q_RPTR_rptr n) : s.runLength n = 0 := by
  simp [State.runLength, State.flag, hchain, Nat.sub_eq_zero_of_le hw]

/-- R264: with nothing below the write pointer a turn leaves the fetcher idle. -/
theorem State.fetchTurn_of_done (h : s.fetches n = true) (hre : (s.queue n).refetch = none)
    (hchain : s.fld .CFE_Q_STATUS_in_chain n = 0) (hw : s.fld .CFE_Q_WPTR_wptr n = (s.queue n).w)
    (hr : (s.queue n).w ≤ s.fld .CFE_Q_RPTR_rptr n) : s.fetchTurn n = s.idled n := by
  have hrptr : (s.idled n).fld .CFE_Q_RPTR_rptr n = s.fld .CFE_Q_RPTR_rptr n := State.fld_idled n (by decide) (by decide)
  have hstill : (s.idled n).runLength n = 0 := State.runLength_of_done
    ((State.fld_idled n (by decide) (by decide)).trans hchain) (hr.trans_eq hrptr.symm)
  rw [State.fetchTurn_of_empty h hre (State.runLength_of_done hchain hr), State.reread_of_done hw, hstill]
  rfl

/-! ### The commands -/

theorem exec_fetchRun {q : Fin 4096} {t : State} (hr : s.ready = true) (ht : s.fetchTurn q.val = t) :
    exec (.fetchRun q) s = .next t := congrArg Host.Outcome.next ((if_pos hr).trans ht)

theorem Pkt.cls_of_chain (h : p.opcode = 0x0E) : p.cls = some .fetcher := by simp [Pkt.cls, h]

/-- R271: CHAIN turns the fetcher to the buffer that it names. -/
theorem exec_chain {q : Fin 4096} {seq : Nat} (hr : s.ready = true) (h : s.pkt q.val seq = some p)
    (hop : p.opcode = 0x0E) (hfault : p.fault = 0) : exec (.chain q seq) s =
      .next ((s.setFlds p.q [(.CFE_Q_CHAIN_next, p.b 8 8), (.CFE_Q_CHAIN_LEFT_left, p.b 16 4),
        (.CFE_Q_STATUS_in_chain, 1)]).endPkt p 0) := by
  have hexec : exec (.chain q seq) s = execChain q seq s := rfl
  rw [hexec, execChain, h]
  exact congrArg Host.Outcome.next (if_neg (by simp [hr, Pkt.cls_of_chain hop, hfault]))

end

/-- Settles O46: a turn of the fetcher by what there is to fetch, a run of one packet, which enters the pool, or
nothing; and CHAIN. -/
theorem fetches : Obligations.Fetches := by
  intro q s hready n
  refine ⟨fun s2 bs hmay hre hrun hread => ?one, fun hf hre hchain hw hr => ?idle, fun hf => ?off,
    fun hf hroom hwork => ?full, fun seq p hp hop hfault => exec_chain hready hp hop hfault⟩
  case one =>
    intro seq x p hcheck
    have hturn : s.fetchTurn n = s2.pooled n p := by
      rw [State.fetchTurn_of_run (State.fetches_of_mayFetch hmay) hre (hrun.trans_ne one_ne_zero), hrun,
        State.fetchRun_one hmay]
      exact State.fetchPkt_of_ok hread rfl hcheck
    exact ⟨_, exec_fetchRun hready hturn, State.pooled_pool .., State.pooled_seq .., State.pooled_rptr,
      State.pooled_only ..⟩
  case idle =>
    exact ⟨s.idled n, exec_fetchRun hready (State.fetchTurn_of_done hf hre hchain hw hr), State.fld_setFld_self ..,
      (State.fld_setFld_ne _ _ _ _ (by decide)).trans (State.fld_setFld_self ..), rfl⟩
  case off => exact exec_fetchRun hready (State.fetchTurn_of_not_fetches hf)
  case full => exact exec_fetchRun hready (State.fetchTurn_of_no_room hf hroom hwork)

end Sys2Proof.Machine

/-!
PROOFS. The bootstrap of queue 0 (R289), fence signals (R293), doorbells (R263).
-/

namespace Sys2Proof.Machine

section
variable {s : State} {n f v : Nat}

/-! ### Queue 0 (R287, R289) -/

theorem State.bootEnable_of_taken (h : s.qState 0 ≠ qDisabled) : s.bootEnable = s := if_pos (.inl h)

/-- R289: the fields with which the bootstrap registers create queue 0. -/
def State.bootCfg (s : State) : QueueCfg :=
  { kernel := true, ringHost := s.flag .CFE_BOOTQ_CFG_ring_host 0, size := s.fld .CFE_BOOTQ_CFG_size_log2 0, asc := 0
    prio := 7, acct := 0, base := s.fld .CFE_BOOTQ_BASE_base 0, cmpl := s.fld .CFE_BOOTQ_CMPL_cmpl_base 0
    cmplHost := s.flag .CFE_BOOTQ_CMPL_cmpl_host 0
    vector := if s.flag .CFE_BOOTQ_CFG_vector_en 0 then some (s.fld .CFE_BOOTQ_CFG_vector 0) else none
    budget := 0xFFFFFFFF }

theorem State.fld_setRoot_ne {g : Fld} (hroot : g.desc.reg ≠ .CFE_ASC_ROOT) (hstate : g.desc.reg ≠ .CFE_ASC_STATE)
    (a root j : Nat) : (s.setRoot a root).fld g j = s.fld g j := by
  refine State.fld_setFlds_ne _ _ _ _ fun e he hge => ?_
  subst hge
  simp only [List.mem_cons, List.not_mem_nil, or_false] at he
  obtain rfl | rfl := he
  · exact hroot rfl
  · exact hstate rfl

/-- R289: ASC 0 ACTIVE with root 0. -/
def State.bootAsc (s : State) : State := (s.setFld .CFE_ASC_STATE_state 0 1).setRoot 0 0

/-- The bootstrap registers read as before. -/
theorem State.bootCfg_bootAsc (s : State) : s.bootAsc.bootCfg = s.bootCfg := by
  have hfld : ∀ g : Fld, g.desc.reg ≠ .CFE_ASC_ROOT → g.desc.reg ≠ .CFE_ASC_STATE → s.bootAsc.fld g 0 = s.fld g 0 :=
    fun g hroot hstate => (State.fld_setRoot_ne hroot hstate 0 0 0).trans
      (State.fld_setFld_ne _ _ _ _ fun hg => hstate (hg ▸ rfl))
  have hflag : ∀ g : Fld, g.desc.reg ≠ .CFE_ASC_ROOT → g.desc.reg ≠ .CFE_ASC_STATE →
      s.bootAsc.flag g 0 = s.flag g 0 := fun g hroot hstate => by rw [State.flag, hfld g hroot hstate, State.flag]
  simp (disch := decide) only [State.bootCfg, hfld, hflag]

/-- R289: with queue 0 DISABLED and ASC 0 FREE, `enable` makes both ACTIVE. -/
theorem State.bootEnable_of_free (hq : s.qState 0 = qDisabled) (hasc : s.fld .CFE_ASC_STATE_state 0 = 0)
    (hlo : 6 ≤ s.fld .CFE_BOOTQ_CFG_size_log2 0) (hhi : s.fld .CFE_BOOTQ_CFG_size_log2 0 ≤ 16) :
    s.bootEnable = s.bootAsc.createQueue 0 s.bootCfg := by
  have hsize : s.bootAsc.fld .CFE_BOOTQ_CFG_size_log2 0 = s.fld .CFE_BOOTQ_CFG_size_log2 0 :=
    congrArg QueueCfg.size (State.bootCfg_bootAsc s)
  rw [← State.bootCfg_bootAsc, State.bootCfg, hsize, State.bootEnable]
  simp only [hq, hasc]
  rw [if_neg (by omega)]
  rfl

theorem State.bootResume_of_faulted (h : s.qState 0 = qFaulted) (retry : Bool) :
    s.bootResume retry = s.resumeQueue 0 retry := if_pos h

theorem State.bootResume_discarded (h : s.qState 0 ≠ qFaulted) (retry : Bool) : s.bootResume retry = s := if_neg h

theorem State.bootReset_of_canDrain (h : s.qState 0 ∈ [qActive, qStopped, qFaulted]) :
    s.bootReset = s.startDrain 0 .reset := if_pos ((State.canDrain_iff 0).mpr h)

theorem State.bootReset_discarded (h : s.qState 0 ∉ [qActive, qStopped, qFaulted]) : s.bootReset = s :=
  if_neg (mt (State.canDrain_iff 0).mp h)

/-- R289: each action of CFE_BOOTQ_CTL is heard in a running device. -/
theorem next_bootCtl {t u : State} (hb : s.bootCtl = true) (h : t = u) :
    (.next (if s.bootCtl then t else s) : Out) = .next u := congrArg Host.Outcome.next ((if_pos hb).trans h)

/-! ### Fence signals (R293) -/

/-- R293: how far a signal's value is ahead of a fence. -/
def State.fenceLead (s : State) (f v : Nat) : Int := sgn 64 (v + (2 ^ 64 - s.fld .CFE_FENCE_VALUE_value f))

theorem State.fenceSignal_ahead (h : 0 < s.fenceLead f v) :
    s.fenceSignal f v = ((s.setFld .CFE_FENCE_VALUE_value f v).fenceTest f, false) := if_pos h

theorem State.fenceSignal_same (h : s.fenceLead f v = 0) : s.fenceSignal f v = (s, false) :=
  (if_neg h.not_gt).trans (if_pos h)

/-- R293: a stale signal counted and marked. -/
def State.staleSignal (s : State) (f : Nat) : State :=
  (s.addFld .CFE_FENCE_STALE_COUNT_count 0 1).satFld .CFE_FENCE_STATUS_stale f 1

theorem State.fenceSignal_stale (h : s.fenceLead f v < 0) : s.fenceSignal f v = (s.staleSignal f, true) :=
  (if_neg h.not_gt).trans (if_neg h.ne)

theorem State.staleSignal_value (s : State) (f : Nat) :
    (s.staleSignal f).fld .CFE_FENCE_VALUE_value f = s.fld .CFE_FENCE_VALUE_value f :=
  (State.fld_satFld_ne _ _ _ _ (by decide)).trans (State.fld_addFld_ne _ _ _ _ (by decide))

theorem State.staleSignal_count (s : State) (f : Nat) : (s.staleSignal f).fld .CFE_FENCE_STALE_COUNT_count 0 =
    (s.fld .CFE_FENCE_STALE_COUNT_count 0 + 1) % 2 ^ Fld.CFE_FENCE_STALE_COUNT_count.desc.width :=
  (State.fld_satFld_ne _ _ _ _ (by decide)).trans (State.fld_setFld_self ..)

/-! ### Doorbells (R263) -/

/-- R263: whether a queue hears doorbells. -/
def State.hears (s : State) (n : Nat) : Prop :=
  s.qState n ≠ qDisabled ∧ (s.qState n = qDraining → (s.queue n).drain = .reset)

theorem State.not_hears_iff : ¬ s.hears n ↔
    s.qState n = qDisabled ∨ (s.qState n = qDraining ∧ (s.queue n).drain ≠ .reset) := by
  rw [State.hears, not_and_or, not_ne_iff, Classical.not_imp]

theorem State.ring_discarded (h : ¬ s.hears n) : s.ring n v = s := if_pos (State.not_hears_iff.mp h)

theorem State.ring_stale (h : s.hears n) (hv : v < s.fld .CFE_Q_WPTR_wptr n) :
    s.ring n v = s.addFld .CFE_Q_DB_STALE_db_stale n 1 :=
  (if_neg fun hno => State.not_hears_iff.mpr hno h).trans (if_pos hv)

/-- R263: a doorbell that overruns the ring faults the queue; one that a RESET drains goes on draining. -/
theorem State.ring_overrun (h : s.hears n) (hv : s.fld .CFE_Q_WPTR_wptr n ≤ v)
    (hover : ¬ v - s.fld .CFE_Q_RPTR_rptr n ≤ 2 ^ s.fld .CFE_Q_CFG_size_log2 n) :
    let t := s.stopQueue n none fcOverrun 0xFFFF 0 []
    s.ring n v = if s.qState n = qDraining then t.setFld .CFE_Q_STATUS_state n qDraining else t :=
  (if_neg fun hno => State.not_hears_iff.mpr hno h).trans ((if_neg hv.not_gt).trans (if_pos (not_le.mp hover)))

/-- R263: the write pointer taken over, the latch set. -/
def State.rung (s : State) (n v : Nat) : State :=
  s.setFlds n [(.CFE_Q_WPTR_wptr, v), (.CFE_Q_STATUS_doorbell_latch, 1), (.CFE_Q_STATUS_idle, 0)]

theorem State.ring_fits (h : s.hears n) (hv : s.fld .CFE_Q_WPTR_wptr n ≤ v)
    (hfits : v - s.fld .CFE_Q_RPTR_rptr n ≤ 2 ^ s.fld .CFE_Q_CFG_size_log2 n) : s.ring n v = s.rung n v :=
  (if_neg fun hno => State.not_hears_iff.mpr hno h).trans ((if_neg hv.not_gt).trans (if_neg hfits.not_gt))

theorem State.rung_wptr (hv : v < 2 ^ 64) : (s.rung n v).fld .CFE_Q_WPTR_wptr n = v :=
  (State.fld_setFlds_of_mem (v := v) (by simp) (by simp)).trans (Nat.mod_eq_of_lt hv)

theorem State.rung_latch (s : State) (n v : Nat) : (s.rung n v).fld .CFE_Q_STATUS_doorbell_latch n = 1 :=
  State.fld_setFlds_of_mem (v := 1) (by simp) (by simp)

theorem State.rung_rptr (s : State) (n v : Nat) : (s.rung n v).fld .CFE_Q_RPTR_rptr n = s.fld .CFE_Q_RPTR_rptr n :=
  State.fld_setFlds_ne _ _ _ _ (by simp)

theorem exec_doorbell {q : Fin 4096} {v : DWord} {t : State} (hr : s.ready = true) (hb : s.barUp = true)
    (h : s.ring q.val v.toNat = t) : exec (.doorbell q v) s = .next t :=
  congrArg Host.Outcome.next ((if_pos (Bool.and_eq_true_iff.mpr ⟨hr, hb⟩)).trans h)

end

/-- Settles O35: the actions of CFE_BOOTQ_CTL by the states of queue 0 and ASC 0, a signal by how far its value is ahead
of the fence, a doorbell by whether the queue hears it and where its value lies. -/
theorem queueZeroAndSignals : Obligations.QueueZeroAndSignals := by
  refine ⟨fun s hb => ⟨fun hq => ?taken, fun hq hasc hlo hhi => ?enable, fun retry => ?resume, ?reset⟩,
    fun s f v => ?signal, fun q v s hr hb => ?doorbell⟩
  case taken => exact next_bootCtl hb (State.bootEnable_of_taken hq)
  case enable =>
    refine next_bootCtl hb ((State.bootEnable_of_free hq hasc hlo hhi).trans ?_)
    simp only [State.bootCfg, State.flag, decide_eq_true_eq]
    rfl
  case resume =>
    exact ⟨fun hq => next_bootCtl hb (State.bootResume_of_faulted hq retry),
      fun hq => next_bootCtl hb (State.bootResume_discarded hq retry)⟩
  case reset =>
    exact ⟨fun hq => next_bootCtl hb (State.bootReset_of_canDrain (by simpa using hq)),
      fun hact hstop hfault => next_bootCtl hb (State.bootReset_discarded (by simp [hact, hstop, hfault]))⟩
  case signal =>
    refine ⟨State.fenceSignal_ahead, State.fenceSignal_same, fun hstale => ?_, by decide, by decide, by decide⟩
    rw [State.fenceSignal_stale hstale]
    exact ⟨rfl, State.staleSignal_value s f, State.staleSignal_count s f, rfl⟩
  case doorbell =>
    intro n w live fits
    exact ⟨fun h => exec_doorbell hr hb (State.ring_discarded h),
      fun h hv => ⟨_, exec_doorbell hr hb (State.ring_stale h hv), State.fld_setFld_self ..,
        State.fld_addFld_ne _ _ _ _ (by decide), rfl⟩,
      fun h hv hover => exec_doorbell hr hb (State.ring_overrun h hv hover),
      fun h hv hfits => ⟨_, exec_doorbell hr hb (State.ring_fits h hv hfits), State.rung_wptr v.isLt,
        State.rung_latch .., State.rung_rptr .., fun i hi => State.fld_setFlds_other hi _, State.setFlds_only ..⟩⟩

end Sys2Proof.Machine

/-!
PROOFS. Forced fences (R294, R296).
-/

namespace Sys2Proof.Machine

section
variable {s : State} {f v : Nat}

/-- R294: a value satisfies a wait as the signed difference, written from the value's side, says. -/
theorem fenceSat_eq (v w : Nat) : fenceSat v w = decide ((v + 2 ^ 64 - w % 2 ^ 64) % 2 ^ 64 < 2 ^ 63) := by
  rw [fenceSat, Nat.add_sub_assoc (Nat.mod_lt w (by decide)).le]

/-- R296: a forced fence before its waiters are tested: CFE_FENCE_FORCE and the fence hold the written value. -/
def State.fenceForced (s : State) (f v : Nat) : State :=
  (s.setFld .CFE_FENCE_FORCE_value f v).setFld .CFE_FENCE_VALUE_value f v

theorem State.fenceForced_value (hv : v < 2 ^ 64) : (s.fenceForced f v).fld .CFE_FENCE_VALUE_value f = v :=
  (State.fld_setFld_self ..).trans (Nat.mod_eq_of_lt hv)

theorem State.fenceForced_other {g : Fld} {i : Nat} (hforce : g ≠ .CFE_FENCE_FORCE_value)
    (h : ¬ (g = .CFE_FENCE_VALUE_value ∧ i = f)) : (s.fenceForced f v).fld g i = s.fld g i :=
  (State.fld_setFld_other _ _ _ _ _ _ h).trans (State.fld_setFld_ne _ _ _ _ hforce)

/-- R294: the waiters of a fence that a value satisfies complete. -/
theorem State.fenceTest_of_value (hv : s.fld .CFE_FENCE_VALUE_value f = v) : s.fenceTest f =
    s.each (s.pool.filter (fun p =>
      p.waitsFence f && decide ((v + 2 ^ 64 - p.b 16 8 % 2 ^ 64) % 2 ^ 64 < 2 ^ 63))) (fun x p => x.endPkt p 0) := by
  simp only [← fenceSat_eq, ← hv]
  rfl

theorem exec_fenceForce_of_alive {f : Fin 4096} {v : DWord} (h : s.alive = true) :
    exec (.fenceForce f v) s = .next ((s.fenceForced f.val v.toNat).fenceTest f.val) := if_pos h

end

/-- Settles O36: the fence takes the value in its own register, and the test of its waiters reads it there. -/
theorem fenceForced : Obligations.FenceForced := by
  intro f v s halive
  have hvalue := State.fenceForced_value (s := s) (f := f.val) v.isLt
  refine ⟨s.fenceForced f.val v.toNat, ?run, hvalue, fun i hi => ?others, ?count, fun i => ?mark, rfl⟩
  case run =>
    exact (exec_fenceForce_of_alive halive).trans (congrArg Host.Outcome.next (State.fenceTest_of_value hvalue))
  case others => exact State.fenceForced_other (by decide) fun h => hi h.2
  case count => exact State.fenceForced_other (by decide) (by simp)
  case mark => exact State.fenceForced_other (by decide) (by simp)

end Sys2Proof.Machine

/-!
PROOFS. Collective packets begun and carried on (R366 to R371).
-/

namespace Sys2Proof.Machine

section
variable {s s1 : State} {p : Pkt} {q : Fin 4096} {seq : Nat}

/-- R366: a collective packet whose step is not there begins it. -/
theorem State.collPkt_begins (h : s.collOf p.q p.seq = none) : s.collPkt p = (s.collStart p).collPoll p.q p.seq := by
  rw [State.collPkt, h]
  rfl

/-- R367: one whose step is there carries it on. -/
theorem State.collPkt_carries {x : CollStep} (h : s.collOf p.q p.seq = some x) :
    s.collPkt p = s.collPoll p.q p.seq := by
  rw [State.collPkt, h]
  rfl

/-- R367: the five collectives, once taken, are one packet: its `op` alone tells them apart. -/
theorem exec_collective {r : (Fin 4096 → Nat → Instr) × Nat}
    (hr : r ∈ [(Instr.allReduce, 0), (.reduceScatter, 1), (.allGather, 2), (.broadcast, 3), (.barrier, 4)])
    (h : s.taken q.val seq (isAct 0x0B r.2) = some (s1, p)) : exec (r.1 q seq) s = .next (s1.collPkt p) := by
  simp only [List.mem_cons, List.not_mem_nil, or_false] at hr
  obtain rfl | rfl | rfl | rfl | rfl := hr
  all_goals exact next_perform_taken h rfl

/-- R366: the step that a collective packet begins, before any credit or segment. -/
def Pkt.collStep (p : Pkt) : CollStep := ⟨p.q, p.seq, p.cgroup, p.cseqOf, p.digest, [], false, 0, 0, []⟩

/-- R371: a `coll_seq` that is not above the last of its group is a mismatch, and the neighbours are told. -/
theorem State.collStart_mismatch (h : s.collAhead p.cgroup p.cseqOf = false) : s.collStart p =
    (s.collAbortOut p.cgroup p.cseqOf).failPkt p fcCollMismatch 0 [s.collEntry p.collStep] := by
  have hbehind : (!s.collAhead p.cgroup p.cseqOf) = true := by rw [h]; rfl
  exact if_pos hbehind

/-- R369: the credits of a step need a route to either neighbour. -/
theorem State.collStart_unreachable (h : s.collAhead p.cgroup p.cseqOf = true)
    (hroute : s.route (s.collNext p.cgroup) = none ∨ s.route (s.collPrev p.cgroup) = none) :
    s.collStart p = s.failPkt p fcRemoteUnreachable 0 [s.collEntry p.collStep] := by
  have hahead : ¬ (!s.collAhead p.cgroup p.cseqOf) = true := by simp [h]
  exact (if_neg hahead).trans (if_pos (by simpa only [Option.isNone_iff_eq_none] using hroute))

end

/-- Settles O41: a collective packet, once taken, acts by whether its step is there, and its start fails where its
`coll_seq` or a route is amiss. -/
theorem collectivePackets : Obligations.CollectivePackets := by
  refine ⟨fun r hr q seq s s1 p h => ⟨fun hnew => ?begins, fun x hx => ?carries⟩,
    fun s p => ⟨State.collStart_mismatch, State.collStart_unreachable⟩⟩
  case begins => exact (exec_collective hr h).trans (congrArg Host.Outcome.next (State.collPkt_begins hnew))
  case carries => exact (exec_collective hr h).trans (congrArg Host.Outcome.next (State.collPkt_carries hx))

end Sys2Proof.Machine

/-!
PROOFS. The power manager: the tick (R442 to R448), the sample ring (R461), the brake (R446), the energy split (R315),
THERMTRIP_N (R448), the heartbeat (R328), the request for an orderly power-down (R450, R451).
-/

namespace Sys2Proof.Machine

section
variable {s : State}

/-- R453: the power manager runs on a chip that has its power. -/
theorem State.pwrgood_of_pmRuns (h : s.pmRuns = true) : s.pwr.pwrgood = true := by
  simp only [State.pmRuns, Bool.and_eq_true] at h
  exact h.1.1.1

/-- What acts only while the power manager runs, acts. -/
theorem next_of_pmRuns {t u : State} (h : s.pmRuns = true) :
    (.next (if !s.pmRuns then t else u) : Out) = .next u := by simp [h]

/-! ### The tick (R439, R442 to R448) -/

/-- R442, R444, R448: the state that a tick has measured, before it acts on it. -/
def State.ticked (s : State) (m : RailSample) : State := ((s.measured m).averaged.metered).watchRails m

/-- R444: the cap in mW times the samples of the mean. -/
def State.capSum (s : State) : Nat := s.fld .PWR_CAP_cap_w 0 * 1000 * s.pwr.avg.length

theorem exec_tick_of_runs {m : RailSample} (h : s.pmRuns = true) (hrails : railLost m = false) :
    let a := s.ticked m
    let hi := decide (a.capSum < a.pwr.avg.sum)
    let under := decide (a.pwr.avg.sum * 100 < a.capSum * 98)
    exec (.powerManagerTick m) s = .next (((if a.railsFree then
      a.railTick hi under (decide (235000 < a.fld .PWR_RAIL_ma 40)) else a).pwrState hi under).railFaults m) := by
  have hgood : ¬ (!s.pwr.pwrgood) = true := by simp [State.pwrgood_of_pmRuns h]
  exact congrArg Host.Outcome.next
    ((if_neg hgood).trans ((if_neg (Bool.eq_false_iff.mp hrails)).trans (if_neg (by simp [h]))))

/-- R439: a board rail lost is a loss of power, whatever the firmware does. -/
theorem exec_tick_of_lost {m : RailSample} (hgood : s.pwr.pwrgood = true) (hrails : railLost m = true) :
    exec (.powerManagerTick m) s = .next s.powerLoss :=
  congrArg Host.Outcome.next ((if_neg (by simp [hgood])).trans (if_pos hrails))

/-! ### The sample ring (R461) -/

/-- R461: the sample of the power manager at this moment. -/
def State.powerNow (s : State) : PwrSample :=
  ⟨s.now, s.fld .PWR_STATUS_power_w 0, s.fld .PWR_CAP_cap_w 0,
    (List.range 56).map (fun n => min 65535 (s.railUw n / 100000)), (List.range 128).map s.sensor⟩

theorem State.powerNow_rails (s : State) : s.powerNow.rails.length = 56 := by simp [State.powerNow]

theorem State.powerNow_temps (s : State) : s.powerNow.temps.length = 128 := by simp [State.powerNow]

/-- R461: a ring with one sample more, the oldest gone from 1,000 on. -/
def ringPush (l : List PwrSample) (x : PwrSample) : List PwrSample := (l ++ [x]).drop (l.length + 1 - 1000)

theorem length_ringPush_le (l : List PwrSample) (x : PwrSample) : (ringPush l x).length ≤ 1000 := by
  rw [ringPush, List.length_drop, List.length_append, List.length_singleton]
  omega

/-- The power manager's state with a ring in place of its own. -/
def State.withRing (s : State) (l : List PwrSample) : State := { s with pwr := { s.pwr with ring := l } }

theorem State.withRing_only (s : State) (l : List PwrSample) :
    s.withRing l = { s with pwr := { s.pwr with ring := (s.withRing l).pwr.ring } } := rfl

theorem State.ring_withRing (s : State) (l : List PwrSample) : (s.withRing l).pwr.ring = l := rfl

theorem exec_powerSample_of_runs (h : s.pmRuns = true) :
    exec .powerSample s = .next (s.withRing (ringPush s.pwr.ring s.powerNow)) := by
  have hlen : (s.pwr.ring ++ [s.powerNow]).length = s.pwr.ring.length + 1 := List.length_append
  rw [ringPush, ← hlen]
  exact next_of_pmRuns h

/-! ### The power state and the brake (R446, R448) -/

/-- The value of PWR_STATUS `state` that the brake, the temperatures and the cap give (log entry 39). -/
def State.pwrCode (s : State) (hi under : Bool) : Nat :=
  if s.pwr.brake then 3 else if !s.pwr.therm.isEmpty then 2
  else if hi || (s.fld .PWR_STATUS_state 0 == 1 && !under) then 1 else 0

theorem State.pwrCode_lt (s : State) (hi under : Bool) : s.pwrCode hi under < 4 := by
  unfold State.pwrCode
  split_ifs <;> decide

theorem State.pwrState_eq (s : State) (hi under : Bool) :
    let t := s.setFld .PWR_STATUS_state 0 (s.pwrCode hi under)
    s.pwrState hi under = if s.pwrCode hi under ≠ 0 ∧ s.pwrCode hi under ≠ s.fld .PWR_STATUS_state 0 then
      t.satFld .PWR_STATUS_throttle_events 0 1 else t := rfl

@[simp] theorem State.pwrState_pwr (s : State) (hi under : Bool) : (s.pwrState hi under).pwr = s.pwr := by
  rw [State.pwrState_eq]
  split <;> rfl

theorem State.fld_pwrState (s : State) (hi under : Bool) :
    (s.pwrState hi under).fld .PWR_STATUS_state 0 = s.pwrCode hi under := by
  have hset : (s.setFld .PWR_STATUS_state 0 (s.pwrCode hi under)).fld .PWR_STATUS_state 0 = s.pwrCode hi under :=
    (State.fld_setFld_self ..).trans (Nat.mod_eq_of_lt (s.pwrCode_lt hi under))
  rw [State.pwrState_eq]
  split
  · exact (State.fld_satFld_ne _ _ _ _ (by decide)).trans hset
  · exact hset

/-- R446: the brake comes first. -/
theorem State.pwrCode_of_brake (h : s.pwr.brake = true) (hi under : Bool) : s.pwrCode hi under = 3 := if_pos h

/-- R448: without brake and cap the temperatures alone decide. -/
theorem State.pwrCode_of_free (hbrake : s.pwr.brake = false) (hold : s.fld .PWR_STATUS_state 0 ≠ 1) :
    s.pwrCode false false = if s.pwr.therm = [] then 0 else 2 := by
  rw [State.pwrCode, if_neg (Bool.eq_false_iff.mp hbrake)]
  cases s.pwr.therm with
  | nil => simp [hold]
  | cons e l => simp

theorem State.setRail_brake (s : State) (r mv : Nat) : (s.setRail r mv).pwr.brake = s.pwr.brake := by
  unfold State.setRail
  split <;> rfl

theorem State.lower_brake (s : State) (r mv : Nat) : (s.lower r mv).pwr.brake = s.pwr.brake := by
  unfold State.lower
  split
  · exact State.setRail_brake ..
  · rfl

/-- R446: the brake applied to the rails. -/
def State.brakeRails (s : State) : State :=
  if s.railsFree then s.each (List.range 24) (fun s r => s.lower r 150) else s

theorem State.brakeRails_brake (s : State) : s.brakeRails.pwr.brake = s.pwr.brake := by
  unfold State.brakeRails
  split
  · exact State.each_same _ _ (fun s => s.pwr.brake) fun s r => State.lower_brake s r 150
  · rfl

/-- The pin of the brake. -/
def State.setBrake (s : State) (on : Bool) : State := { s with pwr := { s.pwr with brake := on } }

theorem exec_brakeAssert_of_runs (h : s.pmRuns = true) :
    exec .pwrBrakeAssert s = .next ((s.setBrake true).brakeRails.pwrState false false) :=
  congrArg Host.Outcome.next (if_pos h)

theorem exec_brakeRelease_of_runs (h : s.pmRuns = true) :
    exec .pwrBrakeRelease s = .next ((s.setBrake false).pwrState false false) :=
  congrArg Host.Outcome.next (if_pos h)

/-! ### The energy split (R315) -/

/-- R315: the energy of a unit that is no whole microjoule stays with the unit. -/
def restPj (x : Nat × Nat) : Option (Nat × Nat) := if x.2 % 100000 = 0 then none else some (x.1, x.2 % 100000)

/-- R315: the energy of every unit split among its tags, the uses forgotten. -/
def State.splitAll (s : State) : State :=
  let t := s.each s.pwr.unitPj State.splitUnit
  { t with used := [], pwr := { t.pwr with unitPj := t.pwr.unitPj.filterMap restPj } }

theorem exec_energySplit_of_runs (h : s.pmRuns = true) : exec (.energySplit ()) s = .next s.splitAll :=
  next_of_pmRuns h

theorem State.splitUnit_mem (s : State) (x : Nat × Nat) : (s.splitUnit x).mem = s.mem :=
  State.each_same _ _ State.mem fun _ _ => rfl

theorem State.splitUnit_pwr (s : State) (x : Nat × Nat) : (s.splitUnit x).pwr = s.pwr :=
  State.each_same _ _ State.pwr fun _ _ => rfl

theorem State.splitAll_mem (s : State) : s.splitAll.mem = s.mem := State.each_same _ _ State.mem State.splitUnit_mem

theorem State.splitAll_unitPj (s : State) : s.splitAll.pwr.unitPj = s.pwr.unitPj.filterMap restPj :=
  congrArg (fun w : PwrSt => w.unitPj.filterMap restPj) (State.each_same _ _ State.pwr State.splitUnit_pwr)

/-- R315: a unit used by one tag gives it all its whole microjoules. -/
theorem State.splitUnit_of_single {u x tag : Nat} (ht : tag < 65536)
    (huse : mapRange s.used (65536 * u) (65536 * (u + 1)) = [(65536 * u + tag, 1)]) :
    s.splitUnit (u, x) = s.owe (tag, x / 100000) := by
  have htag : (65536 * u + tag) % 65536 = tag := by omega
  have hall : splitEnergy (x / 100000) 1 0 [(tag, 1)] = [(tag, x / 100000)] := by simp [splitEnergy]
  rw [State.splitUnit]
  simp only [huse, List.map_cons, List.map_nil, htag, List.sum_singleton, hall]
  rfl

theorem State.splitAll_of_single {u x tag : Nat} (ht : tag < 65536) (hunit : s.pwr.unitPj = [(u, x)])
    (huse : mapRange s.used (65536 * u) (65536 * (u + 1)) = [(65536 * u + tag, 1)]) :
    s.splitAll.regs = (s.owe (tag, x / 100000)).regs ∧ s.splitAll.energyRem = (s.owe (tag, x / 100000)).energyRem := by
  have hsplit : s.each s.pwr.unitPj State.splitUnit = s.owe (tag, x / 100000) := by
    rw [hunit]
    exact State.splitUnit_of_single ht huse
  rw [← hsplit]
  exact ⟨rfl, rfl⟩

theorem State.owe_meter {tag e : Nat} (ht : tag < 65536) : (s.owe (tag, e)).fld .CFE_ACCT_energy_mj tag =
      (s.fld .CFE_ACCT_energy_mj tag + (mapGet 0 s.energyRem tag + e) / 1000) %
        2 ^ Fld.CFE_ACCT_energy_mj.desc.width := by
  rw [State.owe, Nat.mod_eq_of_lt ht]
  exact State.fld_setFld_self ..

theorem State.owe_rest {tag e : Nat} (ht : tag < 65536) :
    mapGet 0 (s.owe (tag, e)).energyRem tag = (mapGet 0 s.energyRem tag + e) % 1000 := by
  rw [State.owe, Nat.mod_eq_of_lt ht]
  exact mapGet_mapSet_self ..

theorem mapGet_restPj (u x : Nat) : mapGet 0 ([(u, x)].filterMap restPj) u = x % 100000 := by
  by_cases h : x % 100000 = 0 <;> simp [restPj, h, mapGet, mapFind]

/-! ### THERMTRIP_N (R439, R448) -/

theorem State.fuseMaps_only (s : State) : s.fuseMaps = { s with regs := s.fuseMaps.regs } :=
  State.each_only (fun _ _ => State.setFlds_only ..) ..

theorem State.fuseMaps_mem (s : State) : s.fuseMaps.mem = s.mem := by rw [State.fuseMaps_only]

theorem State.fuseMaps_flash (s : State) : s.fuseMaps.flash = s.flash := by rw [State.fuseMaps_only]

theorem State.powerLoss_mem (s : State) : s.powerLoss.mem = [] := State.fuseMaps_mem _

theorem State.powerLoss_flash (s : State) : s.powerLoss.flash = s.flash := State.fuseMaps_flash _

/-- R448: a sensor at 125 °C trips the regulators without the firmware. -/
theorem exec_sensorSample_trips {l : List (Nat × Int)} (hgood : s.pwr.pwrgood = true) (hregs : s.pwr.regsOff = false)
    (hhot : ∃ x ∈ l, x.1 < 128 ∧ 1000 ≤ x.2 + s.calOf 3 x.1) : exec (.sensorSample l) s = .next s.thermTrip := by
  have hany : l.any (fun x => decide (x.1 < 128) && decide (x.2 + s.calOf 3 x.1 ≥ 1000)) = true := by
    simpa [List.any_eq_true] using hhot
  exact congrArg Host.Outcome.next ((if_neg (by simp [hgood, hregs])).trans (if_pos hany))

/-! ### The heartbeat and the orderly power-down (R328, R450) -/

/-- R328: the heartbeat from boot state 3 on, before January mode and before any stop. -/
theorem exec_beat_of_boot (hgood : s.pwr.pwrgood = true) (hregs : s.pwr.regsOff = false)
    (hlo : 3 ≤ s.fld .HIF_PROMPT_STATE_boot_state 0) (hhi : s.fld .HIF_PROMPT_STATE_boot_state 0 < 9) :
    exec .beat s = .next (s.addFld .HIF_PROMPT_BEAT_beat 0 1) := by
  refine congrArg Host.Outcome.next (if_pos ?_)
  have hjan : s.fld .HIF_PROMPT_STATE_boot_state 0 ≠ 9 := hhi.ne
  have hstop : s.fld .HIF_PROMPT_STATE_boot_state 0 ≠ 0xA := by omega
  simp [hgood, hregs, hlo, hjan, hstop]

/-- R450: PWROFF_REQ with no migration under way begins the power-down at once. -/
theorem exec_pwroffReq_begins (hgood : s.pwr.pwrgood = true) (hperst : s.pwr.perst = false)
    (hregs : s.pwr.regsOff = false) (hreq : s.pwr.offReq = false) (hmigs : s.migs = []) :
    exec .pwroffReq s = .next (State.offStep { s with pwr :=
      { s.pwr with offPin := true, offReq := true, offAt := s.now, offLim := s.now + s.deadNs false } }) := by
  refine congrArg Host.Outcome.next ((if_neg (by simp [hgood, hperst, hregs, hreq])).trans ?_)
  simp only [hmigs]
  rfl

end

/-- Settles O58: each command by the one branch that the power manager's state selects. -/
theorem powerManager : Obligations.PowerManager := by
  intro s
  refine ⟨fun hrun => ⟨fun m hrails => exec_tick_of_runs hrun hrails, ?sample, ?assert, fun hold => ?release, ?split⟩,
    fun hgood m hlost => exec_tick_of_lost hgood hlost, fun hgood hregs l hhot => ?trip,
    fun hgood hregs hlo hhi => ?beat, fun hgood hperst hregs hreq hmigs => ?off, rfl⟩
  case sample =>
    refine ⟨_, exec_powerSample_of_runs hrun, State.withRing_only .., ?_, s.powerNow, State.ring_withRing .., rfl, rfl,
      rfl, s.powerNow_rails, s.powerNow_temps⟩
    rw [State.ring_withRing]
    exact length_ringPush_le ..
  case assert =>
    have hbrake : (s.setBrake true).brakeRails.pwr.brake = true := State.brakeRails_brake _
    exact ⟨_, exec_brakeAssert_of_runs hrun, by rw [State.pwrState_pwr, hbrake],
      (State.fld_pwrState ..).trans (State.pwrCode_of_brake hbrake _ _)⟩
  case release =>
    exact ⟨_, exec_brakeRelease_of_runs hrun, by rw [State.pwrState_pwr]; rfl,
      (State.fld_pwrState ..).trans (State.pwrCode_of_free rfl hold)⟩
  case split =>
    refine ⟨s.splitAll, exec_energySplit_of_runs hrun, rfl, State.splitAll_mem s, fun u x tag hunit huse ht => ?_⟩
    obtain ⟨hregs, hrest⟩ := State.splitAll_of_single ht hunit huse
    refine ⟨?_, (State.fld_congr hregs _ _).trans (State.owe_meter ht), ?_⟩
    · rw [State.splitAll_unitPj, hunit, mapGet_restPj]
    · rw [hrest, State.owe_rest ht]
  case trip =>
    exact ⟨_, exec_sensorSample_trips hgood hregs hhot, rfl, rfl, rfl, State.powerLoss_mem s, State.powerLoss_flash s⟩
  case beat => exact ⟨_, exec_beat_of_boot hgood hregs hlo hhi, rfl, State.fld_setFld_self ..⟩
  case off => exact exec_pwroffReq_begins hgood hperst hregs hreq hmigs

end Sys2Proof.Machine

/-!
PROOFS. The host link: HDM decoder 0 (R324, R333), BIRSP (R335), a vector unmasked (R336).
-/

namespace Sys2Proof.Machine

section

variable {s : State} {v : Nat}

/-! ### HDM decoder 0 (R324, R333) -/

/-- The commit of an open decoder takes the base or sets Error Not Committed. -/
theorem exec_hdmDecoderCommit_of_open {base size ways : Nat} (hup : s.hif.linkUp = true) (hcrs : s.hif.crs = false)
    (hopen : s.hif.decoder = none) : exec (.hdmDecoderCommit base size ways) s = .next (
      if 0 < size ∧ size ≤ s.fld .CFG_HOST_hdm_size_gib 0 * 2 ^ 30 ∧ base % size = 0 ∧ ways = 1 then
        ({ s with hif := { s.hif with decoder := some (base, size), notComm := false } } : State).setFld
          .HIF_LINK_STATUS_mem_en 0 1
      else { s with hif := { s.hif with notComm := true } }) :=
  congrArg Host.Outcome.next (if_neg (by simp [hup, hcrs, hopen]))

/-! ### BIRSP (R335) -/

/-- The snoops outstanding on a line. -/
def State.snoopsOn (s : State) (line : Nat) : List FilterEnt := s.hif.snoops.filter (fun f => f.line == line)

/-- The filter once the host has answered the snoops on a line: one of them BISnpInv, the line leaves it, else it stays
shared. -/
def State.filterAnswered (s : State) (line : Nat) : List FilterEnt :=
  if s.hif.snoops.any (fun f => f.line == line && f.excl) then s.hif.filter.filter (fun f => f.line != line)
  else s.hif.filter.map (fun f => if f.line = line then { f with excl := false } else f)

/-- A BIRSP without a snoop outstanding on its line changes nothing. -/
theorem exec_birsp_of_no_snoop {line : Nat} (dirty : Option (BitVec 1024)) (h : s.snoopsOn line = []) :
    exec (.birsp line dirty) s = .next s := by
  refine congrArg Host.Outcome.next ?_
  rw [State.snoopsOn] at h
  rw [h]

/-- A BIRSP without data ends the snoops on its line. -/
theorem exec_birsp_clean {line : Nat} (h : s.snoopsOn line ≠ []) : exec (.birsp line none) s = .next
    ({ s with hif := { s.hif with
      filter := s.filterAnswered line
      snoops := s.hif.snoops.filter (fun f => f.line != line) } } : State).areaAll.pollAll := by
  have hinv : (s.snoopsOn line).any (fun f => f.excl) = s.hif.snoops.any (fun f => f.line == line && f.excl) :=
    List.any_filter
  rw [State.filterAnswered, ← hinv]
  refine congrArg Host.Outcome.next ?_
  rw [State.snoopsOn] at h ⊢
  split
  · contradiction
  · rfl

/-! ### Vectors unmasked (R322, R336) -/

/-- Whether the function sends messages: MSI-X enabled, the function neither masked nor in D3hot. -/
def State.msixOut (s : State) : Bool := !s.hif.d3hot && s.hif.msixEn && !s.hif.msixMask

/-- An entry unmasked; a pending message goes out where the function sends. -/
def Msix.unmasked (m : Msix) (out : Bool) : Msix :=
  if m.pending && out then { m with masked := false, pending := false, sent := m.sent + 1 }
  else { m with masked := false }

theorem State.unmask_eq (s : State) (v : Nat) :
    s.unmask v = { s with msix := mapSet Msix.init s.msix v ((s.vec v).unmasked s.msixOut) } := by
  simp only [State.unmask, Msix.unmasked, State.msixOut, Bool.and_assoc]

theorem State.vec_unmask_self : (s.unmask v).vec v = (s.vec v).unmasked s.msixOut := by
  rw [State.unmask_eq]
  exact mapGet_mapSet_self ..

theorem State.vec_unmask_other {u : Nat} (h : u ≠ v) : (s.unmask v).vec u = s.vec u := by
  rw [State.unmask_eq]
  exact mapGet_mapSet_other _ _ _ h

theorem State.unmask_only (s : State) (v : Nat) : s.unmask v = { s with msix := (s.unmask v).msix } := rfl

@[simp] theorem Msix.masked_unmasked (m : Msix) (out : Bool) : (m.unmasked out).masked = false := by
  unfold Msix.unmasked
  split <;> rfl

theorem Msix.pending_unmasked (m : Msix) (out : Bool) : (m.unmasked out).pending = (m.pending && !out) := by
  cases out <;> cases h : m.pending <;> simp [Msix.unmasked, h]

theorem Msix.sent_unmasked (m : Msix) (out : Bool) :
    (m.unmasked out).sent = m.sent + (if m.pending && out then 1 else 0) := by
  unfold Msix.unmasked
  split <;> rfl

/-- MSIX_UNMASK outside D3hot unmasks a vector of the table. -/
theorem exec_msixUnmask (hv : v < 2048) (hd3 : s.hif.d3hot = false) : exec (.msixUnmask v) s = .next (s.unmask v) :=
  congrArg Host.Outcome.next (if_pos ⟨hv, by simp [hd3]⟩)

end

/-- Settles O29: each command by its one branch, a vector by the entry unmasked. -/
theorem hostLink : Obligations.HostLink := by
  refine ⟨fun base size ways s hup hcrs hopen => ⟨fun hok => ?commits, fun hbad => ?refuses⟩,
    fun line dirty s => exec_birsp_of_no_snoop dirty, fun line s => exec_birsp_clean, fun v s hv hd3 => ?unmasks⟩
  case commits => exact (exec_hdmDecoderCommit_of_open hup hcrs hopen).trans (congrArg _ (if_pos hok))
  case refuses => exact (exec_hdmDecoderCommit_of_open hup hcrs hopen).trans (congrArg _ (if_neg hbad))
  case unmasks =>
    have hout : s.msixOut = (s.hif.msixEn && !s.hif.msixMask) := by simp [State.msixOut, hd3]
    refine ⟨_, exec_msixUnmask hv hd3, ?_, ?_, ?_, fun u hu => State.vec_unmask_other hu, State.unmask_only s v⟩
    · rw [State.vec_unmask_self, Msix.masked_unmasked]
    · rw [State.vec_unmask_self, Msix.pending_unmasked, hout]
    · rw [State.vec_unmask_self, Msix.sent_unmasked, hout]

end Sys2Proof.Machine

/-!
PROOFS. The resets seen from the host (R340), D3hot (R322), the host link trained (R319, R320), PERST# and the loss of
power (R378, R439).
-/

namespace Sys2Proof.Machine

/-! ### Canonical maps: an entry and its key -/

theorem mapFind_of_mem {α : Type} {m : NMap α} {k : Nat} {x : α} (hs : mapSorted m = true) (h : (k, x) ∈ m) :
    mapFind m k = some x := by
  induction m with
  | nil => cases h
  | cons e t ih =>
    obtain ⟨k', x'⟩ := e
    simp only [mapSorted, Bool.and_eq_true, List.all_eq_true, decide_eq_true_eq] at hs
    rcases List.mem_cons.mp h with heq | h
    · obtain ⟨rfl, rfl⟩ := Prod.mk.inj heq
      exact if_pos rfl
    · have hlt : k' < k := hs.1 _ h
      exact (if_neg hlt.ne).trans (ih hs.2 h)

theorem mem_of_mapFind {α : Type} {m : NMap α} {k : Nat} {x : α} (h : mapFind m k = some x) : (k, x) ∈ m := by
  induction m with
  | nil => cases h
  | cons e t ih =>
    obtain ⟨k', x'⟩ := e
    by_cases hk : k' = k
    · rw [mapFind, if_pos hk] at h
      rw [hk, Option.some.inj h]
      exact List.mem_cons_self
    · rw [mapFind, if_neg hk] at h
      exact List.mem_cons_of_mem _ (ih h)

/-- A part of a map chosen by its keys. -/
theorem mapFind_filter_key {α : Type} (p : Nat → Bool) (m : NMap α) (k : Nat) :
    mapFind (m.filter (fun e => p e.1)) k = if p k then mapFind m k else none := by
  induction m with
  | nil => simp
  | cons e t ih =>
    obtain ⟨k', x⟩ := e
    rw [List.filter_cons]
    by_cases hk : k' = k
    · subst hk
      cases hp : p k' <;> simp [mapFind, ih, hp]
    · cases hp : p k' <;> simp [mapFind, ih, hk]

section

variable {s : State} {r : Resetting} {down : Bool} {v : Nat}

/-! ### D3hot (R322) -/

theorem Msix.unmasked_unmasked (m : Msix) (out : Bool) : (m.unmasked out).unmasked out = m.unmasked out := by
  cases out <;> cases h : m.pending <;> simp [Msix.unmasked, h]

/-- Vectors unmasked one after another: each once, and no other. -/
theorem State.vec_each_unmask (l : List (Nat × Msix)) (s : State) : (s.each l (fun s e => s.unmask e.1)).vec v =
    if v ∈ l.map Prod.fst then (s.vec v).unmasked s.msixOut else s.vec v := by
  induction l generalizing s with
  | nil => rfl
  | cons e t ih =>
    have hcons : s.each (e :: t) (fun s e => s.unmask e.1) = (s.unmask e.1).each t (fun s e => s.unmask e.1) := rfl
    have hout : (s.unmask e.1).msixOut = s.msixOut := rfl
    rw [hcons, ih, hout]
    simp only [List.map_cons, List.mem_cons]
    by_cases hv : v = e.1
    · subst hv
      simp only [State.vec_unmask_self, Msix.unmasked_unmasked, ite_self, true_or, if_true]
    · simp only [State.vec_unmask_other hv, hv, false_or]

theorem State.each_unmask_only (l : List (Nat × Msix)) (s : State) : s.each l (fun s e => s.unmask e.1) =
    { s with msix := (s.each l (fun s e => s.unmask e.1)).msix } := by
  induction l generalizing s with
  | nil => rfl
  | cons e t ih =>
    have hcons : s.each (e :: t) (fun s e => s.unmask e.1) = (s.unmask e.1).each t (fun s e => s.unmask e.1) := rfl
    rw [hcons, ih]
    rfl

/-- The messages that wait for nothing but their function. -/
def State.heldBack (s : State) : List (Nat × Msix) := s.msix.filter (fun e => e.2.pending && !e.2.masked)

theorem State.mem_heldBack (hw : mapWf Msix.init s.msix = true) (v : Nat) :
    v ∈ s.heldBack.map Prod.fst ↔ (s.vec v).pending = true ∧ (s.vec v).masked = false := by
  obtain ⟨hs, -⟩ := (mapWf_iff _ _).mp hw
  constructor
  · intro h
    obtain ⟨e, he, rfl⟩ := List.mem_map.mp h
    obtain ⟨he, hheld⟩ := List.mem_filter.mp he
    rw [State.vec, mapGet, mapFind_of_mem hs he]
    simpa using hheld
  · rintro ⟨hpend, hmask⟩
    cases hfind : mapFind s.msix v with
    | none => simp [State.vec, mapGet, hfind, Msix.init] at hpend
    | some m =>
      have hvec : s.vec v = m := by rw [State.vec, mapGet, hfind]; rfl
      rw [hvec] at hpend hmask
      exact List.mem_map.mpr ⟨(v, m), List.mem_filter.mpr ⟨mem_of_mapFind hfind, by simp [hpend, hmask]⟩, rfl⟩

/-- A message held back goes out where the function sends. -/
theorem Msix.unmasked_of_held {m : Msix} (hpend : m.pending = true) (hmask : m.masked = false) (out : Bool) :
    m.unmasked out = if out then { m with pending := false, sent := m.sent + 1 } else m := by
  obtain ⟨addr, data, masked, pending, sent⟩ := m
  subst hpend hmask
  cases out <;> rfl

/-- The function in D0. -/
def State.inD0 (s : State) : State := { s with hif := { s.hif with d3hot := false } }

theorem State.msixOut_inD0 (s : State) : s.inD0.msixOut = (s.hif.msixEn && !s.hif.msixMask) := rfl

theorem exec_d3hotToD0 (hthere : s.hostThere = true) (hd3 : s.hif.d3hot = true) :
    exec .d3hotToD0 s = .next s.inD0.msixFlush := congrArg Host.Outcome.next (if_pos (by simp [hthere, hd3]))

theorem State.msixFlush_eq (s : State) : s.msixFlush = s.each s.heldBack (fun s e => s.unmask e.1) := rfl

theorem State.msixFlush_only (s : State) : s.msixFlush = { s with msix := s.msixFlush.msix } :=
  State.each_unmask_only ..

theorem State.msixFlush_hif (s : State) : s.msixFlush.hif = s.hif := by rw [State.msixFlush_only]

/-- In D0 the messages held back go out where MSI-X is enabled and the function is not masked. -/
theorem State.vec_msixFlush_inD0 (hw : mapWf Msix.init s.msix = true) (v : Nat) : s.inD0.msixFlush.vec v =
    if (s.vec v).pending = true ∧ (s.vec v).masked = false ∧ s.hif.msixEn = true ∧ s.hif.msixMask = false then
      { s.vec v with pending := false, sent := (s.vec v).sent + 1 }
    else s.vec v := by
  have hvec : s.inD0.vec v = s.vec v := rfl
  have hback : s.inD0.heldBack = s.heldBack := rfl
  rw [State.msixFlush_eq, hback, State.vec_each_unmask, State.msixOut_inD0, hvec]
  by_cases hheld : (s.vec v).pending = true ∧ (s.vec v).masked = false
  · rw [if_pos ((State.mem_heldBack hw v).mpr hheld), Msix.unmasked_of_held hheld.1 hheld.2]
    simp [hheld]
  · rw [if_neg fun h => hheld ((State.mem_heldBack hw v).mp h), if_neg fun h => hheld ⟨h.1, h.2.1⟩]

/-! ### Host-side resets (R332, R340, R380) -/

/-- What a host-side reset does at once: configuration space, and the link where it goes down. -/
def State.resetLink (s : State) (down : Bool) : State := if down then s.configReset.linkDown else s.configReset

/-- The fields that a host-side reset sets at once. -/
def linkFlds : List Fld := [.HIF_LINK_STATUS_mode, .HIF_LINK_STATUS_lanes, .HIF_LINK_STATUS_degraded,
  .HIF_LINK_STATUS_cache_en, .HIF_LINK_STATUS_mem_en]

theorem State.fld_configReset {f : Fld} (hf : f ∉ linkFlds) (i : Nat) : s.configReset.fld f i = s.fld f i :=
  State.fld_setFlds_ne _ _ _ _ fun e he hef => hf (by
    rcases List.mem_pair.mp he with rfl | rfl <;> simp [linkFlds, ← hef])

theorem State.fld_linkDown {f : Fld} (hf : f ∉ linkFlds) (i : Nat) : s.linkDown.fld f i = s.fld f i :=
  State.fld_setFlds_ne _ _ _ _ fun e he hef => hf (by
    simp only [List.mem_cons, List.not_mem_nil, or_false] at he
    rcases he with rfl | rfl | rfl | rfl <;> simp [linkFlds, ← hef])

theorem State.fld_resetLink {f : Fld} (hf : f ∉ linkFlds) (i : Nat) : (s.resetLink down).fld f i = s.fld f i := by
  cases down with
  | false => exact State.fld_configReset hf i
  | true => exact (State.fld_linkDown hf i).trans (State.fld_configReset hf i)

theorem State.boot_resetLink : (s.resetLink down).fld .HIF_PROMPT_STATE_boot_state 0 =
    s.fld .HIF_PROMPT_STATE_boot_state 0 := State.fld_resetLink (by decide) 0

theorem State.cacheEn_configReset : s.configReset.fld .HIF_LINK_STATUS_cache_en 0 = 0 :=
  State.fld_setFlds_of_mem (by decide) (v := 0) (by simp)

theorem State.memEn_configReset : s.configReset.fld .HIF_LINK_STATUS_mem_en 0 = 0 :=
  State.fld_setFlds_of_mem (by decide) (v := 0) (by simp)

theorem State.cacheEn_resetLink : (s.resetLink down).fld .HIF_LINK_STATUS_cache_en 0 = 0 := by
  cases down with
  | false => exact State.cacheEn_configReset
  | true => exact State.fld_setFlds_of_mem (by decide) (v := 0) (by simp)

theorem State.memEn_resetLink : (s.resetLink down).fld .HIF_LINK_STATUS_mem_en 0 = 0 := by
  cases down with
  | false => exact State.memEn_configReset
  | true =>
    refine (State.fld_setFlds_ne _ _ _ _ fun e he hef => ?_).trans State.memEn_configReset
    simp only [List.mem_cons, List.not_mem_nil, or_false] at he
    rcases he with rfl | rfl | rfl | rfl <;> cases hef

@[simp] theorem State.resetLink_pwr : (s.resetLink down).pwr = s.pwr := by cases down <;> rfl
@[simp] theorem State.resetLink_kernels : (s.resetLink down).kernels = s.kernels := by cases down <;> rfl
@[simp] theorem State.resetLink_pool : (s.resetLink down).pool = s.pool := by cases down <;> rfl
@[simp] theorem State.resetLink_mem : (s.resetLink down).mem = s.mem := by cases down <;> rfl

theorem State.alive_resetLink : (s.resetLink down).alive = s.alive := by
  rw [State.alive, State.alive, State.serves, State.serves, State.boot_resetLink, State.resetLink_pwr]

/-- Configuration space at its defaults. -/
theorem State.resetLink_config : (s.resetLink down).hif.decoder = none ∧ (s.resetLink down).hif.viral = false ∧
    (s.resetLink down).hif.doe0 = none ∧ (s.resetLink down).hif.msixEn = false := by
  cases down <;> exact ⟨rfl, rfl, rfl, rfl⟩

/-- A host-side reset begun in READY, before its contexts end. -/
def State.resetBegun (s : State) (r : Resetting) (down : Bool) : State :=
  let t := if down then (s.resetLink down).dropHost else s.resetLink down
  { t with hif := { t.hif with rst := t.hif.rst.and r } }

/-- A host-side reset by the state it meets: after a fatal stop, where no context runs, in READY or RESETTING. -/
theorem State.hostReset_eq : s.hostReset r down =
    if s.fld .HIF_PROMPT_STATE_boot_state 0 = 0xA ∧ r ≠ .host then (s.resetLink down).hostInval
    else if s.alive = false ∨ (s.fld .HIF_PROMPT_STATE_boot_state 0 ≠ 8 ∧
        s.fld .HIF_PROMPT_STATE_boot_state 0 ≠ 0xB) then s.resetLink down
    else (((s.resetBegun r down).setBoot 0xB).endWork).resetCheck := by
  have hmodel : s.hostReset r down =
      if (s.resetLink down).fld .HIF_PROMPT_STATE_boot_state 0 = 0xA ∧ r ≠ .host then (s.resetLink down).hostInval
      else if !(s.resetLink down).alive || !((s.resetLink down).fld .HIF_PROMPT_STATE_boot_state 0 == 8 ||
        (s.resetLink down).fld .HIF_PROMPT_STATE_boot_state 0 == 0xB) then s.resetLink down
      else (((s.resetBegun r down).setBoot 0xB).endWork).resetCheck := rfl
  rw [hmodel, State.boot_resetLink, State.alive_resetLink]
  simp only [Bool.or_eq_true, Bool.not_eq_true', Bool.or_eq_false_iff, beq_eq_false_iff_ne]

/-- After a fatal stop an FLR or a CXL Reset still writes the host's lines back and invalidates them. -/
theorem State.hostReset_of_stopped (hb : s.fld .HIF_PROMPT_STATE_boot_state 0 = 0xA) (hr : r ≠ .host) :
    s.hostReset r down = (s.resetLink down).hostInval := State.hostReset_eq.trans (if_pos ⟨hb, hr⟩)

/-- Where no context runs a host-side reset reaches configuration space and the link alone. -/
theorem State.hostReset_of_idle (hidle : s.alive = false ∨ (s.fld .HIF_PROMPT_STATE_boot_state 0 ≠ 8 ∧
    s.fld .HIF_PROMPT_STATE_boot_state 0 ≠ 0xB)) (hr : s.fld .HIF_PROMPT_STATE_boot_state 0 = 0xA → r = .host) :
    s.hostReset r down = s.resetLink down :=
  State.hostReset_eq.trans ((if_neg fun h => h.2 (hr h.1)).trans (if_pos hidle))

theorem State.hostReset_of_ready (ha : s.alive = true) (hb : s.fld .HIF_PROMPT_STATE_boot_state 0 = 8) :
    s.hostReset r down = (((s.resetBegun r down).setBoot 0xB).endWork).resetCheck :=
  State.hostReset_eq.trans ((if_neg (by simp [hb])).trans (if_neg (by simp [ha, hb])))

/-- Whatever neither the host's lines nor the shared caches are part of, their invalidation leaves. -/
theorem State.dropHost_same {α : Type} (get : State → α) (hget : ∀ (t : State) j c, get (t.setScd j c) = get t)
    (hhost : ∀ (t : State) m, get { t with hostMem := m, hostDirty := [] } = get t) : get s.dropHost = get s :=
  (State.hostFlush_same get hget).trans (hhost s _)

/-- Beyond what `resetLink` does, a reset begun changes the host's lines and the mark of the reset alone. -/
theorem State.resetBegun_same {α : Type} (get : State → α) (hget : ∀ (t : State) j c, get (t.setScd j c) = get t)
    (hhost : ∀ (t : State) m, get { t with hostMem := m, hostDirty := [] } = get t)
    (hhif : ∀ (t : State) x, get { t with hif := x } = get t) : get (s.resetBegun r down) = get (s.resetLink down) := by
  cases down with
  | false => exact hhif _ _
  | true => exact (hhif _ _).trans (State.dropHost_same get hget hhost)

theorem State.resetBegun_kernels : (s.resetBegun r down).kernels = (s.resetLink down).kernels :=
  State.resetBegun_same State.kernels (fun _ _ _ => rfl) (fun _ _ => rfl) fun _ _ => rfl

theorem State.resetBegun_pool : (s.resetBegun r down).pool = (s.resetLink down).pool :=
  State.resetBegun_same State.pool (fun _ _ _ => rfl) (fun _ _ => rfl) fun _ _ => rfl

theorem State.fld_resetBegun (f : Fld) (i : Nat) : (s.resetBegun r down).fld f i = (s.resetLink down).fld f i :=
  State.resetBegun_same (State.fld · f i) (fun _ _ _ => rfl) (fun _ _ => rfl) fun _ _ => rfl

theorem State.dropHost_hif : s.dropHost.hif = s.hif := State.dropHost_same State.hif (fun _ _ _ => rfl) fun _ _ => rfl

theorem State.resetBegun_hif : (s.resetBegun r down).hif =
    { (s.resetLink down).hif with rst := (s.resetLink down).hif.rst.and r } := by
  cases down with
  | false => rfl
  | true => simp only [State.resetBegun, if_true, State.dropHost_hif]

/-! ### The host link trained (R319, R320) -/

@[simp] theorem State.event_hif : s.event.hif = s.hif := by unfold State.event; split <;> rfl

/-- What a trained link shows. -/
def trainedFlds (mode : Fin 4) (lanes gts : Nat) : List (Fld × Nat) :=
  [(.HIF_LINK_STATUS_mode, mode.val), (.HIF_LINK_STATUS_lanes, lanes),
    (.HIF_LINK_STATUS_degraded, b2n (decide (lanes < 16) || decide (gts < 64)))]

/-- The host link up, by the mode, the width and the rate that trained; one below the full width or rate is an event. -/
def State.linkTrained (s : State) (mode : Fin 4) (lanes gts : Nat) : State :=
  let t := ({ s with hif := { s.hif with linkUp := true, pcie := mode.val == 3 } } : State).setFlds 0
    (trainedFlds mode lanes gts)
  if decide (lanes < 16) || decide (gts < 64) then t.event else t

theorem exec_hostLinkTrained {mode : Fin 4} {lanes : Nat} (gts : Nat) (hgood : s.pwr.pwrgood = true)
    (hperst : s.pwr.perst = false) (hregs : s.pwr.regsOff = false) (hheld : s.linksHeld = false)
    (hlanes : lanes ∈ [1, 2, 4, 8, 16]) :
    exec (.hostLinkTrained mode lanes gts) s = .next (s.linkTrained mode lanes gts).resetCheck := by
  refine congrArg Host.Outcome.next (if_neg ?_)
  simp [hgood, hperst, hregs, hheld, hlanes]

theorem State.linkTrained_hif (mode : Fin 4) (lanes gts : Nat) :
    (s.linkTrained mode lanes gts).hif = { s.hif with linkUp := true, pcie := mode.val == 3 } := by
  unfold State.linkTrained
  split
  · exact State.event_hif
  · rfl

theorem State.linkTrained_mem (mode : Fin 4) (lanes gts : Nat) : (s.linkTrained mode lanes gts).mem = s.mem := by
  unfold State.linkTrained
  split
  · exact State.event_mem
  · rfl

theorem State.fld_linkTrained {mode : Fin 4} {lanes gts v : Nat} {f : Fld} (h : (f, v) ∈ trainedFlds mode lanes gts) :
    (s.linkTrained mode lanes gts).fld f 0 = v % 2 ^ f.desc.width := by
  have hset := State.fld_setFlds_of_mem (s := { s with hif := { s.hif with linkUp := true, pcie := mode.val == 3 } })
    (i := 0) (by simp [trainedFlds]) h
  unfold State.linkTrained
  split
  · exact (State.fld_congr State.event_regs _ _).trans hset
  · exact hset

/-! ### Chip reset and loss of power (R378, R439, R451) -/

/-- R378: a register that does not last from power-up to power-off is at its reset value. -/
theorem State.fld_chipReset {f : Fld} (hf : f.sincePower = false) (i : Nat) : s.chipReset.fld f i = f.desc.reset := by
  have hkey : Fld.ofNat (fldKey f i % 1024) = f := by
    rw [fldKey, Nat.mul_add_mod, Nat.mod_eq_of_lt f.ctorIdx_lt, Fld.ofNat_ctorIdx]
  have hfind := mapFind_filter_key (fun k => (Fld.ofNat (k % 1024)).sincePower) s.regs (fldKey f i)
  rw [hkey, hf] at hfind
  exact congrArg (Option.getD · f.desc.reset) hfind

theorem exec_perstAssert_of_free (hgood : s.pwr.pwrgood = true) (hperst : s.pwr.perst = false)
    (hoff : s.pwr.offReq = false ∨ s.pwr.offRdy = true) : exec .perstAssert s = .next s.perstNow := by
  refine congrArg Host.Outcome.next ((if_neg (by simp [hgood, hperst])).trans (if_neg ?_))
  rcases hoff with h | h <;> simp [h]

theorem State.fuseMaps_fuses (s : State) : s.fuseMaps.fuses = s.fuses := by rw [State.fuseMaps_only]

theorem State.fuseMaps_kernels (s : State) : s.fuseMaps.kernels = s.kernels := by rw [State.fuseMaps_only]

theorem State.powerLoss_fuses (s : State) : s.powerLoss.fuses = s.fuses := State.fuseMaps_fuses _

theorem State.powerLoss_kernels (s : State) : s.powerLoss.kernels = [] := State.fuseMaps_kernels _

theorem exec_pwrgoodFall (hgood : s.pwr.pwrgood = true) : exec .pwrgoodFall s = .next s.powerLoss :=
  congrArg Host.Outcome.next (if_pos hgood)

/-- R378, R379: the release of PERST# with the power there starts the device up. -/
theorem exec_chipResetRelease (e : StartEnv) (hregs : s.pwr.regsOff = false)
    (hheld : s.pwr.perst = true ∨ s.pwr.pwrgood = false) : exec (.chipResetRelease e) s =
      .next (State.startUp { s.chipReset with pwr := { s.chipReset.pwr with pwrgood := true, perst := false } } e) := by
  refine congrArg Host.Outcome.next (if_neg ?_)
  rcases hheld with h | h <;> simp [hregs, h]

/-! ### The commands of a host that is there -/

theorem exec_hostSide {x : Instr × Resetting × Bool} (hthere : s.hostThere = true)
    (hx : x ∈ ([(.hotReset, .host, true), (.secondaryBusReset, .host, true), (.linkDisable, .host, true),
      (.surpriseLinkDown, .host, true), (.flr, .flr, false)] : List (Instr × Resetting × Bool))) :
    exec x.1 s = .next (s.hostReset x.2.1 x.2.2) := by
  simp only [List.mem_cons, List.not_mem_nil, or_false] at hx
  rcases hx with rfl | rfl | rfl | rfl | rfl <;> exact congrArg Host.Outcome.next (if_pos hthere)

theorem exec_cxlReset_of_cxl {clr : Bool} (hthere : s.hostThere = true) (hcxl : s.hif.pcie = false) :
    exec (.cxlReset clr) s = .next (s.hostReset (.cxl clr false) false) :=
  congrArg Host.Outcome.next (if_pos (by simp [hthere, hcxl]))

theorem exec_cxlReset_of_pcie {clr : Bool} (hpcie : s.hif.pcie = true) : exec (.cxlReset clr) s = .next s :=
  congrArg Host.Outcome.next (if_neg (by simp [hpcie]))

theorem exec_d3hotEntry (hthere : s.hostThere = true) :
    exec .d3hotEntry s = .next { s with hif := { s.hif with d3hot := true } } :=
  congrArg Host.Outcome.next (if_pos hthere)

end

/-- Settles O55: a host-side reset by the state it meets, the other commands by their one branch. -/
theorem deviceResets : Obligations.DeviceResets := by
  intro s
  refine ⟨fun hthere => ⟨fun x hx => exec_hostSide hthere hx,
      fun clr => ⟨exec_cxlReset_of_cxl hthere, exec_cxlReset_of_pcie⟩, exec_d3hotEntry hthere, fun hd3 hw => ?wakes⟩,
    fun r down hstop hr => State.hostReset_of_stopped hstop hr, fun r down hidle hr => ?idle,
    fun r down ha hready => ?ready, fun hgood hperst hregs hheld m lanes gts hlanes => ?trained,
    fun hgood hperst hoff => ?perst, fun hgood => ?fall,
    fun e hregs hheld => exec_chipResetRelease e hregs hheld⟩
  case wakes =>
    refine ⟨_, exec_d3hotToD0 hthere hd3, State.msixFlush_hif _, State.vec_msixFlush_inD0 hw, ?_⟩
    rw [State.msixFlush_hif]
    exact State.msixFlush_only _
  case idle =>
    obtain ⟨hdecoder, hviral, hdoe, hmsix⟩ := s.resetLink_config (down := down)
    refine ⟨_, State.hostReset_of_idle hidle hr, hdecoder, hviral, hdoe, hmsix, State.cacheEn_resetLink,
      State.memEn_resetLink, fun hdown => ?_, fun hup => ?_, State.resetLink_kernels, State.resetLink_pool,
      State.resetLink_mem, State.boot_resetLink⟩
    · subst hdown
      exact ⟨rfl, rfl⟩
    · subst hup
      rfl
  case ready =>
    obtain ⟨hdecoder, hviral, -, -⟩ := s.resetLink_config (down := down)
    refine ⟨s.resetBegun r down, State.hostReset_of_ready ha hready, ?_, ?_, ?_, fun hdown => ?_, ?_, ?_⟩
    · rw [State.resetBegun_hif]
      exact hdecoder
    · rw [State.resetBegun_hif]
      exact hviral
    · rw [State.fld_resetBegun, State.cacheEn_resetLink]
    · rw [State.resetBegun_hif, hdown]
      rfl
    · rw [State.resetBegun_kernels, State.resetLink_kernels]
    · rw [State.resetBegun_pool, State.resetLink_pool]
  case trained =>
    have hwide : lanes < 2 ^ 5 := by
      simp only [List.mem_cons, List.not_mem_nil, or_false] at hlanes
      omega
    refine ⟨_, exec_hostLinkTrained gts hgood hperst hregs hheld hlanes, ?_, ?_, ?_, ?_, ?_, State.linkTrained_mem ..⟩
    · rw [State.linkTrained_hif]
    · rw [State.linkTrained_hif]
      exact beq_iff_eq
    · exact (State.fld_linkTrained (v := m.val) (by simp [trainedFlds])).trans (Nat.mod_eq_of_lt m.isLt)
    · exact (State.fld_linkTrained (v := lanes) (by simp [trainedFlds])).trans (Nat.mod_eq_of_lt hwide)
    · have hmem : (.HIF_LINK_STATUS_degraded, b2n (decide (lanes < 16) || decide (gts < 64))) ∈
          trainedFlds m lanes gts := by simp [trainedFlds]
      refine (State.fld_linkTrained hmem).trans ?_
      simp only [b2n, Bool.or_eq_true, decide_eq_true_eq]
      split <;> rfl
  case perst =>
    exact ⟨_, exec_perstAssert_of_free hgood hperst hoff, rfl, hgood, rfl, rfl, rfl, rfl, rfl, rfl,
      State.fld_chipReset rfl 0⟩
  case fall =>
    exact ⟨_, exec_pwrgoodFall hgood, rfl, State.powerLoss_flash s, State.powerLoss_fuses s, State.powerLoss_mem s,
      State.powerLoss_kernels s⟩

end Sys2Proof.Machine

/-!
PROOFS. The DOE mailboxes (R337) and the SPDM responder (R338, R339, R397, R398).
-/

namespace Sys2Proof.Machine

section

variable {s : State} {inst : Bool} {path : SpdmPath} {r : State × Response} {st n : Nat}

/-! ### DOE (R337) -/

/-- The answer that stands at a DOE mailbox. -/
def State.doeShown (s : State) (inst : Bool) : Option Response := if inst then s.hif.doe1 else s.hif.doe0

/-- A request to a DOE mailbox discarded: its Error bit. -/
def State.doeDiscarded (s : State) (inst : Bool) : State :=
  { s with hif := if inst then { s.hif with doeErr1 := true } else { s.hif with doeErr0 := true } }

/-- A request taken by a DOE mailbox: its answer stands, the mailbox works for an open time. -/
def State.doeTook (inst : Bool) (r : State × Response) : State :=
  let t := r.1.now + r.1.freeAt 0
  let s := r.1.drew 1
  { s with hif :=
      if inst then { s.hif with doe1 := some r.2, busy1 := t } else { s.hif with doe0 := some r.2, busy0 := t } }

/-- A DOE mailbox aborted. -/
def State.doeAborted (s : State) (inst : Bool) : State :=
  { s with hif :=
      if inst then { s.hif with doe1 := none, doeErr1 := false, busy1 := 0 }
      else { s.hif with doe0 := none, doeErr0 := false, busy0 := 0 } }

theorem State.doe_of_busy (hup : s.cfgUp = true) (hbusy : s.doeBusy inst = true) (k : State → State × Response) :
    s.doe inst k = s.doeDiscarded inst := (if_neg (by simp [hup])).trans (if_pos hbusy)

theorem State.doe_of_idle (hup : s.cfgUp = true) (hidle : s.doeBusy inst = false) (k : State → State × Response) :
    s.doe inst k = State.doeTook inst (k s) := (if_neg (by simp [hup])).trans (if_neg (by simp [hidle]))

theorem State.doeShown_doeTook (inst : Bool) (r : State × Response) :
    (State.doeTook inst r).doeShown inst = some r.2 := by
  cases inst <;> rfl

theorem exec_doeAbort (hup : s.cfgUp = true) : exec (.doeAbort inst) s = .next (s.doeAborted inst) :=
  congrArg Host.Outcome.next (if_neg (by simp [hup]))

theorem State.doeShown_doeAborted (s : State) (inst : Bool) : (s.doeAborted inst).doeShown inst = none := by
  cases inst <;> rfl

theorem State.doeBusy_doeAborted (s : State) (inst : Bool) : (s.doeAborted inst).doeBusy inst = false := by
  cases inst <;> exact decide_eq_false (Nat.not_lt_zero _)

/-! ### The SPDM responder (R338) -/

/-- The answer that the requester of a path reads. -/
def State.spdmShown (s : State) : SpdmPath → Option Response
  | .doe => s.hif.doe0
  | .mctp => s.hif.spdm

/-- A request taken by a path. -/
def State.spdmTook (r : State × Response) : SpdmPath → State
  | .doe => State.doeTook false r
  | .mctp => { r.1 with hif := { r.1.hif with spdm := some r.2 } }

theorem State.spdm_of_open (hup : s.cfgUp = true) (hidle : path = .doe → s.doeBusy false = false)
    (k : State → State × Response) : s.spdm path k = State.spdmTook (k s) path := by
  cases path with
  | doe => exact State.doe_of_idle hup (hidle rfl) k
  | mctp =>
    have hpower : (s.pwr.pwrgood && !s.pwr.regsOff && s.fld .HIF_PROMPT_STATE_boot_state 0 != 0) = true := by
      simp only [State.cfgUp, Bool.and_eq_true] at hup
      simp only [hup, Bool.and_self]
    exact if_neg (by simp [hpower])

theorem State.spdmShown_spdmTook (r : State × Response) (path : SpdmPath) :
    (State.spdmTook r path).spdmShown path = some r.2 := by
  cases path <;> rfl

theorem State.spdmSt_spdmTook (r : State × Response) (path : SpdmPath) :
    (State.spdmTook r path).hif.spdmSt = r.1.hif.spdmSt := by
  cases path <;> rfl

/-- A command asks the responder by a path: where the negotiation stands at `st` it answers with one of `a` and stands
at `n`; else UnexpectedRequest, the negotiation as it was. -/
def State.SpdmAnswers (s : State) (path : SpdmPath) (c : Instr) (st n : Nat) (a : Nat → Response) : Prop :=
  ∃ t x, exec c s = .next t ∧ t.spdmShown path = some x ∧
    (s.hif.spdmSt = st → t.hif.spdmSt = n ∧ ∃ k, x = a k) ∧
    (s.hif.spdmSt ≠ st → x = spdmError 4 ∧ t.hif.spdmSt = s.hif.spdmSt)

/-- A request of the negotiation, by the answer `r` given to it where it is expected. -/
theorem State.spdmAnswers_of_exec {c : Instr} {a : Nat → Response} {k : State → State × Response} (hup : s.cfgUp = true)
    (hidle : path = .doe → s.doeBusy false = false) (hc : exec c s = .next (s.spdm path k)) (hk : k s = s.spdmAt st r)
    (hst : s.hif.spdmSt = st → r.1.hif.spdmSt = n) (hx : r.2 = a 0) : s.SpdmAnswers path c st n a := by
  rw [State.spdm_of_open hup hidle, hk] at hc
  refine ⟨_, _, hc, State.spdmShown_spdmTook .., fun h => ?_, fun h => ?_⟩
  · rw [State.spdmSt_spdmTook, State.spdmAt, if_pos h]
    exact ⟨hst h, 0, hx⟩
  · rw [State.spdmSt_spdmTook, State.spdmAt, if_neg h]
    exact ⟨rfl, rfl⟩

/-- The answer to GET_VERSION: versions 1.2 and 1.3. -/
def versionAnswer : Response := ⟨0x04, 0, natLe 1 0 ++ natLe 1 2 ++ natLe 2 0x1200 ++ natLe 2 0x1300⟩

/-! ### Measurements (R339) -/

/-- The measurement record of one block, the nonce of the device, no opaque data. -/
def State.measureRecord (s : State) (op : Nat) : List Byte :=
  natLe 1 1 ++ natLe 3 (s.block12 op).length ++ s.block12 op ++ Config.freeBytes s.free 32 ++ natLe 2 0

/-- The answer that gives one measurement block, signed where the requester gave a nonce. -/
def State.measuresOne (s : State) (op : Nat) (nonce : List Byte) : Response :=
  ⟨0x60, 0, s.measureRecord op ++
    (if nonce = [] then [] else Config.sign s.fuses.secret (nonce ++ s.measureRecord op) (s.free + 1))⟩

/-- GET_MEASUREMENTS of a block 1 to 12 gives that block alone. -/
theorem exec_getMeasurements_one {op : Nat} {nonce : List Byte} (hlo : 1 ≤ op) (hhi : op ≤ 12) :
    exec (.getMeasurements path op nonce) s =
      .next (s.spdm path (fun s => s.spdmAt 3 (s.drew 2, s.measuresOne op nonce))) := by
  have hzero : op ≠ 0 := by omega
  have hall : op ≠ 0xFF := by omega
  have hblock : ¬ (op > 12 ∧ op ≠ 0xFF) := by omega
  refine congrArg (fun k => Host.Outcome.next (s.spdm path k)) (funext fun s => ?_)
  simp only [if_neg hzero, if_neg hall, if_neg hblock, List.flatMap_singleton, List.length_singleton,
    State.measuresOne, State.measureRecord, List.isEmpty_iff]

end

/-- Settles O56: a DOE mailbox by whether it is busy, each request of SPDM by how far the negotiation has come. -/
theorem attestation : Obligations.Attestation := by
  intro s hup
  refine ⟨fun inst i => ⟨fun hbusy => ?busy, fun hidle => ?discovery, ?abort⟩, fun i hidle => ?table,
    fun path slot off len nonce op hidle => ⟨?version, ?capabilities, ?algorithms, ?digests,
      fun hslot hoff => ?certificate, fun hslot => ?noSlot, ?challenge, fun hlo hhi => ?measurements⟩⟩
  case busy => exact congrArg Host.Outcome.next (State.doe_of_busy hup hbusy _)
  case discovery =>
    exact ⟨_, congrArg Host.Outcome.next (State.doe_of_idle hup hidle _), State.doeShown_doeTook inst _, rfl, rfl⟩
  case abort =>
    exact ⟨_, exec_doeAbort hup, State.doeBusy_doeAborted s inst, State.doeShown_doeAborted s inst, rfl⟩
  case table =>
    exact ⟨_, _, congrArg Host.Outcome.next (State.doe_of_idle hup hidle _), State.doeShown_doeTook true _, rfl⟩
  case version =>
    refine ⟨_, versionAnswer, congrArg Host.Outcome.next (State.spdm_of_open hup hidle _), State.spdmSt_spdmTook _ path,
      ?_, rfl⟩
    cases path <;> rfl
  case capabilities => exact State.spdmAnswers_of_exec hup hidle rfl rfl (fun _ => rfl) rfl
  case algorithms => exact State.spdmAnswers_of_exec hup hidle rfl rfl (fun _ => rfl) rfl
  case digests => exact State.spdmAnswers_of_exec hup hidle rfl rfl id rfl
  case certificate =>
    exact State.spdmAnswers_of_exec hup hidle rfl rfl id (if_neg (by simp [hslot, hoff]))
  case noSlot => exact State.spdmAnswers_of_exec hup hidle rfl (congrArg (s.spdmAt 3) (if_pos hslot)) id rfl
  case challenge =>
    exact State.spdmAnswers_of_exec hup hidle rfl (congrArg (s.spdmAt 3) (if_neg (not_not.mpr rfl))) id rfl
  case measurements =>
    exact State.spdmAnswers_of_exec hup hidle (exec_getMeasurements_one hlo hhi) rfl id rfl

end Sys2Proof.Machine

/-!
PROOFS. Frames of the fabric: what a link does with one (R344, R347, R350 to R353, R356), what this device's answers and
probes do (R355, R360, R423), and the frames of collectives (R368 to R371).
-/

namespace Sys2Proof.Machine

section
variable {s s1 t : State} {p type : Nat} {f : Frame} {k : State → Took}

/-! ### A frame that is this device's, and one that is not -/

theorem State.receive_of_gone (h : s.rx p type f = .gone t) : s.receive p type f k = t := by
  unfold State.receive
  rw [h]

theorem State.receive_of_taken (h : s.rx p type f = .mine s1) (hk : k s1 = .ok t) : s.receive p type f k = t := by
  unfold State.receive
  rw [h]
  dsimp only
  rw [hk]

/-- R357: a frame that has to wait is kept at its fabric die, or left to its sender. -/
theorem State.receive_of_waiting (h : s.rx p type f = .mine s1) (hk : k s1 = .error t) :
    s.receive p type f k = let a : Arrived := ⟨p, s.linkKey p (s.rxNbr f), type, f⟩
      if s.noRoom p a.key f then s else (s1.waited t).keepFrame a := by
  unfold State.receive
  rw [h]
  dsimp only
  rw [hk]

/-! ### What a link does with a frame (R344, R350 to R353, R356, R357) -/

theorem State.rx_of_down (h : s.portLive p = false) : s.rx p type f = .gone s := if_pos (by simp [h])

/-- The link on which a frame comes. -/
def State.rxKey (s : State) (p : Nat) (f : Frame) : Nat := s.linkKey p (s.rxNbr f)

/-- R356: a frame in sequence taken off its link. -/
def State.rxTaken (s : State) (p type : Nat) (f : Frame) : State :=
  ((s.logHdr (2 * p + 1) type f).setLink (s.rxKey p f)
    ((s.link (s.rxKey p f)).took (s.fld .FAB_PORT_CFG_mode p == modeNative) type f)).ackTo (s.rxKey p f) f.lack.toNat

/-- R344: whether a port takes Silit frames off its link. -/
def State.carries (s : State) (p : Nat) : Prop :=
  ¬ (!s.portLive p || s.fld .FAB_PORT_CFG_mode p == modeOff) = true ∧ s.fld .FAB_PORT_CFG_mode p ≠ modePlain

theorem State.carries_of (hlive : s.portLive p = true)
    (hmode : s.fld .FAB_PORT_CFG_mode p = modeNative ∨ s.fld .FAB_PORT_CFG_mode p = modeEncap) : s.carries p := by
  unfold State.carries
  rcases hmode with hm | hm
  · rw [hlive, hm]
    decide
  · rw [hlive, hm]
    decide

/-- R350: a PROBE that only acknowledges stands outside the sequence. -/
theorem State.rx_ackProbe (hc : s.carries p) (h : ackProbe type f = true) :
    s.rx p type f = .gone (if f.good then s.ackTo (s.rxKey p f) f.lack.toNat else s) :=
  (if_neg hc.1).trans ((if_neg hc.2).trans (if_pos h))

/-- R356: a bad frame is counted and asked for again. -/
theorem State.rx_bad (hc : s.carries p) (h : ackProbe type f = false) (hbad : f.good = false) :
    s.rx p type f = .gone ((s.satFld .FAB_PORT_ERR_crc_errors p 1).setLink (s.rxKey p f)
      { s.link (s.rxKey p f) with nak := some (s.link (s.rxKey p f)).nextRx }) :=
  (if_neg hc.1).trans ((if_neg hc.2).trans ((if_neg (by simp [h])).trans (if_pos (by simp [hbad]))))

/-- R356: a frame out of its turn is asked for again. -/
theorem State.rx_outOfTurn (hc : s.carries p) (h : ackProbe type f = false) (hgood : f.good = true)
    (hseq : f.lseq.toNat ≠ (s.link (s.rxKey p f)).nextRx) :
    s.rx p type f = .gone ((s.logHdr (2 * p + 1) type f).setLink (s.rxKey p f)
      { s.link (s.rxKey p f) with nak := some (s.link (s.rxKey p f)).nextRx }) :=
  (if_neg hc.1).trans ((if_neg hc.2).trans ((if_neg (by simp [h])).trans
    ((if_neg (by simp [hgood])).trans (if_pos hseq))))

/-- Where a frame in sequence goes (R347, R351 to R353, R409). -/
def State.rxGoes (s : State) (p type : Nat) (f : Frame) (native : Bool) : Rx :=
  if !listedTypes.contains type then .gone (s.satFld .FAB_PORT_ERR_dropped p 1)
  else if s.january then (if f.dst.toNat = 0xFFFE ∧ type = ftFwRelay then .mine s else .gone s)
  else if s.fld .FAB_ID_dev_id 0 = 0 ∨ f.dst.toNat = 0 ∨ f.dst.toNat = 0xFFFF then .gone s
  else if f.dst.toNat = s.fld .FAB_ID_dev_id 0 then .mine s
  else if native then .gone (s.forward type f)
  else .gone (s.satFld .FAB_COUNT_no_route 0 1)

/-- R356: a frame in its turn is taken off its link, whatever then becomes of it. -/
theorem State.rx_inTurn (hc : s.carries p) (h : ackProbe type f = false) (hgood : f.good = true)
    (hseq : f.lseq.toNat = (s.link (s.rxKey p f)).nextRx) :
    s.rx p type f = (s.rxTaken p type f).rxGoes p type f (decide (s.fld .FAB_PORT_CFG_mode p = modeNative)) := by
  refine (if_neg hc.1).trans ((if_neg hc.2).trans ((if_neg (by simp [h])).trans ((if_neg (by simp [hgood])).trans
    ((if_neg (not_not.mpr hseq)).trans ?_))))
  unfold State.rxGoes State.rxTaken
  simp only [decide_eq_true_eq]
  rfl

/-- R347: a frame of no listed type goes no further. -/
theorem State.rxGoes_unlisted (native : Bool) (h : type ∉ listedTypes) :
    s.rxGoes p type f native = .gone (s.satFld .FAB_PORT_ERR_dropped p 1) :=
  if_pos (by simpa using h)

/-- R351: where a frame of a listed type goes, out of January mode, on a device with an ID. -/
theorem State.rxGoes_listed (native : Bool) (h : type ∈ listedTypes) (hjan : s.january = false)
    (hme : s.fld .FAB_ID_dev_id 0 ≠ 0) (hzero : f.dst.toNat ≠ 0) (hall : f.dst ≠ 0xFFFF) :
    s.rxGoes p type f native = if f.dst.toNat = s.fld .FAB_ID_dev_id 0 then .mine s
      else if native then .gone (s.forward type f) else .gone (s.satFld .FAB_COUNT_no_route 0 1) := by
  have hones : f.dst.toNat ≠ 0xFFFF := fun hd => hall (BitVec.eq_of_toNat_eq hd)
  exact (if_neg (by simpa using h)).trans ((if_neg (by simp [hjan])).trans (if_neg (by simp [hme, hzero, hones])))

/-! ### Frames forwarded (R352, R353) -/

theorem State.forward_noHops (h : f.hops = 0) : s.forward type f = s.satFld .FAB_COUNT_hop_drops 0 1 := if_pos h

theorem State.forward_routed {o n : Nat} (h : f.hops ≠ 0) (hroute : s.route f.dst.toNat = some (o, n)) :
    s.forward type f = s.putOnLink o n type { f with hops := f.hops - 1 } := by
  refine (if_neg h).trans ?_
  rw [hroute]

/-! ### Answers to this device's requests (R355, R360, R423) -/

/-- R423: an answer that names no request is dropped. -/
theorem State.onReply_none (h : s.replyFor type f = none) : State.onReply type f s = .ok s := by
  unfold State.onReply
  rw [h]

theorem State.onReply_whole {x : RemReq} {bs : List Byte} (h : s.replyFor type f = some x)
    (hpart : x.replyPart type f.status.toNat f.data = some bs) :
    State.onReply type f s = s.remAnswer x f.status.toNat f.arg.toNat bs := by
  unfold State.onReply
  rw [h]
  dsimp only
  rw [hpart]

/-- R350: a part of a long read is kept with its request. -/
theorem State.onReply_part {x : RemReq} (h : s.replyFor type f = some x)
    (hpart : x.replyPart type f.status.toNat f.data = none) :
    State.onReply type f s =
      .ok { s with
        remote := s.remote.map (fun y => if y.tid = x.tid then { y with got := x.got ++ f.data } else y) } := by
  unfold State.onReply
  rw [h]
  dsimp only
  rw [hpart]

/-- R423: the request that an answer names is outstanding, under the transaction and both epochs of the answer. -/
theorem State.replyFor_spec {x : RemReq} (h : s.replyFor type f = some x) :
    x ∈ s.remote ∧ x.tid = f.tid.toNat ∧ x.tepoch = f.tepoch.toNat := by
  have hnamed := List.find?_some h
  simp only [Bool.and_eq_true, beq_iff_eq] at hnamed
  obtain ⟨⟨htid, hepoch⟩, -⟩ := hnamed
  exact ⟨List.mem_of_find?_eq_some h, htid, hepoch⟩

/-- A command that hands a frame's answer to the request it names. -/
theorem exec_reply {c : Instr} (hc : exec c s = .next (s.receive p type f (State.onReply type f)))
    (hrx : s.rx p type f = .mine s1) :
    (s1.replyFor type f = none → exec c s = .next s1) ∧
    (∀ x, s1.replyFor type f = some x →
      x ∈ s1.remote ∧ x.tid = f.tid.toNat ∧ x.tepoch = f.tepoch.toNat ∧
      (∀ t bs, x.replyPart type f.status.toNat f.data = some bs → s1.remAnswer x f.status.toNat f.arg.toNat bs = .ok t →
        exec c s = .next t) ∧
      (x.replyPart type f.status.toNat f.data = none →
        let l := s1.remote.map (fun y => if y.tid = x.tid then { y with got := x.got ++ f.data } else y)
        exec c s = .next { s1 with remote := l })) := by
  have htaken {t : State} (ht : State.onReply type f s1 = .ok t) : exec c s = .next t :=
    hc.trans (congrArg _ (State.receive_of_taken hrx ht))
  refine ⟨fun h => htaken (State.onReply_none h), fun x h => ?_⟩
  obtain ⟨hmem, htid, hepoch⟩ := State.replyFor_spec h
  exact ⟨hmem, htid, hepoch, fun t bs hpart ht => htaken ((State.onReply_whole h hpart).trans ht),
    fun hpart => htaken (State.onReply_part h hpart)⟩

/-! ### Probes (R355) -/

theorem State.onProbe_asked (h : f.vc = false) : State.onProbe f s =
    .ok (s.sendOrDrop ftProbe { Frame.blank with dst := f.src, tid := f.tid, tepoch := f.tepoch, vc := true }) :=
  if_neg (by simp [h])

/-- R355: the answer to a probe measures the route that it went. -/
theorem State.onProbe_answered {x : RemReq} {dst : Nat} (h : f.vc = true) (hstatus : f.status = 0)
    (hreq : s.replyFor ftProbe f = some x) (hprobe : x.svc = .probe dst) :
    State.onProbe f s = .ok ((s.endReq x.tid false).probed dst x.since x.addr) := by
  refine (if_pos h).trans ?_
  rw [hreq]
  unfold State.remAnswer
  simp only [hprobe, hstatus]
  rfl

end

/-- Settles O50: reception by the guards of `rx` in their order, each received frame by what it is handed to. -/
theorem framesReceived : Obligations.FramesReceived := by
  refine ⟨fun s p type f => ⟨State.rx_of_down, fun hlive hmode hack => ?ack, fun hlive hmode hack => ?sequence,
    State.forward_noHops, fun o n => State.forward_routed⟩, fun p f s => ⟨?replies, ?probe, ?collectives, ?gone⟩⟩
  case ack => exact State.rx_ackProbe (State.carries_of hlive hmode) hack
  case sequence =>
    have hc := State.carries_of hlive hmode
    refine ⟨State.rx_bad hc hack, State.rx_outOfTurn hc hack, fun hgood hseq hlist => ?_, fun hgood hseq hlist _ =>
      ⟨fun hjan hsame hme hdst hall => ?_, fun hjan hsame hme hdst hzero hall hnative => ?_⟩⟩
    · exact (State.rx_inTurn hc hack hgood hseq).trans (State.rxGoes_unlisted _ hlist)
    · refine (State.rx_inTurn hc hack hgood hseq).trans
        ((State.rxGoes_listed _ hlist hjan ?_ ?_ hall).trans (if_pos ?_))
      · exact fun h => hme (hsame.symm.trans h)
      · exact fun h => hme (hdst.symm.trans h)
      · exact hdst.trans hsame.symm
    · refine (State.rx_inTurn hc hack hgood hseq).trans ((State.rxGoes_listed _ hlist hjan ?_ ?_ hall).trans
        ((if_neg ?_).trans (if_pos (decide_eq_true hnative))))
      · exact fun h => hme (hsame.symm.trans h)
      · exact fun h => hzero (BitVec.eq_of_toNat_eq h)
      · exact fun h => hdst (h.trans hsame)
  case replies =>
    rw [List.forall_mem_cons, List.forall_mem_cons, List.forall_mem_cons, List.forall_mem_cons,
      List.forall_mem_singleton]
    exact ⟨fun s1 h => exec_reply rfl h, fun s1 h => exec_reply rfl h, fun s1 h => exec_reply rfl h,
      fun s1 h => exec_reply rfl h, fun s1 h => exec_reply rfl h⟩
  case probe =>
    exact fun s1 h => ⟨fun hvc => congrArg _ (State.receive_of_taken h (State.onProbe_asked hvc)),
      fun x dst hvc hst hreq hsvc => congrArg _ (State.receive_of_taken h (State.onProbe_answered hvc hst hreq hsvc))⟩
  case collectives =>
    exact fun s1 => ⟨fun h => congrArg _ (State.receive_of_taken (k := State.onCollCredit p f) h rfl),
      fun h => congrArg _ (State.receive_of_taken (k := State.onCollAbort p f) h rfl),
      fun h t ht => congrArg _ (State.receive_of_taken h ht)⟩
  case gone =>
    intro e
    simp only [List.forall_mem_cons]
    refine ⟨?_, ?_, ?_, ?_, ?_, ?_, ?_, ?_, ?_, ?_, ?_, ?_, ?_, ?_, ?_, ?_, ?_, ?_, ?_, List.forall_mem_nil _⟩ <;>
      exact fun t h => congrArg _ (State.receive_of_gone h)

end Sys2Proof.Machine

/-!
PROOFS. Requests of peers at their home (R359 to R361, R363, R372).
-/

namespace Sys2Proof.Machine

section
variable {s s1 s2 t : State} {p type n : Nat} {f : Frame} {w amo : Bool} {k : State → Option State}

/-! ### What a request meets before it acts (R222, R335, R360, R361) -/

/-- R222: the lines that a request has to read, and whether one is uncorrectable; a write reads none. -/
def State.peerReads (s : State) (f : Frame) (n : Nat) (w : Bool) : State × Bool :=
  if w then (s, false) else s.takeBad (.dev (reqAddr f)) n

/-- A request of a peer, by what it meets first: a refusal, a line that the host holds, a line that is uncorrectable. -/
theorem State.peerOp_spec (s : State) (type : Nat) (f : Frame) (n : Nat) (w amo : Bool) (k : State → Option State) :
    (∀ st, s.refused f n w amo = some st → s.peerOp type f n w amo k = .ok (s.answer type f st 0 [])) ∧
    (s.refused f n w amo = none →
      (∀ a, s.heldLine (.dev (reqAddr f)) n (w || amo) = some a →
        s.peerOp type f n w amo k = .error (s.biSnoop a (w || amo))) ∧
      (s.heldLine (.dev (reqAddr f)) n (w || amo) = none →
        ((s.peerReads f n w).2 = true →
          s.peerOp type f n w amo k = .ok ((s.peerReads f n w).1.answer type f 3 0 [])) ∧
        ((s.peerReads f n w).2 = false → (∀ t, k s = some t → s.peerOp type f n w amo k = .ok t) ∧
          (k s = none → s.peerOp type f n w amo k = .error s)))) := by
  -- The definition is put in as a whole: compared with the one of the goal, the kernel would evaluate `refused`.
  have hdef : @State.peerOp = @State.peerOp := rfl
  conv_rhs at hdef => delta State.peerOp
  rw [hdef]
  beta_reduce
  generalize s.refused f n w amo = r
  generalize s.heldLine (.dev (reqAddr f)) n (w || amo) = h
  refine ⟨?refused, ?admitted⟩
  case refused =>
    rintro st rfl
    rfl
  case admitted =>
    rintro rfl
    refine ⟨?held, ?free⟩
    case held =>
      rintro a rfl
      rfl
    case free =>
      rintro rfl
      refine ⟨fun hbad => if_pos hbad, fun hgood => ?_⟩
      generalize k s = o
      constructor
      · rintro t rfl
        exact if_neg (Bool.eq_false_iff.mp hgood)
      · rintro rfl
        exact if_neg (Bool.eq_false_iff.mp hgood)

/-- Nothing refuses a request, the host holds none of its lines, and those that it reads are good. -/
structure State.Admits (s : State) (f : Frame) (n : Nat) (w amo : Bool) : Prop where
  exported : s.refused f n w amo = none
  free : s.heldLine (.dev (reqAddr f)) n (w || amo) = none
  readable : (s.peerReads f n w).2 = false

theorem State.Admits.acts (h : s.Admits f n w amo) (hk : k s = some t) : s.peerOp type f n w amo k = .ok t :=
  ((((s.peerOp_spec type f n w amo k).2 h.exported).2 h.free).2 h.readable).1 t hk

/-- R165: a request that a full table turns away waits. -/
theorem State.Admits.waits (h : s.Admits f n w amo) (hk : k s = none) : s.peerOp type f n w amo k = .error s :=
  ((((s.peerOp_spec type f n w amo k).2 h.exported).2 h.free).2 h.readable).2 hk

/-- What a frame does here is a request performed at the home of its bytes. -/
def ActsAtHome (on : State → Took) (type : Nat) (f : Frame) (n : Nat) (w amo : Bool) : Prop :=
  ∃ k, ∀ s : State, on s = s.peerOp type f n w amo k

/-- R335, R361: a command that performs a request: one refused is answered so, one whose lines the host holds waits for
them. -/
theorem exec_peerOp {c : Instr} {on : State → Took} (hc : exec c s = .next (s.receive p type f on))
    (hon : ActsAtHome on type f n w amo) (hrx : s.rx p type f = .mine s1) :
    (∀ st, s1.refused f n w amo = some st → exec c s = .next (s1.answer type f st 0 [])) ∧
    (∀ t, s1.refused f n w amo = none → s1.heldLine (.dev (reqAddr f)) n (w || amo) = some t →
      let a : Arrived := ⟨p, s.linkKey p (s.rxNbr f), type, f⟩
      exec c s = .next (if s.noRoom p a.key f then s else (s1.waited (s1.biSnoop t (w || amo))).keepFrame a)) := by
  obtain ⟨k, hon⟩ := hon
  obtain ⟨hrefused, hadmitted⟩ := s1.peerOp_spec type f n w amo k
  exact ⟨fun st h => hc.trans (congrArg _ (State.receive_of_taken hrx ((hon s1).trans (hrefused st h)))),
    fun t h hheld => hc.trans (congrArg _ (State.receive_of_waiting hrx ((hon s1).trans ((hadmitted h).1 t hheld))))⟩

/-- R222: a command that performs a request on a line that is uncorrectable. -/
theorem exec_peerOp_bad {c : Instr} {on : State → Took} (hc : exec c s = .next (s.receive p type f on))
    (hon : ActsAtHome on type f n false amo) (hrx : s.rx p type f = .mine s1) (h : s1.refused f n false amo = none)
    (hfree : s1.heldLine (.dev (reqAddr f)) n amo = none) (hbad : (s1.takeBad (.dev (reqAddr f)) n).2 = true) :
    exec c s = .next ((s1.takeBad (.dev (reqAddr f)) n).1.answer type f 3 0 []) := by
  obtain ⟨k, hon⟩ := hon
  obtain ⟨hanswer, -⟩ := ((s1.peerOp_spec type f n false amo k).2 h).2 hfree
  exact hc.trans (congrArg _ (State.receive_of_taken hrx ((hon s1).trans (hanswer hbad))))

/-! ### RD_REQ, ATOM_REQ, FE_REQ (R160, R165, R359) -/

theorem actsAtHome_rdReq (f : Frame) :
    ActsAtHome (State.onRdReq f) ftRdReq f (min (max f.arg.toNat 1) 4096) false false := by
  unfold State.onRdReq
  exact ⟨_, fun _ => rfl⟩

theorem actsAtHome_wrReq (f : Frame) : ActsAtHome (State.onWrReq f) ftWrReq f (max f.data.length 1) true false :=
  ⟨_, fun _ => rfl⟩

theorem actsAtHome_feReq (p : Nat) (f : Frame) : ActsAtHome (State.onFeReq p f) ftFeReq f 8 false true :=
  ⟨_, fun _ => rfl⟩

theorem State.onRdReq_acts (h : s.Admits f (min (max f.arg.toNat 1) 4096) false false) :
    let n := min (max f.arg.toNat 1) 4096
    State.onRdReq f s = .ok ((s.touchSpan none (.dev (reqAddr f)) n false).answer ftRdReq f 0 0
      ((spans 3 (reqAddr f) n).flatMap (fun c => s.devBytes c.1 c.2))) := by
  unfold State.onRdReq
  exact h.acts rfl

/-- R66: the operations that an ATOM_REQ brings, cut to its width. -/
def atomOps (f : Frame) : List (Nat × Nat) :=
  let w := if f.size = 2 then 4 else 8
  (atomOperands (0x10 + f.aop.toNat == opCas) (min f.arg.toNat 32) f.data).map
    (fun e => (e.1 % 2 ^ (8 * w), e.2 % 2 ^ (8 * w)))

theorem atomWidth_eq : (if f.size.toNat = 2 then 4 else 8) = if f.size = 2 then 4 else 8 :=
  if_congr ⟨fun h => BitVec.eq_of_toNat_eq h, fun h => congrArg BitVec.toNat h⟩ rfl rfl

/-- R160: the operations of an ATOM_REQ performed at the home of its address. -/
def State.atomAct (f : Frame) (s : State) : Option State :=
  let w := if f.size = 2 then 4 else 8
  let a := reqAddr f / w * w
  let r := atomRun (0x10 + f.aop.toNat) f.size.toNat f.sign (leNat (s.devBytes a w)) (atomOps f)
  (if r.1 = leNat (s.devBytes a w) then some (s.homeTouch none (.dev a))
    else s.homeWrite none (.dev a) (natLe w r.1) none).map (fun s => s.answer ftAtomReq f 0 0 (r.2.flatMap (natLe 8)))

theorem State.onAtomReq_eq (f : Frame) (s : State) : State.onAtomReq f s =
    s.peerOp ftAtomReq f (if f.size = 2 then 4 else 8) false true (State.atomAct f) := by
  unfold State.onAtomReq
  dsimp only
  rw [atomWidth_eq]
  rfl

section
variable (h : s.Admits f 8 false true)
include h

theorem State.onFeReq_taken {r : FeAns} (hr : r = .served ∨ r = .waits)
    (harrive : s.feArrive (reqAddr f / 8 * 8) (0x20 + f.aop.toNat) (leNat (f.data.take 8))
      (.peer f.src.toNat f.tid.toNat p f.tepoch.toNat) s.now 0xFF = (s2, r)) : State.onFeReq p f s = .ok s2 := by
  unfold State.onFeReq
  refine h.acts ?_
  dsimp only
  rw [harrive]
  rcases hr with rfl | rfl <;> rfl

theorem State.onFeReq_notSync
    (harrive : s.feArrive (reqAddr f / 8 * 8) (0x20 + f.aop.toNat) (leNat (f.data.take 8))
      (.peer f.src.toNat f.tid.toNat p f.tepoch.toNat) s.now 0xFF = (s2, .notSync)) :
    State.onFeReq p f s = .ok (s2.answer ftFeReq f 6 0 []) := by
  unfold State.onFeReq
  refine h.acts ?_
  dsimp only
  rw [harrive]

theorem State.onFeReq_returned
    (harrive : s.feArrive (reqAddr f / 8 * 8) (0x20 + f.aop.toNat) (leNat (f.data.take 8))
      (.peer f.src.toNat f.tid.toNat p f.tepoch.toNat) s.now 0xFF = (s2, .returned)) :
    State.onFeReq p f s = .error s := by
  unfold State.onFeReq
  refine h.waits ?_
  dsimp only
  rw [harrive]

end

/-! ### WR_REQ (R222, R359, R372) -/

theorem spans_within {k d n : Nat} (hn : n ≠ 0) (h : d % 4096 + n ≤ 4096) : spans (k + 1) d n = [(d, n)] := by
  have hall : min n (4096 - d % 4096) = n := by omega
  have hrest : spans k (d + n) 0 = [] := by cases k <;> rfl
  rw [spans, if_neg hn]
  dsimp only
  rw [hall, Nat.sub_self, hrest]

/-- Bytes within one page that end no tile are written at once. -/
theorem State.peerPut_within (hend : endsTile f = false) (hgood : s.fillBad (.dev (reqAddr f)) f.data.length = false)
    (hn : f.data.length ≠ 0) (hpage : reqAddr f % 4096 + f.data.length ≤ 4096) :
    s.peerPut f = s.spanPut none (.dev (reqAddr f)) f.data none := by
  have hwhole : ¬ (endsTile f = true ∧ f.arg ≠ 0 ∧ f.data.length = 4096) := by simp [hend]
  unfold State.peerPut
  dsimp only
  rw [spans_within hn hpage]
  dsimp only [List.foldl_cons, List.foldl_nil, Option.bind_some]
  rw [Nat.sub_self, List.drop_zero, List.take_length, if_neg (Bool.eq_false_iff.mp hgood), if_neg hwhole]

/-- R372: what the bytes of a WR_REQ, once written, are answered: the end of a tile by its CRC. -/
def State.wrAnswer (s : State) (f : Frame) : State :=
  let t := reqAddr f + f.data.length - 4096
  let crc := crc32c (s.devBytes t 4096)
  if endsTile f ∧ crc = f.arg.toNat then (s.chkWhole t (some crc)).answer ftWrReq f 0 0 []
  else if endsTile f ∧ f.arg ≠ 0 then (s.chkWhole t none).answer ftWrReq f 3 0 []
  else s.answer ftWrReq f 0 0 []

theorem State.onWrReq_acts (h : s.refused f (max f.data.length 1) true false = none)
    (hfree : s.heldLine (.dev (reqAddr f)) (max f.data.length 1) true = none)
    (hgood : ∀ c ∈ spans 3 (reqAddr f) f.data.length, s.fillBad (.dev c.1) c.2 = false)
    (hput : s.peerPut f = some s2) : State.onWrReq f s = .ok (s2.wrAnswer f) := by
  have hnone : ¬ ((spans 3 (reqAddr f) f.data.length).any (fun c => s.fillBad (.dev c.1) c.2)) = true := by
    simpa [List.any_eq_true] using fun a b hc => hgood (a, b) hc
  have hadm : s.Admits f (max f.data.length 1) true false := ⟨h, hfree, rfl⟩
  unfold State.onWrReq
  refine hadm.acts ?_
  dsimp only
  rw [hput]
  exact congrArg some (if_neg hnone)

theorem exec_wrReq_acts {p : Fin 12} (hrx : s.rx p.val ftWrReq f = .mine s1)
    (h : s1.refused f (max f.data.length 1) true false = none)
    (hfree : s1.heldLine (.dev (reqAddr f)) (max f.data.length 1) true = none)
    (hgood : ∀ c ∈ spans 3 (reqAddr f) f.data.length, s1.fillBad (.dev c.1) c.2 = false)
    (hput : s1.peerPut f = some s2) : exec (.wrReq p f) s = .next (s2.wrAnswer f) :=
  congrArg Host.Outcome.next (State.receive_of_taken hrx (State.onWrReq_acts h hfree hgood hput))

theorem State.wrAnswer_open (hend : endsTile f = false) : s.wrAnswer f = s.answer ftWrReq f 0 0 [] :=
  (if_neg (by simp [hend])).trans (if_neg (by simp [hend]))

section
variable (hend : endsTile f = true)
include hend

theorem State.wrAnswer_checked (hcrc : crc32c (s.devBytes (reqAddr f + f.data.length - 4096) 4096) = f.arg.toNat) :
    s.wrAnswer f = (s.chkWhole (reqAddr f + f.data.length - 4096)
      (some (crc32c (s.devBytes (reqAddr f + f.data.length - 4096) 4096)))).answer ftWrReq f 0 0 [] :=
  if_pos ⟨hend, hcrc⟩

theorem State.wrAnswer_broken (hcrc : crc32c (s.devBytes (reqAddr f + f.data.length - 4096) 4096) ≠ f.arg.toNat)
    (harg : f.arg ≠ 0) : s.wrAnswer f =
      (s.chkWhole (reqAddr f + f.data.length - 4096) none).answer ftWrReq f 3 0 [] :=
  (if_neg fun h => hcrc h.2).trans (if_pos ⟨hend, harg⟩)

end
end

/-- R363: FENCE_SIG acts where the fence is open to peers. -/
theorem State.onFenceSig_eq (f : Frame) (s : State) : State.onFenceSig f s =
    let n := f.addr.toNat % 4096
    if s.fld .CFE_FENCE_CTL_remote_ok n ≠ 0 then
      .ok ((s.fenceSignal n (leNat (f.data.take 8))).1.answer ftFenceSig f 0
        (b2n (s.fenceSignal n (leNat (f.data.take 8))).2) [])
    else .ok (s.answer ftFenceSig f 1 0 []) := if_congr decide_eq_true_iff rfl rfl

theorem actsAtHome_atomReq (f : Frame) :
    ActsAtHome (State.onAtomReq f) ftAtomReq f (if f.size = 2 then 4 else 8) false true :=
  ⟨State.atomAct f, State.onAtomReq_eq f⟩

/-- Settles O51: each request by what it meets first (`peerOp_spec`), then by what it does at the home. -/
theorem peerRequests : Obligations.PeerRequests := by
  intro p f s s1 d
  refine ⟨?meets, ?uncorrectable, ?read, ?write, ?atom, ?fe, ?withdraw, ?signal⟩
  case meets =>
    simp only [List.forall_mem_cons]
    exact ⟨exec_peerOp rfl (actsAtHome_rdReq f), exec_peerOp rfl (actsAtHome_wrReq f),
      exec_peerOp rfl (actsAtHome_atomReq f), exec_peerOp rfl (actsAtHome_feReq p f), List.forall_mem_nil _⟩
  case uncorrectable =>
    simp only [List.forall_mem_cons]
    exact ⟨exec_peerOp_bad rfl (actsAtHome_rdReq f), exec_peerOp_bad rfl (actsAtHome_atomReq f),
      exec_peerOp_bad rfl (actsAtHome_feReq p f), List.forall_mem_nil _⟩
  case read =>
    exact fun hrx h hfree hgood =>
      congrArg Host.Outcome.next (State.receive_of_taken hrx (State.onRdReq_acts ⟨h, hfree, hgood⟩))
  case write =>
    refine fun hrx h hfree => ⟨fun hend hgood hn hpage s2 hput => ?inPage, fun hend hgood s2 hput => ?tileEnd⟩
    case inPage =>
      have hlines : ∀ c ∈ spans 3 d f.data.length, s1.fillBad (.dev c.1) c.2 = false := by
        rw [spans_within hn hpage, List.forall_mem_singleton]
        exact hgood
      rw [← State.peerPut_within hend hgood hn hpage] at hput
      rw [exec_wrReq_acts hrx h hfree hlines hput, State.wrAnswer_open hend]
    case tileEnd =>
      refine ⟨fun hcrc => ?_, fun hcrc harg => ?_⟩
      · rw [exec_wrReq_acts hrx h hfree hgood hput, State.wrAnswer_checked hend hcrc, hcrc]
      · rw [exec_wrReq_acts hrx h hfree hgood hput, State.wrAnswer_broken hend hcrc harg]
  case atom =>
    exact fun hrx h hfree hgood s2 hput => congrArg Host.Outcome.next (State.receive_of_taken hrx
      ((State.onAtomReq_eq f s1).trans (State.Admits.acts ⟨h, hfree, hgood⟩ (congrArg (Option.map _) hput))))
  case fe =>
    intro hrx h hfree hgood s2 r harrive
    have hadm : s1.Admits f 8 false true := ⟨h, hfree, hgood⟩
    refine ⟨fun hr => ?_, fun hr => ?_, fun hr => ?_⟩
    · exact congrArg _ (State.receive_of_taken hrx (State.onFeReq_taken hadm hr harrive))
    · exact congrArg _ (State.receive_of_taken hrx (State.onFeReq_notSync hadm (hr ▸ harrive)))
    · exact congrArg _ (State.receive_of_waiting hrx (State.onFeReq_returned hadm (hr ▸ harrive)))
  case withdraw => exact fun hrx => congrArg Host.Outcome.next (State.receive_of_taken hrx rfl)
  case signal =>
    exact fun hrx => ⟨fun hclosed => congrArg Host.Outcome.next
        (State.receive_of_taken hrx ((State.onFenceSig_eq f s1).trans (if_neg (not_not.mpr hclosed)))),
      fun hopen => congrArg Host.Outcome.next
        (State.receive_of_taken hrx ((State.onFenceSig_eq f s1).trans (if_pos hopen)))⟩

end Sys2Proof.Machine

/-!
PROOFS. The link layer (R344, R345, R349, R356 to R358): replays, acknowledgements and credits, pauses, training.
-/

namespace Sys2Proof.Machine

section
variable {s : State} {p : Fin 12} {nbr : Nat}

/-! ### Replays (R356, R357) -/

/-- R356: a NAK acknowledges what comes before the frame it names, and has the rest sent again. -/
theorem exec_nak_of_live (hlive : s.portLive p.val = true)
    (hmode : s.fld .FAB_PORT_CFG_mode p.val = modeNative ∨ s.fld .FAB_PORT_CFG_mode p.val = modeEncap) (lseq : Nat) :
    exec (.nak p nbr lseq) s = .next (s.nakIn p.val nbr (lseq % 2 ^ 32)) :=
  congrArg Host.Outcome.next (if_pos (by simpa [hlive] using hmode))

/-- R357: on an ENCAP port what is not acknowledged in `rto_us` is sent again, unless the port is paused. -/
theorem exec_retransmissionTimer_of_live (hlive : s.portLive p.val = true)
    (hmode : s.fld .FAB_PORT_CFG_mode p.val = modeEncap) : let l := s.link (s.linkKey p.val nbr)
    exec (.retransmissionTimer p nbr) s = .next (
      if l.replay ≠ [] ∧ l.paused = false ∧ l.since + s.fld .FAB_PORT_CFG_rto_us p.val * 1000 ≤ s.now
      then s.replayFrom p.val nbr else s) :=
  congrArg Host.Outcome.next (if_congr (by simp [hlive, hmode, and_assoc]) rfl rfl)

/-! ### Stalls (R358) -/

theorem exec_lackStall_of_stalled (hlive : s.portLive p.val = true)
    (hmode : s.fld .FAB_PORT_CFG_mode p.val = modeNative) (hreplay : (s.link (s.linkKey p.val 0)).replay ≠ [])
    (hlong : (s.link (s.linkKey p.val 0)).since + 10000 ≤ s.now) :
    exec (.lackStall p) s = .next (s.portRetrain p.val) :=
  congrArg Host.Outcome.next (if_pos (by simp [hlive, hmode, hreplay, hlong]))

theorem State.portRetrain_regs (s : State) (n : Nat) : (s.portRetrain n).regs =
    ((s.setFld .FAB_PORT_STATUS_state n portTraining).satFld .FAB_PORT_ERR_retrains n 1).regs := rfl

/-- R358: a port that retrains is TRAINING from this moment on, and keeps what it holds. -/
theorem State.fld_portRetrain (s : State) (n : Nat) :
    (s.portRetrain n).fld .FAB_PORT_STATUS_state n = portTraining := by
  rw [State.fld_congr (State.portRetrain_regs s n), State.fld_satFld_ne _ _ _ _ (by decide), State.fld_setFld_self]
  rfl

theorem State.trainAt_portRetrain (s : State) (n : Nat) : mapFind (s.portRetrain n).trainAt n = some s.now :=
  (mapFind_mapIns ..).trans (if_pos rfl)

theorem State.mem_retrain_portRetrain (s : State) (n : Nat) : n ∈ (s.portRetrain n).retrain := by
  have hretrain : (s.portRetrain n).retrain = if s.retrain.contains n then s.retrain else n :: s.retrain := rfl
  rw [hretrain]
  split
  · exact List.contains_iff_mem.mp ‹_›
  · exact List.mem_cons_self ..

/-! ### Control units, PFC, LLDP (R344, R349, R357) -/

/-- R349, R356: a control unit taken on a NATIVE link: its `lack`, then the credits of both channels. -/
def State.controlTaken (s : State) (p lack cr0 cr1 : Nat) : State :=
  let k := s.linkKey p 0
  let t := s.ackTo k (lack % 2 ^ 32)
  (t.setLink k { t.link k with cr0 := (t.link k).cr0 + cr0, cr1 := (t.link k).cr1 + cr1 }).pump k

section
variable (hlive : s.portLive p.val = true) (hmode : s.fld .FAB_PORT_CFG_mode p.val = modeNative)
include hlive hmode

theorem exec_controlUnit_of_live (lack cr0 cr1 : Nat) :
    exec (.controlUnit p lack none cr0 cr1) s = .next (s.controlTaken p.val lack cr0 cr1) := by
  unfold State.controlTaken
  exact congrArg Host.Outcome.next (if_pos (by simp [hlive, hmode]))

theorem exec_controlUnit_nak (lack x cr0 cr1 : Nat) : exec (.controlUnit p lack (some x) cr0 cr1) s =
    .next ((s.controlTaken p.val lack cr0 cr1).nakIn p.val 0 (x % 2 ^ 32)) := by
  unfold State.controlTaken
  exact congrArg Host.Outcome.next (if_pos (by simp [hlive, hmode]))

end

/-- R357: a pause or a resume reaches every tunnel of the port. -/
theorem exec_pfc_of_live (hlive : s.portLive p.val = true) (hmode : s.fld .FAB_PORT_CFG_mode p.val = modeEncap)
    (hen : s.fld .FAB_PORT_CFG_pfc_en p.val ≠ 0) (on : Bool) :
    exec (.pfc p (s.fld .FAB_PORT_CFG_pfc_prio p.val) on) s =
      .next (State.each { s with links := s.links.map (fun e =>
        if e.1 / 4097 = p.val then (e.1, { e.2 with paused := on }) else e) } (s.linksOf p.val) State.pump) :=
  congrArg Host.Outcome.next (if_pos (by simp [hlive, hmode, State.flag, hen]))

theorem exec_lldp_of_live (hlive : s.portLive p.val = true) (hmode : s.fld .FAB_PORT_CFG_mode p.val = modePlain) :
    exec (.lldp p) s = .next { s with plainTx := s.plainTx ++
      [⟨0xCC, { Frame.blank with src := BitVec.ofNat 16 (s.fld .FAB_ID_dev_id 0) }, none⟩] } :=
  congrArg Host.Outcome.next (if_pos (by simp [hlive, hmode]))

/-! ### Training (R343 to R345, R358) -/

section
variable (ha : s.alive = true)
include ha

theorem exec_silitPortUp_of_training (hheld : s.linksHeld = false)
    (hst : s.fld .FAB_PORT_STATUS_state p.val = portTraining) (l : Training) :
    exec (.silitPortUp p l) s = .next (s.portTrained p.val l) :=
  congrArg Host.Outcome.next (if_pos (by simp [ha, hheld, hst]))

/-- R345: a DOWN port that is in use tries again a second after its last training. -/
theorem exec_portTrainingRetry_of_down (hheld : s.linksHeld = false)
    (hst : s.fld .FAB_PORT_STATUS_state p.val = portDown) (hmode : s.fld .FAB_PORT_CFG_mode p.val ≠ modeOff)
    (hon : p.val ∉ s.siliOff) (l : Training) : exec (.portTrainingRetry p l) s = .next (
      if mapGet 0 s.trainAt p.val + 1000000000 ≤ s.now then s.portTrained p.val l else s) :=
  congrArg Host.Outcome.next (if_congr (by simp [ha, hheld, hst, hmode, hon]) rfl rfl)

/-- R345, R358: a training of 100 ms is over: a retraining fails the port, a first training leaves it DOWN. -/
theorem exec_silitRetrainTimeout_of_training (hst : s.fld .FAB_PORT_STATUS_state p.val = portTraining) :
    exec (.silitRetrainTimeout p) s = .next (if mapGet 0 s.trainAt p.val + 100000000 ≤ s.now then
      (if p.val ∈ s.retrain then s.portDead p.val else s.portDownAgain p.val) else s) :=
  congrArg Host.Outcome.next (if_congr (by simp [ha, hst]) (if_congr List.contains_iff_mem rfl rfl) rfl)

end

/-- R345: what a NATIVE port comes to on the lanes that trained. -/
theorem State.trainResult_native {n : Nat} (hmode : s.fld .FAB_PORT_CFG_mode n = modeNative) (l : Training) :
    s.trainResult n l = if l.lanes.toNat = 0xFF then (portUp, 0xFF)
      else if l.lanes.toNat % 16 = 15 then (portDegraded, 0x0F)
      else if l.lanes.toNat / 16 = 15 then (portDegraded, 0xF0) else (portDown, 0) := by
  unfold State.trainResult
  rw [hmode]
  rfl

end

/-- Settles O53: each command of the link layer by its guard, the ports by how long they have trained. -/
theorem linkLayer : Obligations.LinkLayer := by
  intro p nbr lseq s n mode st
  refine ⟨fun hlive => ⟨fun hmode => exec_nak_of_live hlive hmode lseq, fun hmode => ⟨?timer, ?timerIdle⟩,
      fun hmode => ⟨fun hreplay hlong => ?stall, fun lack c0 c1 => ⟨?unit, ?unitNak⟩⟩,
      fun on hmode hen => exec_pfc_of_live hlive hmode hen on, exec_lldp_of_live hlive⟩,
    fun ha hheld => ⟨fun l hst => exec_silitPortUp_of_training ha hheld hst l,
      fun l hst hmode hon => ⟨?again, ?early⟩, fun hst => ⟨?ended, ?trains⟩⟩, fun hmode => ?outcomes⟩
  case timer =>
    exact fun hreplay hpaused hlong =>
      (exec_retransmissionTimer_of_live hlive hmode).trans (congrArg _ (if_pos ⟨hreplay, hpaused, hlong⟩))
  case timerIdle =>
    refine fun hidle => (exec_retransmissionTimer_of_live hlive hmode).trans (congrArg _ (if_neg ?_))
    rintro ⟨hreplay, hpaused, hlong⟩
    rcases hidle with h | h | h
    · exact hreplay h
    · exact Bool.eq_false_iff.mp hpaused h
    · exact h.not_ge hlong
  case stall =>
    exact ⟨_, exec_lackStall_of_stalled hlive hmode hreplay hlong, State.fld_portRetrain ..,
      State.trainAt_portRetrain ..,
      State.mem_retrain_portRetrain .., rfl⟩
  case unit => exact exec_controlUnit_of_live hlive hmode lack c0 c1
  case unitNak => exact fun x => exec_controlUnit_nak hlive hmode lack x c0 c1
  case again =>
    exact fun hlong => (exec_portTrainingRetry_of_down ha hheld hst hmode hon l).trans (congrArg _ (if_pos hlong))
  case early =>
    exact fun hsoon =>
      (exec_portTrainingRetry_of_down ha hheld hst hmode hon l).trans (congrArg _ (if_neg hsoon.not_ge))
  case ended => exact fun hlong => (exec_silitRetrainTimeout_of_training ha hst).trans (congrArg _ (if_pos hlong))
  case trains =>
    exact fun hsoon => (exec_silitRetrainTimeout_of_training ha hst).trans (congrArg _ (if_neg hsoon.not_ge))
  case outcomes =>
    exact ⟨State.trainResult_native hmode _, State.trainResult_native hmode _, State.trainResult_native hmode _⟩

end Sys2Proof.Machine

/-!
PROOFS. PTP (R374 to R376): the choice of a time transmitter, the offset of a Sync, the path delay, holdover.
-/

namespace Sys2Proof.Machine

section
variable {s : State} {p : Fin 12} {m : PtpMsg}

/-! ### The choice of a time transmitter (R375, R376) -/

/-- A message of PTP that a running device hears passes the guard of its command. -/
theorem next_of_heard {t u : State} (ha : s.alive = true) (hh : s.ptpHears p.val m = true) :
    (.next (if !s.alive || !s.ptpHears p.val m then t else u) : Out) = .next u := by simp [ha, hh]

theorem exec_announce_of_chosen (ha : s.alive = true) (hh : s.ptpHears p.val m = true)
    (hc : s.ptpChosen p.val m = true) : exec (.announce p m) s = .next { s with time := { s.time with
      chosen := some (p.val, m.clockId, m.rank), annAt := s.now, annIv := s.now - s.time.annAt } } :=
  (next_of_heard ha hh).trans (congrArg Host.Outcome.next (if_pos hc))

theorem exec_announce_of_other (ha : s.alive = true) (hh : s.ptpHears p.val m = true)
    (hc : s.ptpChosen p.val m = false) :
    exec (.announce p m) s = .next (if s.betterGm p.val m then s.chooseGm p.val m else s) :=
  (next_of_heard ha hh).trans (congrArg Host.Outcome.next (if_neg (Bool.eq_false_iff.mp hc)))

/-- R375: any sender is better than one that has fallen silent. -/
theorem State.betterGm_of_silent (n : Nat) (h : s.gmSilent = true) : s.betterGm n m = true := by
  unfold State.betterGm
  split
  · rfl
  · simp [h]

/-- R375: the registers that name the chosen time transmitter. -/
def gmFlds (p : Nat) (m : PtpMsg) : List (Fld × Nat) := [(.TIM_GM_clock_id, m.clockId.toNat), (.TIM_STATUS_port, p)]

/-- A time transmitter chosen, its measurements still to come. -/
def State.gmNoted (s : State) (p : Nat) (m : PtpMsg) : State :=
  { s.setFlds 0 (gmFlds p m) with time := { s.time with
    chosen := some (p, m.clockId, m.rank), inLock := 0, twoStep := none, t1 := 0, t2 := 0, t3 := 0, delay := 0,
    lead := none
    annAt := s.now, annIv := 0, syncAt := 0, syncIv := 0 } }

theorem State.chooseGm_eq (s : State) (p : Nat) (m : PtpMsg) : s.chooseGm p m =
    if s.time.chosen.isSome then (s.gmNoted p m).toHoldover
    else (s.gmNoted p m).setFld .TIM_STATUS_state 0 timAcquiring := rfl

theorem State.fld_gmNoted {f : Fld} {v : Nat} (n : Nat) (hf : (f, v) ∈ gmFlds n m) :
    (s.gmNoted n m).fld f 0 = v % 2 ^ f.desc.width :=
  State.fld_setFlds_of_mem (by simp [gmFlds]) hf

/-- R376: a first choice is ACQUIRING, a change of choice HOLDOVER. -/
theorem State.chooseGm_regs (s : State) (n : Nat) (m : PtpMsg) : (s.chooseGm n m).regs = ((s.gmNoted n m).setFld
    .TIM_STATUS_state 0 (if s.time.chosen = none then timAcquiring else timHoldover)).regs := by
  rw [State.chooseGm_eq]
  cases s.time.chosen <;> rfl

theorem State.chooseGm_chosen (s : State) (n : Nat) (m : PtpMsg) :
    (s.chooseGm n m).time.chosen = some (n, m.clockId, m.rank) := by
  rw [State.chooseGm_eq]
  split <;> rfl

theorem State.chooseGm_inLock (s : State) (n : Nat) (m : PtpMsg) : (s.chooseGm n m).time.inLock = 0 := by
  rw [State.chooseGm_eq]
  split <;> rfl

theorem State.chooseGm_only (s : State) (n : Nat) (m : PtpMsg) :
    s.chooseGm n m = { s with regs := (s.chooseGm n m).regs, time := (s.chooseGm n m).time } := by
  rw [State.chooseGm_eq]
  split <;> rfl

theorem State.chooseGm_timState (s : State) (n : Nat) (m : PtpMsg) :
    (s.chooseGm n m).timState = if s.time.chosen = none then timAcquiring else timHoldover := by
  refine (State.fld_congr (State.chooseGm_regs ..) _ _).trans ((State.fld_setFld_self ..).trans ?_)
  split <;> rfl

theorem State.fld_chooseGm {f : Fld} {v : Nat} (n : Nat) (hf : (f, v) ∈ gmFlds n m) (hs : f ≠ .TIM_STATUS_state) :
    (s.chooseGm n m).fld f 0 = v % 2 ^ f.desc.width :=
  (State.fld_congr (State.chooseGm_regs ..) _ _).trans ((State.fld_setFld_ne _ _ _ _ hs).trans (State.fld_gmNoted n hf))

/-! ### Offset and path delay (R375, R376) -/

theorem exec_ptpSync_of_chosen (ha : s.alive = true) (hh : s.ptpHears p.val m = true)
    (hc : s.ptpChosen p.val m = true) (hst : s.stamped m.arrival = true) : exec (.ptpSync p m) s = .next (
      if m.twoStep then { s.heardSync with
        time := { s.heardSync.time with twoStep := some (m.seq, m.arrival, m.corr) } }
      else s.heardSync.synced p.val (m.origin + m.corr) m.arrival) :=
  congrArg Host.Outcome.next (if_neg (by simp [ha, hh, hc, hst]))

/-- R375: the Follow_Up of a two-step Sync completes it, by the corrections of both. -/
theorem exec_followUp_of_sync {t2 : Nat} {c2 : Int} (ha : s.alive = true) (hh : s.ptpHears p.val m = true)
    (hc : s.ptpChosen p.val m = true) (hsync : s.time.twoStep = some (m.seq, t2, c2)) :
    exec (.followUp p m) s = .next (s.synced p.val (m.origin + c2 + m.corr) t2) := by
  refine congrArg Host.Outcome.next ((if_neg (by simp [ha, hh, hc])).trans ?_)
  simp only [hsync, if_true]

theorem exec_delayResp_of_asked (ha : s.alive = true) (hh : s.ptpHears p.val m = true)
    (hc : s.ptpChosen p.val m = true) (ht3 : s.time.t3 ≠ 0) (ht2 : s.time.t2 ≠ 0) :
    exec (.delayResp p m) s = .next { s with time := { s.time with
      delay := ((s.time.t2 : Int) - s.time.t1 + ((m.origin : Int) - m.corr - s.time.t3)) / 2, t3 := 0 } } :=
  congrArg Host.Outcome.next (if_neg (by simp [ha, hh, hc, ht3, ht2]))

/-- A delay request sent on a port. -/
def State.delayAsked (s : State) : State :=
  { s with
    time := { s.time with t3 := s.now }
    plainTx := s.plainTx ++ [⟨0xF7, { Frame.blank with src := BitVec.ofNat 16 (s.fld .FAB_ID_dev_id 0) }, none⟩] }

theorem exec_delayReq_of_synced {c : DWord} {r : Nat} (ha : s.alive = true) (hp : s.ptpPort p.val = true)
    (hc : s.time.chosen = some (p.val, c, r)) (ht2 : s.time.t2 ≠ 0) :
    exec (.delayReq p) s = .next s.delayAsked :=
  congrArg Host.Outcome.next (if_neg (by simp [ha, hp, hc, ht2]))

/-! ### Holdover (R376) -/

theorem State.toHoldover_timState (s : State) : s.toHoldover.timState = timHoldover :=
  s.fld_setFld_self .TIM_STATUS_state 0 timHoldover

/-- R376: three Sync intervals without a Sync. -/
theorem exec_syncLoss_of_alive (ha : s.alive = true) : exec .syncLoss s = .next (
    if s.timState = timLocked ∧ s.time.syncAt + 3 * s.time.syncIv ≤ s.now then s.toHoldover else s) :=
  congrArg Host.Outcome.next (if_congr (by simp [ha]) rfl rfl)

end

/-- Settles O54: an Announce by who is chosen and who is better, each other message by the guard of its command. -/
theorem networkTime : Obligations.NetworkTime := by
  intro p m s ha
  refine ⟨fun hh => ⟨fun hc hbetter => ?chosen, fun hc hworse => ?kept, fun _ h => State.betterGm_of_silent _ h,
      fun hc => ⟨exec_announce_of_chosen ha hh hc, fun hst => ⟨fun htwo => ?twoStep, fun hone => ?oneStep⟩,
        fun t2 c2 hsync => exec_followUp_of_sync ha hh hc hsync,
        fun ht3 ht2 => exec_delayResp_of_asked ha hh hc ht3 ht2⟩⟩,
    fun c r hp hc ht2 => ⟨s.delayAsked, exec_delayReq_of_synced ha hp hc ht2, rfl, rfl⟩,
    fun hlock hlong => ?lost, fun hnot => ?held⟩
  case chosen =>
    refine ⟨s.chooseGm p.val m, ?_, State.chooseGm_chosen .., State.chooseGm_inLock .., ?_, ?_,
      State.chooseGm_timState .., State.chooseGm_only ..⟩
    · rw [exec_announce_of_other ha hh hc, if_pos hbetter]
    · exact (State.fld_chooseGm _ (List.mem_cons_self ..) (by decide)).trans (Nat.mod_eq_of_lt m.clockId.isLt)
    · refine (State.fld_chooseGm (m := m) p.val (by simp [gmFlds]) (by decide)).trans (Nat.mod_eq_of_lt ?_)
      exact p.isLt.trans (by decide)
  case kept => rw [exec_announce_of_other ha hh hc, if_neg (Bool.eq_false_iff.mp hworse)]
  case twoStep => exact (exec_ptpSync_of_chosen ha hh hc hst).trans (congrArg _ (if_pos htwo))
  case oneStep =>
    exact (exec_ptpSync_of_chosen ha hh hc hst).trans (congrArg _ (if_neg (Bool.eq_false_iff.mp hone)))
  case lost =>
    refine ⟨s.toHoldover, ?_, State.toHoldover_timState s, rfl, rfl⟩
    rw [exec_syncLoss_of_alive ha, if_pos ⟨hlock, hlong⟩]
  case held =>
    rw [exec_syncLoss_of_alive ha, if_neg]
    exact fun ⟨hlock, hlong⟩ => hnot.elim (fun h => h hlock) (fun h => h.not_ge hlong)

end Sys2Proof.Machine

/-!
PROOFS. The update of the firmware: staging and arming (R404 to R406, R410), what a set's fault or acceptance leaves.
-/

namespace Sys2Proof.Machine

section
variable {s : State} {slot relay path : Nat} {e : FlashEnv}

/-! ### Registers set together -/

@[simp] theorem State.setFlds_pwr (i : Nat) (l : List (Fld × Nat)) : (s.setFlds i l).pwr = s.pwr := by
  rw [State.setFlds_only]
@[simp] theorem State.setFlds_sec (i : Nat) (l : List (Fld × Nat)) : (s.setFlds i l).sec = s.sec := by
  rw [State.setFlds_only]
@[simp] theorem State.setFlds_hif (i : Nat) (l : List (Fld × Nat)) : (s.setFlds i l).hif = s.hif := by
  rw [State.setFlds_only]
@[simp] theorem State.setFlds_flash (i : Nat) (l : List (Fld × Nat)) : (s.setFlds i l).flash = s.flash := by
  rw [State.setFlds_only]
@[simp] theorem State.setFlds_fuses (i : Nat) (l : List (Fld × Nat)) : (s.setFlds i l).fuses = s.fuses := by
  rw [State.setFlds_only]

/-! ### Staging (R404, R406) -/

/-- R404: a set that R401 refuses is not staged. -/
theorem State.stageEnd_of_refused {f : SetFault} (h : s.accept slot = some f) :
    s.stageEnd slot relay path = (s.unstaged, some f) := by
  unfold State.stageEnd
  rw [h]

/-- The registers of a staged set. -/
def stagedFlds (version id : Nat) : List (Fld × Nat) :=
  [(.SEC_FW_STATE_stage_state, stStaged), (.SEC_FW_STAGED_version, version), (.SEC_RELAY_ID_relay_id, id)]

/-- The relay ID that a staged set keeps: in January mode none. -/
def State.keptId (s : State) (relay : Nat) : Nat := if s.january then 0 else relay

/-- R404: what Limhel keeps of a set that has passed. -/
def State.setKept (s : State) (slot relay : Nat) : State :=
  { s with sec := { s.sec with
    slot := slot, relayId := s.keptId relay, targets := [], passed := false
    seen := if s.keptId relay = 0 ∨ s.sec.seen.contains (s.keptId relay) then s.sec.seen
      else s.keptId relay :: s.sec.seen } }

/-- R404: a set that has passed is kept and shown. -/
def State.stageNoted (s : State) (slot relay : Nat) : State :=
  (s.setKept slot relay).setFlds 0 (stagedFlds ((s.setKept slot relay).setVersion slot) (s.keptId relay))

/-- R416: the registers that tell a set ready in January mode. -/
def readyFlds (path : Nat) : List (Fld × Nat) := [(.SEC_JAN_set_ready, 1), (.SEC_JAN_path, path)]

/-- R416: the slot sealed, the set ready for the next start. -/
def State.januaryReady (s : State) (slot path : Nat) : State :=
  (s.writeSeal slot (s.topSeal + 1)).setFlds 0 (readyFlds path)

theorem State.stageEnd_of_accepted (h : s.accept slot = none) : s.stageEnd slot relay path =
    if s.january then ((s.stageNoted slot relay).januaryReady slot path, none)
    else (s.stageNoted slot relay, none) := by
  unfold State.stageEnd
  rw [h]
  rfl

theorem State.stageEnd_fault (h : s.accept slot = none) : (s.stageEnd slot relay path).2 = none := by
  rw [State.stageEnd_of_accepted h]
  split <;> rfl

/-- What the staging of a set that has passed keeps, where it keeps the record and the seal of January mode does too. -/
theorem State.stageEnd_keeps {α : Type} (get : State → α) {a : α} (h : s.accept slot = none)
    (hnoted : get (s.stageNoted slot relay) = a)
    (hready : ∀ t : State, get (t.januaryReady slot path) = get t) : get (s.stageEnd slot relay path).1 = a := by
  rw [State.stageEnd_of_accepted h]
  split
  · exact (hready _).trans hnoted
  · exact hnoted

/-- A seal is written to the boot flash alone. -/
theorem State.writeSeal_keeps {α : Type} (get : State → α) (h : ∀ (t : State) m, get { t with flash := m } = get t)
    (s : State) (slot seq : Nat) : get (s.writeSeal slot seq) = get s := by
  unfold State.writeSeal
  split
  · exact h _ _
  · rfl

theorem State.fld_januaryReady {f : Fld} (i : Nat) (hf : ∀ x ∈ readyFlds path, x.1 ≠ f) (t : State) :
    (t.januaryReady slot path).fld f i = t.fld f i :=
  (State.fld_setFlds_ne _ _ _ _ hf).trans (State.writeSeal_keeps (State.fld · f i) (fun _ _ => rfl) ..)

theorem State.januaryReady_pwr (t : State) : (t.januaryReady slot path).pwr = t.pwr :=
  (State.setFlds_pwr ..).trans (State.writeSeal_keeps State.pwr (fun _ _ => rfl) ..)

theorem State.stageNoted_pwr : (s.stageNoted slot relay).pwr = s.pwr := State.setFlds_pwr ..

/-- Staging takes no device into January mode and none out of it. -/
theorem State.stageEnd_january (h : s.accept slot = none) : (s.stageEnd slot relay path).1.january = s.january := by
  have hpwr := State.stageEnd_keeps (relay := relay) (path := path) State.pwr h State.stageNoted_pwr
    State.januaryReady_pwr
  have hboot := State.stageEnd_keeps (relay := relay) (path := path) (State.fld · .HIF_PROMPT_STATE_boot_state 0) h
    (State.fld_setFlds_ne _ _ _ _ (by simp [stagedFlds])) (State.fld_januaryReady 0 (by simp [readyFlds]))
  unfold State.january State.alive State.serves
  rw [hpwr, hboot]
  rfl

theorem State.unstaged_stage (s : State) : s.unstaged.stage = stNone :=
  State.fld_setFlds_of_mem (v := stNone) (by simp) (by simp)

/-! ### Arming (R410) -/

theorem State.arm_of_noFlash (t : Nat) (late : Bool) (h : e.flashOk = false) :
    s.arm t late e = (s.unstaged, fcFwFlash) := if_pos (by simp [h])

theorem State.arm_of_refused {f : SetFault} (t : Nat) (late : Bool) (h : e.flashOk = true)
    (hset : s.accept s.sec.slot = some f) : s.arm t late e = (s.unstaged, f.code) := by
  unfold State.arm
  rw [if_neg (by simp [h]), hset]

theorem State.arm_of_noLoad (t : Nat) (late : Bool) (h : e.flashOk = true) (hset : s.accept s.sec.slot = none)
    (hload : e.loadOk = false) : s.arm t late e = (s, fcFwActivateFailed) := by
  unfold State.arm
  rw [if_neg (by simp [h]), hset]
  exact if_pos (by simp [hload])

/-- A set armed for a time. -/
def State.armed (s : State) (t : Nat) (late : Bool) : State :=
  State.setFlds { s with sec := { s.sec with late := late } } 0
    [(.SEC_FW_STATE_stage_state, stArmed), (.SEC_FW_ARM_at_ns, t)]

theorem State.arm_of_loaded (t : Nat) (late : Bool) (h : e.flashOk = true) (hset : s.accept s.sec.slot = none)
    (hload : e.loadOk = true) : s.arm t late e = (s.armed t late, 0) := by
  unfold State.arm
  rw [if_neg (by simp [h]), hset]
  exact if_neg (by simp [hload])

end

/-! ### FW_STAGE (R404 to R408) -/

section
variable {s : State} {p : Pkt} {e : FlashEnv}

theorem State.fwStage_badLength (h : p.b 16 8 = 0 ∨ 32 * 2 ^ 20 < p.b 16 8) :
    s.fwStage p e = s.failPkt p fcFwImageFormat 0 [] := if_pos h

theorem State.fwStage_forbidden (hlen : p.b 16 8 ≠ 0) (hmax : p.b 16 8 ≤ 32 * 2 ^ 20)
    (h : s.stageBusy = true ∨ s.slotFits s.inactive (p.b 16 8) = false) :
    s.fwStage p e = s.failPkt p fcFwState 0 [] := by
  have hstate : (s.stageBusy || !s.slotFits s.inactive (p.b 16 8)) = true := by simpa using h
  exact (if_neg (not_or.mpr ⟨hlen, hmax.not_gt⟩)).trans (if_pos hstate)

/-- R405, R406: whether a FW_STAGE step may read its set. -/
def State.stageMay (s : State) (len : Nat) : Prop :=
  ¬ (len = 0 ∨ len > 32 * 2 ^ 20) ∧ ¬ (s.stageBusy || !s.slotFits s.inactive len) = true

theorem State.stageMay_of {len : Nat} (hlen : len ≠ 0) (hmax : len ≤ 32 * 2 ^ 20) (hfree : s.stageBusy = false)
    (hfits : s.slotFits s.inactive len = true) : s.stageMay len :=
  ⟨not_or.mpr ⟨hlen, hmax.not_gt⟩, by simp [hfree, hfits]⟩

theorem State.fwStage_waits {s2 : State} (hmay : s.stageMay (p.b 16 8))
    (hread : s.stepRead p (p.b 8 8) (p.b 16 8) = .wait s2) : s.fwStage p e = s2 := by
  unfold State.fwStage
  rw [if_neg hmay.1, if_neg hmay.2, hread]

theorem State.fwStage_noFlash {s2 : State} {bs : List Byte} (hmay : s.stageMay (p.b 16 8))
    (hread : s.stepRead p (p.b 8 8) (p.b 16 8) = .ok s2 bs) (hflash : e.flashOk = false) :
    s.fwStage p e = (s2.stageBegin s.inactive).unstaged.failPkt p fcFwFlash 0 [] := by
  unfold State.fwStage
  rw [if_neg hmay.1, if_neg hmay.2, hread]
  exact if_pos (by simp [hflash])

/-- A staged set, its bytes programmed but not yet checked. -/
def State.programmed (s : State) (slot : Nat) (bs : List Byte) : State := (s.stageBegin slot).stagePut slot 0 bs

theorem State.fwStage_refused {s2 : State} {bs : List Byte} {f : SetFault} (hmay : s.stageMay (p.b 16 8))
    (hread : s.stepRead p (p.b 8 8) (p.b 16 8) = .ok s2 bs) (hflash : e.flashOk = true)
    (hset : (s2.programmed s.inactive bs).accept s.inactive = some f) :
    s.fwStage p e = (s2.programmed s.inactive bs).unstaged.failPkt p f.code 0 [] := by
  unfold State.fwStage
  rw [if_neg hmay.1, if_neg hmay.2, hread]
  refine (if_neg (by simp [hflash])).trans ?_
  rw [← State.programmed, State.stageEnd_of_refused hset]

/-- R407: no port, or no hop, is no relay. -/
theorem noPorts_of_bits {n : Nat} (h : n % 2 ^ 12 = 0) : ((List.range 12).filter n.testBit) = [] := by
  refine List.filter_eq_nil_iff.mpr fun i hi => ?_
  have hbit : (n % 2 ^ 12).testBit i = n.testBit i := by
    rw [Nat.testBit_mod_two_pow, decide_eq_true (List.mem_range.mp hi), Bool.true_and]
  rw [← hbit, h, Nat.zero_testBit]
  exact Bool.false_ne_true

theorem State.fwStage_accepted {s2 : State} {bs : List Byte} (hmay : s.stageMay (p.b 16 8))
    (hread : s.stepRead p (p.b 8 8) (p.b 16 8) = .ok s2 bs) (hflash : e.flashOk = true)
    (hset : (s2.programmed s.inactive bs).accept s.inactive = none)
    (hrelay : p.b 24 2 % 2 ^ 12 = 0 ∨ p.b 26 1 % 16 = 0) :
    s.fwStage p e = ((s2.programmed s.inactive bs).stageEnd s.inactive 0 0).1.endPkt p 0 := by
  have hnone : (((List.range 12).filter (p.b 24 2).testBit).isEmpty || p.b 26 1 % 16 == 0) = true := by
    rcases hrelay with h | h
    · simp only [noPorts_of_bits h, List.isEmpty_nil, Bool.true_or]
    · simp [h]
  have hfault := State.stageEnd_fault (relay := 0) (path := 0) hset
  unfold State.fwStage
  rw [if_neg hmay.1, if_neg hmay.2, hread]
  refine (if_neg (by simp [hflash])).trans ?_
  rw [← State.programmed]
  revert hfault
  generalize (s2.programmed s.inactive bs).stageEnd s.inactive 0 0 = r
  obtain ⟨t, fault⟩ := r
  rintro ⟨⟩
  exact if_pos hnone

/-! ### FW_ACTIVATE (R406, R410, R413) -/

theorem State.fwActivate_forbidden (h : s.stage ≠ stStaged ∨ (p.b 16 8 ≠ 0 ∧ p.b 16 8 < s.now + 10000000)) :
    s.fwActivate p e = s.failPkt p fcFwState 0 [] := if_pos h

/-- R406, R410: whether a FW_ACTIVATE step may arm the staged set for a time. -/
def State.armMay (s : State) (t : Nat) : Prop := ¬ (s.stage ≠ stStaged ∨ (t ≠ 0 ∧ t < s.now + 10000000))

theorem State.armMay_of {t : Nat} (hst : s.stage = stStaged) (ht : t = 0 ∨ s.now + 10000000 ≤ t) : s.armMay t := by
  rintro (h | ⟨hzero, hsoon⟩)
  · exact h hst
  · exact ht.elim hzero hsoon.not_ge

theorem State.fwActivate_fails {s2 : State} {c : Nat} (hmay : s.armMay (p.b 16 8)) (hc : c ≠ 0)
    (harm : s.arm (p.b 16 8) false e = (s2, c)) : s.fwActivate p e = s2.failPkt p c 0 [] := by
  unfold State.fwActivate
  rw [if_neg hmay, harm]
  cases c with
  | zero => exact absurd rfl hc
  | succ c => rfl

theorem State.fwActivate_arms {s2 : State} (hmay : s.armMay (p.b 16 8)) (harm : s.arm (p.b 16 8) false e = (s2, 0)) :
    s.fwActivate p e = (if p.b 8 1 % 2 = 1 then s2.passActivate (p.b 16 8) else s2).endPkt p 0 := by
  unfold State.fwActivate
  rw [if_neg hmay, harm]
  rfl

theorem SetFault.code_ne_zero (f : SetFault) : f.code ≠ 0 := by cases f <;> decide

end

/-- Settles O47: FW_STAGE by how far its guards, its reading and its check let it come, FW_ACTIVATE by the result of
`arm`. -/
theorem firmwarePackets : Obligations.FirmwarePackets := by
  intro q seq e s s1 p
  refine ⟨fun h hends => ⟨fun hlen => ?badLength, fun hlen hmax hstate => ?forbidden,
      fun hlen hmax hfree hfits => ?reads⟩,
    fun h => ⟨fun hbad => ?early, fun hst ht => ?arms⟩⟩
  case badLength => exact next_perform_taken h ((if_neg (by simp [hends])).trans (State.fwStage_badLength hlen))
  case forbidden =>
    exact next_perform_taken h ((if_neg (by simp [hends])).trans (State.fwStage_forbidden hlen hmax hstate))
  case reads =>
    have hmay := State.stageMay_of hlen hmax hfree hfits
    have hrun {t : State} (ht : s1.fwStage p e = t) : exec (.fwStage q seq e) s = .next t :=
      next_perform_taken h ((if_neg (by simp [hends])).trans ht)
    exact ⟨fun s2 hread => hrun (State.fwStage_waits hmay hread), fun s2 bs hread =>
      ⟨fun hflash => hrun (State.fwStage_noFlash hmay hread hflash), fun hflash =>
        ⟨fun f hset => hrun (State.fwStage_refused hmay hread hflash hset),
          fun hset hrelay => hrun (State.fwStage_accepted hmay hread hflash hset hrelay)⟩⟩⟩
  case early => exact next_perform_taken h (State.fwActivate_forbidden hbad)
  case arms =>
    have hmay := State.armMay_of hst ht
    have hfails {s2 : State} {c : Nat} (hc : c ≠ 0) (harm : s1.arm (p.b 16 8) false e = (s2, c)) :
        exec (.fwActivate q seq e) s = .next (s2.failPkt p c 0 []) :=
      next_perform_taken h (State.fwActivate_fails hmay hc harm)
    exact ⟨fun hflash => hfails (by decide) (State.arm_of_noFlash _ _ hflash), fun hflash =>
      ⟨fun f hset => hfails f.code_ne_zero (State.arm_of_refused _ _ hflash hset), fun hset =>
        ⟨fun hload => hfails (by decide) (State.arm_of_noLoad _ _ hflash hset hload),
          fun hload => next_perform_taken h (State.fwActivate_arms hmay (State.arm_of_loaded _ _ hflash hset hload))⟩⟩⟩

end Sys2Proof.Machine

/-!
PROOFS. The relay of a firmware set (R404, R408, R409, R413).
-/

namespace Sys2Proof.Machine

section
variable {s s1 : State} {p : Fin 12} {f : Frame} {e : FlashEnv}

/-! ### FW_RELAY frames -/

/-- A command that handles a FW_RELAY frame of a kind, on a frame of that kind that is this device's. -/
theorem exec_relayIn {c : Instr} {n kind : Nat} {k : State → State} (hc : exec c s = .next (s.relayIn n kind f k))
    (hrx : s.rx n ftFwRelay f = .mine s1) (hkind : f.arg.toNat % 4 = kind) : exec c s = .next (k s1) :=
  hc.trans (congrArg _ (State.receive_of_taken hrx (congrArg Except.ok (if_pos hkind))))

/-! ### START (R408, R409) -/

/-- A seal is erased from the boot flash alone. -/
theorem State.fld_eraseSeal (s : State) (slot : Nat) (g : Fld) (i : Nat) : (s.eraseSeal slot).fld g i = s.fld g i := by
  unfold State.eraseSeal
  split <;> rfl

theorem State.stageBegin_stage (s : State) (slot : Nat) : (s.stageBegin slot).stage = stStaging :=
  (State.fld_eraseSeal ..).trans (State.fld_setFld_self ..)

/-- R404: a relay opened into a slot. -/
def State.relayOpened (s : State) (p slot id : Nat) (f : Frame) : State :=
  { s.stageBegin slot with sec := { (s.stageBegin slot).sec with
    xfer := some ⟨slot, 0, leNat ((f.data.drop 8).take 8), 0,
    id, leNat ((f.data.drop 16).take 1), p, f.src.toNat⟩ } }

theorem State.relayOpened_stage (s : State) (p slot id : Nat) (f : Frame) :
    (s.relayOpened p slot id f).stage = stStaging := by
  have hregs : (s.relayOpened p slot id f).regs = (s.stageBegin slot).regs := by
    unfold State.relayOpened
    dsimp only
  exact (State.fld_congr hregs _ _).trans (State.stageBegin_stage ..)

section
variable (hrx : s.rx p.val ftFwRelay f = .mine s1) (hkind : f.arg.toNat % 4 = 0)
include hrx hkind

theorem exec_fwRelayStart_busy (h : s1.fld .SEC_RELAY_relay_accept 0 = 0 ∨ s1.stageBusy = true) :
    exec (.fwRelayStart p f) s = .next (s1.relaySkip p.val f.src.toNat 1) := by
  have hbusy : (!s1.flag .SEC_RELAY_relay_accept 0 || s1.stageBusy) = true := by simpa [State.flag] using h
  refine (exec_relayIn rfl hrx hkind).trans (congrArg _ ?_)
  exact if_pos hbusy

section
variable (haccept : s1.fld .SEC_RELAY_relay_accept 0 ≠ 0) (hfree : s1.stageBusy = false)
include haccept hfree

theorem exec_fwRelayStart_seen (h : leNat (f.data.take 8) ∈ s1.sec.seen) :
    exec (.fwRelayStart p f) s = .next (s1.relaySkip p.val f.src.toNat 0) := by
  have hnot : ¬ (!s1.flag .SEC_RELAY_relay_accept 0 || s1.stageBusy) = true := by simp [State.flag, haccept, hfree]
  refine (exec_relayIn rfl hrx hkind).trans (congrArg _ ?_)
  exact (if_neg hnot).trans (if_pos (List.contains_iff_mem.mpr h))

theorem exec_fwRelayStart_new (h : leNat (f.data.take 8) ∉ s1.sec.seen) (hlen : leNat ((f.data.drop 8).take 8) ≠ 0)
    (hmax : leNat ((f.data.drop 8).take 8) ≤ 32 * 2 ^ 20)
    (hfits : s1.slotFits s1.inactive (leNat ((f.data.drop 8).take 8)) = true) :
    exec (.fwRelayStart p f) s = .next (s1.relayOpened p.val s1.inactive (leNat (f.data.take 8)) f) := by
  have hnot : ¬ (!s1.flag .SEC_RELAY_relay_accept 0 || s1.stageBusy) = true := by simp [State.flag, haccept, hfree]
  have hlength : ¬ (leNat ((f.data.drop 8).take 8) = 0 ∨ leNat ((f.data.drop 8).take 8) > 32 * 2 ^ 20 ∨
      (!s1.slotFits s1.inactive (leNat ((f.data.drop 8).take 8))) = true) := by
    rintro (hz | hbig | hroom)
    · exact hlen hz
    · exact hmax.not_gt hbig
    · simp [hfits] at hroom
  refine (exec_relayIn rfl hrx hkind).trans (congrArg _ ?_)
  exact (if_neg hnot).trans ((if_neg (mt List.contains_iff_mem.mp h)).trans (if_neg hlength))

end
end

/-! ### DATA (R408) -/

/-- Bytes of a set that a relay brought, programmed and counted. -/
def State.relayPut (s : State) (x : Transfer) (f : Frame) : State :=
  { s.stagePut x.slot f.addr.toNat f.data with
    sec := { (s.stagePut x.slot f.addr.toNat f.data).sec with xfer := some { x with got := x.got + f.data.length } } }

theorem State.stagePut_regs (s : State) (slot off : Nat) (bs : List Byte) : (s.stagePut slot off bs).regs = s.regs := by
  unfold State.stagePut
  split <;> rfl

theorem State.relayPut_flash (s : State) (x : Transfer) (f : Frame) :
    (s.relayPut x f).flash = (s.stagePut x.slot f.addr.toNat f.data).flash := by
  unfold State.relayPut
  dsimp only

theorem State.relayPut_regs (s : State) (x : Transfer) (f : Frame) : (s.relayPut x f).regs = s.regs := by
  unfold State.relayPut
  dsimp only
  exact State.stagePut_regs ..

section
variable (hrx : s.rx p.val ftFwRelay f = .mine s1) (hkind : f.arg.toNat % 4 = 1)
include hrx hkind

theorem exec_fwRelayData_ignored (h : s1.relayOpen p.val f.src.toNat = none ∨ s1.relaySkips p.val f.src.toNat = true) :
    exec (.fwRelayData p f) s = .next s1 := by
  refine (exec_relayIn rfl hrx hkind).trans (congrArg _ ?_)
  split
  · rfl
  · next x hopen =>
    rcases h with h | h
    · exact absurd (hopen.symm.trans h) (Option.some_ne_none x)
    · exact if_pos h

theorem exec_fwRelayData_taken {x : Transfer} (hopen : s1.relayOpen p.val f.src.toNat = some x)
    (hskip : s1.relaySkips p.val f.src.toNat = false) (hroom : f.addr.toNat + f.data.length ≤ x.length) :
    exec (.fwRelayData p f) s = .next (s1.relayPut x f) := by
  refine (exec_relayIn rfl hrx hkind).trans (congrArg _ ?_)
  rw [hopen]
  exact (if_neg (Bool.eq_false_iff.mp hskip)).trans (if_neg hroom.not_gt)

end

/-! ### END (R404, R409, R416) -/

section
variable (hrx : s.rx p.val ftFwRelay f = .mine s1) (hkind : f.arg.toNat % 4 = 2)
include hrx hkind

/-- R409: the END of a relay that is ignored ends its being ignored. -/
theorem exec_fwRelayEnd_skipped (h : s1.relaySkips p.val f.src.toNat = true) :
    exec (.fwRelayEnd p f e) s =
      .next { s1 with sec := { s1.sec with skips := s1.sec.skips.erase (p.val, f.src.toNat) } } := by
  refine (exec_relayIn rfl hrx hkind).trans (congrArg _ ?_)
  exact if_pos h

section
variable (hskip : s1.relaySkips p.val f.src.toNat = false)
include hskip

theorem exec_fwRelayEnd_none (h : s1.relayOpen p.val f.src.toNat = none) : exec (.fwRelayEnd p f e) s = .next s1 := by
  refine (exec_relayIn rfl hrx hkind).trans (congrArg _ ?_)
  refine (if_neg (Bool.eq_false_iff.mp hskip)).trans ?_
  rw [h]

/-- The transfer of a relay closed. -/
abbrev State.xferClosed (s : State) : State := { s with sec := { s.sec with xfer := none } }

section
variable {x : Transfer} (hopen : s1.relayOpen p.val f.src.toNat = some x)
include hopen

theorem exec_fwRelayEnd_noFlash (h : e.flashOk = false) :
    exec (.fwRelayEnd p f e) s = .next s1.xferClosed.unstaged := by
  refine (exec_relayIn rfl hrx hkind).trans (congrArg _ ?_)
  refine (if_neg (Bool.eq_false_iff.mp hskip)).trans ?_
  rw [hopen]
  exact if_pos (by simp [h])

theorem exec_fwRelayEnd_refused {fault : SetFault} (h : e.flashOk = true)
    (hset : s1.xferClosed.accept x.slot = some fault) :
    exec (.fwRelayEnd p f e) s = .next s1.xferClosed.unstaged := by
  refine (exec_relayIn rfl hrx hkind).trans (congrArg _ ?_)
  refine (if_neg (Bool.eq_false_iff.mp hskip)).trans ?_
  rw [hopen]
  refine (if_neg (by simp [h])).trans ?_
  rw [← State.xferClosed, State.stageEnd_of_refused hset]

/-- R404: a set that passes is staged; in January mode, or with no hop left, it goes no further. -/
theorem exec_fwRelayEnd_staged (h : e.flashOk = true) (hset : s1.xferClosed.accept x.slot = none)
    (hlast : s1.xferClosed.january = true ∨ x.hops = 0) : exec (.fwRelayEnd p f e) s =
      .next ((s1.xferClosed.stageEnd x.slot x.relay 2).1.satFld .SEC_RELAY_relays_staged 0 1) := by
  refine (exec_relayIn rfl hrx hkind).trans (congrArg _ ?_)
  refine (if_neg (Bool.eq_false_iff.mp hskip)).trans ?_
  rw [hopen]
  refine (if_neg (by simp [h])).trans ?_
  have hfault := State.stageEnd_fault (relay := x.relay) (path := 2) hset
  have hjan := State.stageEnd_january (relay := x.relay) (path := 2) hset
  rw [← State.xferClosed]
  revert hfault hjan
  generalize s1.xferClosed.stageEnd x.slot x.relay 2 = r
  obtain ⟨t, fault⟩ := r
  rintro ⟨⟩ hjan
  have hcounted : (t.satFld .SEC_RELAY_relays_staged 0 1).january = t.january := by
    unfold State.january State.alive State.serves
    rw [State.fld_satFld_ne _ _ _ _ (by decide)]
    rfl
  exact if_pos (hlast.imp_left fun hj => (hcounted.trans hjan).trans hj)

end
end
end

/-! ### ACTIVATE (R413) -/

section
variable (hrx : s.rx p.val ftFwRelay f = .mine s1) (hkind : f.arg.toNat % 4 = 3)
include hrx hkind

theorem exec_fwRelayActivate_busy (h : s1.january = true ∨ s1.stage ≠ stStaged ∨ leNat (f.data.take 8) = 0 ∨
    leNat (f.data.take 8) ≠ s1.sec.relayId) :
    exec (.fwRelayActivate p f e) s = .next (s1.satFld .SEC_RELAY_relay_busy 0 1) := by
  refine (exec_relayIn rfl hrx hkind).trans (congrArg _ ?_)
  exact if_pos h

theorem exec_fwRelayActivate_arms (hjan : s1.january = false) (hst : s1.stage = stStaged)
    (hzero : leNat (f.data.take 8) ≠ 0) (hid : leNat (f.data.take 8) = s1.sec.relayId) :
    let t := leNat ((f.data.drop 8).take 8)
    let late := decide (t < s1.now + 10000000)
    exec (.fwRelayActivate p f e) s =
      .next ((if s1.sec.passed then s1 else s1.passActivate t).arm (if late then 0 else t) late e).1 := by
  refine (exec_relayIn rfl hrx hkind).trans (congrArg _ ?_)
  refine if_neg ?_
  rintro (h | h | h | h)
  · exact Bool.eq_false_iff.mp hjan h
  · exact h hst
  · exact hzero h
  · exact h hid

end
end

/-- Settles O52: each kind of frame by what the relay of its source stands at. -/
theorem firmwareRelay : Obligations.FirmwareRelay := by
  intro p f e s s1 hrx kind id src skips
  refine ⟨fun hk => ?start, fun hk => ?data, fun hk => ?finish, fun hk => ?activate⟩
  case start =>
    refine ⟨exec_fwRelayStart_busy hrx hk, fun haccept hfree => ⟨exec_fwRelayStart_seen hrx hk haccept hfree, ?_⟩⟩
    intro hnew hlen hmax hfits
    exact ⟨_, exec_fwRelayStart_new hrx hk haccept hfree hnew hlen hmax hfits, State.relayOpened_stage .., rfl⟩
  case data =>
    exact ⟨exec_fwRelayData_ignored hrx hk, fun x hopen hskip hroom =>
      ⟨_, exec_fwRelayData_taken hrx hk hopen hskip hroom, rfl, State.relayPut_flash ..,
        State.relayPut_regs ..⟩⟩
  case finish =>
    refine ⟨exec_fwRelayEnd_skipped hrx hk, exec_fwRelayEnd_none hrx hk, fun x hskip hopen =>
      ⟨exec_fwRelayEnd_noFlash hrx hk hskip hopen, fun hflash => ⟨fun hbad => ?_, ?_⟩⟩⟩
    · obtain ⟨fault, hset⟩ := Option.ne_none_iff_exists'.mp hbad
      exact exec_fwRelayEnd_refused hrx hk hskip hopen hflash hset
    · exact exec_fwRelayEnd_staged hrx hk hskip hopen hflash
  case activate => exact ⟨exec_fwRelayActivate_busy hrx hk, exec_fwRelayActivate_arms hrx hk⟩

end Sys2Proof.Machine

/-!
PROOFS. The swap of the firmware (R410 steps 4 to 9, R411, R412).
-/

namespace Sys2Proof.Machine

section
variable {s : State}

/-! ### The end of a swap (R410 step 9) -/

/-- An event is a vector raised, and nothing else. -/
theorem State.event_keeps {α : Type} (get : State → α) (h : ∀ (s : State) m, get { s with msix := m } = get s)
    (s : State) : get s.event = get s := by
  unfold State.event
  split
  · exact h _ _
  · rfl

theorem State.pldmEvent_keeps {α : Type} (get : State → α) (h : ∀ (s : State) x, get { s with side := x } = get s)
    (s : State) (e : Nat) : get (s.pldmEvent e) = get s := by
  unfold State.pldmEvent
  split
  · exact h _ _
  · rfl

/-- `boot_state` set changes its register, vectors and the sideband alone. -/
theorem State.setBoot_keeps {α : Type} (get : State → α)
    (hboot : ∀ (s : State) v, get (s.setFld .HIF_PROMPT_STATE_boot_state 0 v) = get s)
    (hvec : ∀ (s : State) m, get { s with msix := m } = get s)
    (hside : ∀ (s : State) x, get { s with side := x } = get s)
    (s : State) (v : Nat) : get (s.setBoot v) = get s := by
  unfold State.setBoot
  split
  · rfl
  · rw [State.pldmEvent_keeps get hside, State.event_keeps get hvec, hboot]

/-- The ports in use that have their power. -/
def State.portsPowered (s : State) : List Nat := s.portsOn.filter (fun p => !s.siliOff.contains p)

/-- R410 step 9: the ports train. -/
def State.portsTrain (s : State) : State :=
  s.each s.portsPowered (fun s p => s.setFld .FAB_PORT_STATUS_state p portTraining)

/-- R410 step 9: the ports train, and no reset is in progress. -/
def State.swapOver (s : State) : State :=
  { s.portsTrain with
    trainAt := s.portsPowered.foldl (fun m p => mapIns m p s.portsTrain.now) s.portsTrain.trainAt
    hif := { s.portsTrain.hif with rst := .none } }

theorem State.portsTrain_keeps {α : Type} (get : State → α)
    (hport : ∀ (s : State) p, get (s.setFld .FAB_PORT_STATUS_state p portTraining) = get s) (s : State) :
    get s.portsTrain = get s := State.each_same _ _ get hport

theorem State.swapEnd_of_swap (h : s.hif.rst = .swap) : s.swapEnd = s.swapOver.setBoot 8 := by
  have hrst : s.portsTrain.hif.rst = .swap := (State.portsTrain_keeps (fun s => s.hif.rst) (fun _ _ => rfl) s).trans h
  exact if_pos hrst

/-- What the end of a swap leaves as it was: what Limhel keeps, the fuses, the boot flash, the memory. -/
def State.swapView (s : State) : SecSt × Fuses × NMap Byte × NMap Byte := (s.sec, s.fuses, s.flash, s.mem)

theorem State.of_swapView {sec : SecSt} {fuses : Fuses} {flash mem : NMap Byte}
    (h : s.swapView = (sec, fuses, flash, mem)) :
    s.sec = sec ∧ s.fuses = fuses ∧ s.flash = flash ∧ s.mem = mem := by
  simpa [State.swapView] using h

theorem State.swapView_swapOver (s : State) : s.swapOver.swapView = s.swapView := by
  unfold State.swapOver
  exact State.portsTrain_keeps State.swapView (fun _ _ => rfl) s

theorem State.swapView_swapEnd (h : s.hif.rst = .swap) : s.swapEnd.swapView = s.swapView := by
  rw [State.swapEnd_of_swap h,
    State.setBoot_keeps State.swapView (fun _ _ => rfl) (fun _ _ => rfl) (fun _ _ => rfl), State.swapView_swapOver]

theorem State.swapEnd_rst (h : s.hif.rst = .swap) : s.swapEnd.hif.rst = .none := by
  rw [State.swapEnd_of_swap h,
    State.setBoot_keeps (fun s => s.hif.rst) (fun _ _ => rfl) (fun _ _ => rfl) (fun _ _ => rfl)]
  rfl

theorem State.swapEnd_boot (h : s.hif.rst = .swap) : s.swapEnd.fld .HIF_PROMPT_STATE_boot_state 0 = 8 := by
  rw [State.swapEnd_of_swap h]
  exact State.fld_setBoot_self (by decide)

/-- The end of a swap changes the ports' states and `boot_state`, and no other register. -/
theorem State.fld_swapEnd {g : Fld} (h : s.hif.rst = .swap) (hport : g ≠ .FAB_PORT_STATUS_state)
    (hboot : g ≠ .HIF_PROMPT_STATE_boot_state) (i : Nat) : s.swapEnd.fld g i = s.fld g i := by
  rw [State.swapEnd_of_swap h, State.fld_setBoot_ne _ _ hboot]
  unfold State.swapOver
  exact State.portsTrain_keeps (State.fld · g i) (fun s p => s.fld_setFld_ne _ _ _ hport) s

/-! ### ARMED_INSTANT (R410 steps 4 to 7) -/

theorem exec_armedInstant_now (hready : s.ready = true) (hst : s.stage = stArmed)
    (hdue : s.fld .SEC_FW_ARM_at_ns 0 ≤ s.now) :
    let a := s.setFld .SEC_FW_STATE_stage_state 0 stActivating
    let b : State := { a with hif := { a.hif with rst := .swap }, sec := { a.sec with swapAt := a.now } }
    exec .armedInstant s = .next (((b.setBoot 0xB).endWork).each b.portsOn State.portReset) :=
  congrArg Host.Outcome.next (if_neg (by simp [hready, hst, hdue]))

theorem exec_armedInstant_early (hsoon : s.now < s.fld .SEC_FW_ARM_at_ns 0) : exec .armedInstant s = .next s :=
  congrArg Host.Outcome.next (if_pos (by simp [hsoon]))

/-! ### The dies swap back (R411) -/

theorem State.swapLate_iff : s.swapLate = true ↔ s.sec.swapAt + 2000000000 ≤ s.now := decide_eq_true_iff

theorem State.swapLate_of_soon (h : s.now < s.sec.swapAt + 2000000000) : s.swapLate = false :=
  decide_eq_false h.not_ge

theorem exec_dieStartTimeout_early (h : s.swapLate = false) : exec .dieStartTimeout s = .next s :=
  congrArg Host.Outcome.next (if_pos (by simp [h]))

section
variable (hswap : s.swapping = true)
include hswap

theorem exec_diesStarted_late (h : s.swapLate = true) : exec .diesStarted s = .next s.swapBack :=
  congrArg Host.Outcome.next ((if_neg (by simp [hswap])).trans (if_pos h))

theorem exec_dieStartTimeout_late (h : s.swapLate = true) : exec .dieStartTimeout s = .next s.swapBack :=
  congrArg Host.Outcome.next (if_neg (by simp [hswap, h]))

theorem exec_diesStarted_working (h : s.swapLate = false) (hwork : s.drained = false) :
    exec .diesStarted s = .next s :=
  congrArg Host.Outcome.next
    ((if_neg (by simp [hswap])).trans ((if_neg (Bool.eq_false_iff.mp h)).trans (if_pos (by simp [hwork]))))

end

/-- The registers that a swap back sets. -/
def backFlds : List (Fld × Nat) := [(.SEC_FW_STATE_last_result, 2), (.SEC_FW_STATE_stage_state, stStaged)]

theorem State.swapBack_eq (s : State) : s.swapBack = (s.setFlds 0 backFlds).swapEnd := rfl

theorem State.rst_back (h : s.hif.rst = .swap) : (s.setFlds 0 backFlds).hif.rst = .swap := by
  rw [State.setFlds_hif, h]

theorem State.fld_swapBack {f : Fld} {v : Nat} (h : s.hif.rst = .swap) (hf : (f, v) ∈ backFlds)
    (hport : f ≠ .FAB_PORT_STATUS_state) (hboot : f ≠ .HIF_PROMPT_STATE_boot_state) :
    s.swapBack.fld f 0 = v % 2 ^ f.desc.width := by
  rw [State.swapBack_eq, State.fld_swapEnd (State.rst_back h) hport hboot]
  exact State.fld_setFlds_of_mem (by decide) hf

theorem State.swapView_swapBack (h : s.hif.rst = .swap) : s.swapBack.swapView = s.swapView := by
  rw [State.swapBack_eq, State.swapView_swapEnd (State.rst_back h)]
  unfold State.swapView
  rw [State.setFlds_sec, State.setFlds_fuses, State.setFlds_flash, State.setFlds_mem]

/-! ### The set that has started runs (R410 step 8, R412) -/

/-- R412: the seal of the staged set written, its fuses blown. -/
def State.setSealed (s : State) : State :=
  (s.writeSeal s.sec.slot ((s.sealSeq (s.fld .SEC_FW_STATE_running_slot 0)).getD 0 + 1)).blowFuses
    (s.manifest s.sec.slot)

/-- The registers that name the set that runs. -/
def ranFlds (late : Bool) (m : List Byte) (slot : Nat) : List (Fld × Nat) :=
  [(.SEC_FW_STATE_last_result, if late then 3 else 1), (.SEC_FW_RUN_version, mnum m 0x10 8),
    (.SEC_FW_STATE_running_slot, slot)]

/-- The staged set runs. -/
def State.setRuns (s : State) : State :=
  let t := s.setSealed.setFlds 0 (ranFlds s.setSealed.sec.late (s.manifest s.sec.slot) s.sec.slot)
  { t with sec := { t.sec with running := s.manifest s.sec.slot, late := false } }

theorem exec_diesStarted_ends (hswap : s.swapping = true) (hlate : s.swapLate = false) (hdone : s.drained = true) :
    exec .diesStarted s = .next s.setRuns.unstaged.swapEnd := by
  unfold State.setRuns State.setSealed
  refine congrArg Host.Outcome.next ((if_neg (by simp [hswap])).trans ((if_neg (Bool.eq_false_iff.mp hlate)).trans ?_))
  exact if_neg (by simp [hdone])

theorem State.blowFuses_keeps {α : Type} (get : State → α) (h : ∀ (s : State) x, get { s with fuses := x } = get s)
    (s : State) (m : List Byte) : get (s.blowFuses m) = get s := by
  unfold State.blowFuses
  split
  · rfl
  · exact h _ _

theorem State.setSealed_keeps {α : Type} (get : State → α) (hflash : ∀ (s : State) m, get { s with flash := m } = get s)
    (hfuses : ∀ (s : State) x, get { s with fuses := x } = get s) (s : State) : get s.setSealed = get s :=
  (State.blowFuses_keeps get hfuses ..).trans (State.writeSeal_keeps get hflash ..)

/-- R412: the fuses that a set with bit 0 of its flags blows, and no others. -/
theorem State.setSealed_fuses (s : State) : s.setSealed.fuses = let m := s.manifest s.sec.slot
    if mnum m 0xE 2 % 2 = 0 then s.fuses
    else { s.fuses with svn := max s.fuses.svn (mnum m 0x18 4), revoked := s.fuses.revoked ||| mnum m 0x1C 2 } := by
  have hseal := State.writeSeal_keeps State.fuses (fun _ _ => rfl) s s.sec.slot
    ((s.sealSeq (s.fld .SEC_FW_STATE_running_slot 0)).getD 0 + 1)
  unfold State.setSealed State.blowFuses
  dsimp only
  rw [← hseal]
  split <;> rfl

theorem leNat_lt (l : List Byte) : leNat l < 256 ^ l.length := by
  induction l with
  | nil => exact Nat.one_pos
  | cons b l ih =>
    have hb := b.isLt
    rw [leNat, List.length_cons, Nat.pow_succ]
    omega

theorem mnum_lt (m : List Byte) (o n : Nat) : mnum m o n < 256 ^ n :=
  (leNat_lt _).trans_le (Nat.pow_le_pow_right (by decide) (List.length_take_le ..))

/-- The registers of a set that is no longer staged. -/
def unstagedFlds : List (Fld × Nat) :=
  [(.SEC_FW_STATE_stage_state, stNone), (.SEC_FW_STAGED_version, 0), (.SEC_RELAY_ID_relay_id, 0)]

theorem State.fld_unstaged {g : Fld} (s : State) (h : ∀ x ∈ unstagedFlds, x.1 ≠ g) :
    s.unstaged.fld g 0 = s.fld g 0 := by
  unfold State.unstaged
  exact (State.fld_setFlds_ne _ _ _ _ h).trans (State.fld_congr rfl g 0)

theorem State.setRuns_regs (s : State) : s.setRuns.regs =
    (s.setSealed.setFlds 0 (ranFlds s.setSealed.sec.late (s.manifest s.sec.slot) s.sec.slot)).regs := by
  unfold State.setRuns
  dsimp only

/-- The registers that name the set that runs are none of a port, of the start or of a staged set. -/
theorem ranFlds_apart {late : Bool} {m : List Byte} {slot v : Nat} {f : Fld} (h : (f, v) ∈ ranFlds late m slot) :
    f ≠ .FAB_PORT_STATUS_state ∧ f ≠ .HIF_PROMPT_STATE_boot_state ∧ ∀ x ∈ unstagedFlds, x.1 ≠ f := by
  have hf : f = .SEC_FW_STATE_last_result ∨ f = .SEC_FW_RUN_version ∨ f = .SEC_FW_STATE_running_slot := by
    simp only [ranFlds, List.mem_cons, List.not_mem_nil, Prod.mk.injEq, or_false] at h
    exact h.imp And.left (Or.imp And.left And.left)
  rcases hf with rfl | rfl | rfl <;> decide

section
variable (h : s.hif.rst = .swap)
include h

theorem State.rst_setRuns : s.setRuns.unstaged.hif.rst = .swap := by
  unfold State.unstaged State.setRuns
  rw [State.setFlds_hif]
  dsimp only
  rw [State.setFlds_hif, State.setSealed_keeps (fun s => s.hif.rst) (fun _ _ => rfl) (fun _ _ => rfl), h]

/-- The end of a swap leaves the registers of the set that runs as that set gave them. -/
theorem State.fld_setRuns {f : Fld} {v : Nat} (hf : (f, v) ∈ ranFlds s.sec.late (s.manifest s.sec.slot) s.sec.slot) :
    s.setRuns.unstaged.swapEnd.fld f 0 = v % 2 ^ f.desc.width := by
  obtain ⟨hport, hboot, hstaged⟩ := ranFlds_apart hf
  have hlate : s.setSealed.sec.late = s.sec.late :=
    State.setSealed_keeps (fun s => s.sec.late) (fun _ _ => rfl) (fun _ _ => rfl) s
  rw [State.fld_swapEnd (State.rst_setRuns h) hport hboot, State.fld_unstaged _ hstaged,
    State.fld_congr (State.setRuns_regs s), hlate]
  exact State.fld_setFlds_of_mem (by simp [ranFlds]) hf

theorem State.stage_setRuns : s.setRuns.unstaged.swapEnd.stage = stNone :=
  (State.fld_swapEnd (State.rst_setRuns h) (by decide) (by decide) 0).trans (State.unstaged_stage _)

theorem State.swapView_setRuns : s.setRuns.unstaged.swapEnd.swapView =
    (s.setRuns.unstaged.sec, s.setSealed.fuses, s.setSealed.flash, s.mem) := by
  have hmem := State.setSealed_keeps State.mem (fun _ _ => rfl) (fun _ _ => rfl) s
  rw [State.swapView_swapEnd (State.rst_setRuns h)]
  unfold State.swapView State.unstaged State.setRuns
  simp only [State.setFlds_fuses, State.setFlds_flash, State.setFlds_mem, hmem]

end

theorem State.running_setRuns (s : State) : s.setRuns.unstaged.sec.running = s.manifest s.sec.slot := by
  unfold State.unstaged State.setRuns
  rw [State.setFlds_sec]

end

/-- Settles O49: the armed instant and the dies' start by their guards, a swap that ends by what `swapEnd` leaves. -/
theorem firmwareSwap : Obligations.FirmwareSwap := by
  intro s
  refine ⟨exec_armedInstant_now, fun _ _ hsoon => exec_armedInstant_early hsoon, fun hswap hlong => ?late,
    fun hswap hsoon hwork => exec_diesStarted_working hswap (State.swapLate_of_soon hsoon) hwork,
    fun hswap hsoon hdone hrst => ?runs, fun hswap => ⟨fun hsoon => ?waits, fun hlong hrst => ?back⟩⟩
  case late =>
    have hlate := State.swapLate_iff.mpr hlong
    exact ⟨exec_diesStarted_late hswap hlate, exec_dieStartTimeout_late hswap hlate⟩
  case runs =>
    obtain ⟨hsec, hfuses, -, hmem⟩ := State.of_swapView (State.swapView_setRuns hrst)
    rw [State.setSealed_fuses] at hfuses
    refine ⟨s.setRuns.unstaged.swapEnd, exec_diesStarted_ends hswap (State.swapLate_of_soon hsoon) hdone,
      State.swapEnd_boot (State.rst_setRuns hrst), ?running, State.stage_setRuns hrst,
      State.fld_setRuns hrst (by simp [ranFlds]), ?version, ?result, State.swapEnd_rst (State.rst_setRuns hrst),
      fun hblow => ?blown, fun hkeep => ?kept, hmem⟩
    case running => exact (congrArg SecSt.running hsec).trans (State.running_setRuns s)
    case version =>
      refine (State.fld_setRuns hrst (v := mnum (s.manifest s.sec.slot) 0x10 8) (by simp [ranFlds])).trans
        (Nat.mod_eq_of_lt ?_)
      exact (mnum_lt _ 0x10 8).trans_eq (by decide)
    case result =>
      refine (State.fld_setRuns hrst (v := if s.sec.late then 3 else 1) (by simp [ranFlds])).trans ?_
      split <;> rfl
    case blown =>
      have hone : ¬ mnum (s.manifest s.sec.slot) 0xE 2 % 2 = 0 := by omega
      have hnew := hfuses.trans (if_neg hone)
      exact ⟨congrArg Fuses.svn hnew, congrArg Fuses.revoked hnew⟩
    case kept => exact hfuses.trans (if_pos hkeep)
  case waits => exact exec_dieStartTimeout_early (State.swapLate_of_soon hsoon)
  case back =>
    obtain ⟨hsec, hfuses, hflash, -⟩ := State.of_swapView (State.swapView_swapBack hrst)
    exact ⟨_, exec_dieStartTimeout_late hswap (State.swapLate_iff.mpr hlong), State.swapEnd_boot (State.rst_back hrst),
      State.fld_swapBack hrst (v := 2) (by simp [backFlds]) (by decide) (by decide),
      State.fld_swapBack hrst (v := stStaged) (by simp [backFlds]) (by decide) (by decide),
      State.swapEnd_rst (State.rst_back hrst), hsec, hflash, hfuses⟩

end Sys2Proof.Machine

/-!
PROOFS. The mailbox commands (R417): ABORT with a relay's transfer open.
-/

namespace Sys2Proof.Machine

/-! ### ABORT ends the mailbox's own transfer (R417) -/

section
variable {s t : State} {x : Transfer}

theorem State.relayOpen_of_other_port {p src : Nat} (hx : s.sec.xfer = some x) (hport : x.port ≠ p) :
    s.relayOpen p src = none := by
  unfold State.relayOpen
  rw [hx]
  exact if_neg (fun h => hport h.1)

theorem State.mbxDrop_of_none (h : s.relayOpen mbxPort = none) : s.mbxDrop = (s, 0) := by
  unfold State.mbxDrop
  rw [h]

/-- ABORT leaves a transfer that came by another port open. -/
theorem xfer_of_mbxAbort (hup : s.mbxUp = true) (hx : s.sec.xfer = some x) (hport : x.port ≠ mbxPort)
    (h : exec .mbxAbort s = .next t) : t.sec.xfer = some x := by
  have hexec : exec .mbxAbort s = .next (s.mbx 4 0 State.mbxDrop) := congrArg Host.Outcome.next (if_pos hup)
  obtain rfl := Host.Outcome.next.inj (h.symm.trans hexec)
  unfold State.mbx
  dsimp only
  have hsec (u : State) (l : List (Fld × Nat)) (hu : u.sec = s.sec) : (u.setFlds 0 l).sec.xfer = some x := by
    rw [State.setFlds_sec, hu, hx]
  rw [State.mbxDrop_of_none (State.relayOpen_of_other_port (hsec s _ rfl) hport)]
  exact hsec _ _ (State.setFlds_sec ..)

end

/-! ### A relay that is open when the host writes ABORT -/

/-- A serving device on the host link while relay 7 comes from device 1 on port 3: the transfer that FW_RELAY_START
leaves open (`State.relayOpened`), of 100 bytes into slot 1. -/
def relayComing : State := { State.reset with
  pwr := { State.reset.pwr with perst := false }
  hif := { State.reset.hif with linkUp := true, crs := false }
  sec := { State.reset.sec with xfer := some ⟨1, 0, 100, 0, 7, 0, 3, 1⟩ }
  regs := [(fldKey .HIF_PROMPT_STATE_boot_state 0, 8), (fldKey .SEC_FW_STATE_stage_state 0, stStaging)] }

theorem relayComing_mbxUp : relayComing.mbxUp = true := by decide

theorem relayComing_xfer : relayComing.sec.xfer = some ⟨1, 0, 100, 0, 7, 0, 3, 1⟩ := rfl

/-- Refutes O48: the statement has ABORT end every open transfer, where the model's ABORT ends the
mailbox's own (`State.mbxDrop`): the transfer of a relay on port 3 is still open after it. -/
theorem not_mailbox : ¬ Obligations.Mailbox := by
  intro h
  obtain ⟨-, -, -, ⟨t, ht, -, hclosed⟩, -⟩ := h relayComing relayComing_mbxUp
  have hopen := xfer_of_mbxAbort relayComing_mbxUp relayComing_xfer (by decide) ht
  exact Option.some_ne_none _ (hopen.symm.trans hclosed)

end Sys2Proof.Machine

/-!
PROOFS. The sideband (R443, R452, R453) and the test access port (R454, R455).
-/

namespace Sys2Proof.Machine

section
variable {s : State}

/-! ### MCTP and PLDM (R443, R452, R453) -/

/-- What acts only while the MCTP endpoint answers, acts. -/
theorem next_of_sideUp {t u : State} (h : s.sideUp = true) :
    (.next (if s.sideUp then t else u) : Out) = .next t := congrArg Host.Outcome.next (if_pos h)

/-- R452: an endpoint ID that names an endpoint is taken. -/
theorem exec_setEndpointId_of_valid {e : Byte} (hup : s.sideUp = true) (hzero : e ≠ 0) (hall : e ≠ 0xFF) :
    exec (.setEndpointId e) s = .next { s with side := { s.side with eid := e.toNat } } :=
  congrArg Host.Outcome.next (if_pos (by simpa [hup] using And.intro hzero hall))

theorem exec_setEndpointId_of_reserved {e : Byte} (h : e = 0 ∨ e = 0xFF) : exec (.setEndpointId e) s = .next s := by
  refine congrArg Host.Outcome.next (if_neg ?_)
  rcases h with rfl | rfl <;> simp

/-- R443, R452: effecter 1 is the power cap. -/
theorem exec_pldmEffecterSet_cap (hup : s.sideUp = true) (hrun : s.pmRuns = true) (v : Nat) :
    exec (.pldmEffecterSet 1 v) s = .next (s.setCap v 3) :=
  congrArg Host.Outcome.next (if_pos (by simp [hup, hrun]))

theorem exec_pldmEffecterSet_other {i : Nat} (v : Nat) (h : i ≠ 1) : exec (.pldmEffecterSet i v) s = .next s :=
  congrArg Host.Outcome.next (if_neg (by simp [h]))

theorem nodup_capFlds (w src : Nat) :
    (([(.PWR_CAP_cap_w, w), (.PWR_CAP_source, src)] : List (Fld × Nat)).map Prod.fst).Nodup := by simp

/-- R443: the power cap stays within 2,100 W and 2,800 W. -/
theorem State.fld_setCap_cap (s : State) (w src : Nat) :
    (s.setCap w src).fld .PWR_CAP_cap_w 0 = max 2100 (min 2800 w) := by
  refine (State.fld_setFlds_of_mem (v := max 2100 (min 2800 w)) (nodup_capFlds ..) (by simp)).trans
    (Nat.mod_eq_of_lt ?_)
  have hwidth : Fld.PWR_CAP_cap_w.desc.width = 12 := rfl
  rw [hwidth]
  omega

theorem State.fld_setCap_source (s : State) (w src : Nat) : (s.setCap w src).fld .PWR_CAP_source 0 = src % 4 :=
  State.fld_setFlds_of_mem (nodup_capFlds ..) (by simp)

theorem State.pldmSensor_power (h : s.pmRuns = true) : s.pldmSensor 1 = some (s.fld .PWR_STATUS_power_w 0 : Int) :=
  if_pos h

/-! ### The test access port (R454, R455) -/

/-- R455: the instructions that hold every high-speed link down. -/
def holdingCodes : List (BitVec 8) := [0x00, 0x03, 0x04, 0x09, 0x0A]

/-- The TAP with an instruction in it, and what it drives. -/
def State.withIr (s : State) (ir : BitVec 8) (drive : Option (BitVec 614)) (hiz bypass : Bool) : State :=
  { s with tap := { s.tap with ir := ir, drive := drive, hiz := hiz, bypass := bypass } }

theorem State.tapLoad_of_power {ir : BitVec 8} {drive : Option (BitVec 614)} {hiz bypass : Bool}
    (hgood : s.pwr.pwrgood = true) : s.tapLoad ir drive hiz bypass =
      if holdingCodes.contains ir && !s.linksHeld then (s.withIr ir drive hiz bypass).linksDrop
      else s.withIr ir drive hiz bypass :=
  if_neg (by simp [hgood])

/-- R455: an instruction that holds the links down drops them where they were not held before. -/
theorem State.tapLoad_holding {ir : BitVec 8} {drive : Option (BitVec 614)} {hiz bypass : Bool}
    (hgood : s.pwr.pwrgood = true) (hir : holdingCodes.contains ir = true) :
    (s.linksHeld = true → s.tapLoad ir drive hiz bypass = s.withIr ir drive hiz bypass) ∧
    (s.linksHeld = false → s.tapLoad ir drive hiz bypass = (s.withIr ir drive hiz bypass).linksDrop) := by
  rw [State.tapLoad_of_power hgood, hir]
  exact ⟨fun h => if_neg (by simp [h]), fun h => if_pos (by simp [h])⟩

theorem State.tapLoad_free {ir : BitVec 8} {drive : Option (BitVec 614)} {hiz bypass : Bool}
    (hgood : s.pwr.pwrgood = true) (hir : ir ∉ holdingCodes) :
    s.tapLoad ir drive hiz bypass = s.withIr ir drive hiz bypass := by
  have hcode : holdingCodes.contains ir = false := by simpa using hir
  rw [State.tapLoad_of_power hgood, hcode]
  rfl

/-- A command that loads an instruction holding the links down. -/
theorem exec_holding {c : Instr} {ir : BitVec 8} {drive : Option (BitVec 614)} {hiz bypass : Bool}
    (hgood : s.pwr.pwrgood = true) (hir : holdingCodes.contains ir = true)
    (hc : exec c s = .next (s.tapLoad ir drive hiz bypass)) :
    (s.linksHeld = true → exec c s = .next (s.withIr ir drive hiz bypass)) ∧
    (s.linksHeld = false → exec c s = .next (s.withIr ir drive hiz bypass).linksDrop) := by
  obtain ⟨hheld, hfree⟩ := State.tapLoad_holding (drive := drive) (hiz := hiz) (bypass := bypass) hgood hir
  exact ⟨fun h => hc.trans (congrArg _ (hheld h)), fun h => hc.trans (congrArg _ (hfree h))⟩

theorem State.tapId_of_power (hgood : s.pwr.pwrgood = true) : s.tapId = { s with tap := { s.tap with
    ir := 0x01, drive := none, hiz := false, bypass := false, dr := 0x1481256F } } := by
  rw [State.tapId, State.tapLoad_free hgood (by decide)]
  exact if_pos hgood

/-- R454: the codes that a row of the table lists. -/
def listedCodes : List (BitVec 8) := [0x00, 0x01, 0x02, 0x03, 0x04, 0x09, 0x0A]

theorem exec_bypass_listed {code : BitVec 8} (h : code ∈ listedCodes) : exec (.bypass code) s = .next s :=
  congrArg Host.Outcome.next (if_pos (List.contains_iff_mem.mpr h))

theorem exec_bypass_other {code : BitVec 8} (hgood : s.pwr.pwrgood = true) (h : code ∉ listedCodes) :
    exec (.bypass code) s = .next (s.withIr code none false true) := by
  have hfree : code ∉ holdingCodes := fun hc => h ((by decide : holdingCodes ⊆ listedCodes) hc)
  rw [← State.tapLoad_free hgood hfree]
  exact congrArg Host.Outcome.next (if_neg (mt List.contains_iff_mem.mp h))

theorem exec_samplePreload_of_power (hgood : s.pwr.pwrgood = true) (pins pre : BitVec 614) :
    exec (.samplePreload pins pre) s = .next { s with tap := { s.tap with
      ir := 0x02, drive := none, hiz := false, bypass := false, sampled := pins, preload := pre } } := by
  refine congrArg Host.Outcome.next ((if_neg (by simp [hgood])).trans ?_)
  rw [State.tapLoad_free hgood (by decide)]
  rfl

end

/-- Settles O59: the sideband by the guards of its commands, the TAP by whether the instruction loaded holds the links
down. -/
theorem sidebandAndTest : Obligations.SidebandAndTest := by
  refine fun s => ⟨fun hup => ⟨fun e hzero hall => exec_setEndpointId_of_valid hup hzero hall,
    exec_setEndpointId_of_reserved (.inl rfl), exec_setEndpointId_of_reserved (.inr rfl), fun e => next_of_sideUp hup,
    fun i => next_of_sideUp hup, fun hrun => ⟨State.pldmSensor_power hrun, fun v => ?cap⟩,
    fun i v hi => exec_pldmEffecterSet_other v hi, next_of_sideUp hup⟩,
    fun hgood => ⟨?drives, ?identifies, fun code hc => exec_bypass_listed hc, fun code hc => exec_bypass_other hgood hc,
      exec_samplePreload_of_power hgood⟩⟩
  case cap =>
    exact ⟨_, exec_pldmEffecterSet_cap hup hrun v, State.fld_setCap_source s v 3, State.fld_setCap_cap s v 3,
      State.setFlds_only ..⟩
  case drives =>
    rw [List.forall_mem_cons, List.forall_mem_cons, List.forall_mem_cons, List.forall_mem_cons,
      List.forall_mem_singleton]
    exact ⟨exec_holding hgood (rfl) rfl, exec_holding hgood (rfl) rfl, exec_holding hgood (rfl) rfl,
      exec_holding hgood (rfl) rfl, exec_holding hgood (rfl) rfl⟩
  case identifies =>
    rw [List.forall_mem_cons, List.forall_mem_singleton]
    exact ⟨congrArg _ (State.tapId_of_power hgood), congrArg _ (State.tapId_of_power hgood)⟩

end Sys2Proof.Machine
